-- ==== Sys2Proof/Word.lean ====
section
/-! DEFINITION. The byte, byte strings and the two byte orders of the manual: host-visible structures are little-endian
(R5), the recorded format is most significant byte first (R6). -/

namespace Sys2Proof

/-- One byte. -/
abbrev Byte := BitVec 8

/-- A byte string, lowest address first. -/
abbrev Bytes := List Byte

/-- The unsigned number a little-endian byte string holds (R5). -/
def leNat : Bytes → Nat
  | [] => 0
  | b :: bs => b.toNat + 256 * leNat bs

/-- The unsigned number a most-significant-first byte string holds (R6). -/
def beNat (bs : Bytes) : Nat := bs.foldl (fun a b => 256 * a + b.toNat) 0

/-- `n` bytes of a number, little-endian (R5). -/
def leBytes : Nat → Nat → Bytes
  | 0, _ => []
  | n + 1, x => BitVec.ofNat 8 x :: leBytes n (x / 256)

/-- `n` bytes of a number, most significant first (R6). -/
def beBytes (n x : Nat) : Bytes := (leBytes n x).reverse

/-- `n` zero bytes. -/
def zeroBytes (n : Nat) : Bytes := List.replicate n 0

/-- The `n` bytes from offset `o`, short when the string ends. -/
def slice (bs : Bytes) (o n : Nat) : Bytes := (bs.drop o).take n

/-- The bytes of `bs`, cut or padded with zeros to exactly `n`. -/
def fitBytes (n : Nat) (bs : Bytes) : Bytes := bs.take n ++ zeroBytes (n - bs.length)

/-- Bits [hi:lo] of a number, both ends included (R4). -/
def bitsOf (x hi lo : Nat) : Nat := x / 2 ^ lo % 2 ^ (hi + 1 - lo)

end Sys2Proof
end

