-- ==== Sys2Proof/Syntax.lean ====
section
/-! DEFINITION. The commands of the device, one constructor per row of the table of operations and events, in its order. A command a
host sends through a submission queue carries its queue and command identifier; a register write that may be a host Parameter
Write carries an optional header (none: the write is Ringmaster's own). Measurements and other answers from outside the chip are
operands. -/

namespace Sys2Proof

/-- Where a host command comes from: its submission queue (0 is the admin queue) and its command identifier. -/
structure Hdr where
  /-- Submission queue. -/
  sq : Nat
  /-- Command identifier. -/
  cid : Nat
  deriving DecidableEq, Repr

/-- What the outside answers during BOOT (R429, R505 to R508): the self-test, the NOR identification, buffer training, the ONFI
channels that fail training, the dies that answer per channel, the JTAG strap and the composite temperature at power-up. -/
structure BootEnv where
  /-- Lockstep self-test of cores 0 and 1 passed (step 1). -/
  selfTest : Bool
  /-- The NOR answered with SFDP, 4-byte commands and at least 32 MiB (R506). -/
  norOk : Bool
  /-- LPDDR5X training passed. -/
  ddrOk : Bool
  /-- The checkpoint and both journals can each be read from a mirror (step 7). -/
  journalsOk : Bool
  /-- Journals of which one mirror cannot be read, 1 index journal, 2 map journal: they are rewritten from the other mirror (R303, R321). -/
  mirrorLost : List Nat
  /-- ONFI channels that failed training. -/
  onfiFail : List Nat
  /-- Dies answering on each channel. -/
  diesAnswer : Nat
  /-- TEST_MODE strap (R507). -/
  testMode : Nat
  /-- Composite temperature, tenths of a degree (R508). -/
  tempDeci : Int
  deriving DecidableEq, Repr

/-- The commands. -/
inductive Instr where
  /-- CREATE_IO_SUBMISSION_QUEUE (R328): Admin command that creates an I/O submission queue after checking its identifier and size. -/
  | createIoSubmissionQueue (h : Hdr) (qid : Nat) (size : Nat) (prio : Nat) (cqid : Nat) (pc : Bool)
  /-- CREATE_IO_COMPLETION_QUEUE (R328): Admin command that creates an I/O completion queue, refusing the event MSI-X vector when it is in use. -/
  | createIoCompletionQueue (h : Hdr) (qid : Nat) (size : Nat) (vector : Nat) (ien : Bool) (pc : Bool)
  /-- DELETE_IO_SUBMISSION_QUEUE (R349): Admin command that deletes a submission queue and gives every held command from it exactly one completion. -/
  | deleteIoSubmissionQueue (h : Hdr) (qid : Nat)
  /-- DELETE_IO_COMPLETION_QUEUE (R349): Admin command that deletes a completion queue, refused while submission queues are still attached. -/
  | deleteIoCompletionQueue (h : Hdr) (qid : Nat)
  /-- GET_LOG_PAGE (R356): Admin command that returns a log page captured at fetch and unmasks the matching asynchronous event type. -/
  | getLogPage (h : Hdr) (lid : Nat) (off : Nat) (dwords : Nat) (rae : Bool)
  /-- IDENTIFY (R352): Admin command that returns controller or namespace identification data for the supported CNS values. -/
  | identify (h : Hdr) (cns : Nat) (nsid : Nat) (csi : Nat)
  /-- ABORT (R348): Admin command that never aborts and completes with the command-not-aborted bit set, within the limit of four outstanding. -/
  | abort (h : Hdr) (sqid : Nat) (cid : Nat)
  /-- SET_FEATURES (R353): Set Features of a standard feature that has no row of its own, refusing the Save bit and unsupported identifiers. -/
  | setFeatures (h : Hdr) (fid : Nat) (save : Bool) (d11 : Nat) (d12 : Nat) (data : Bytes)
  /-- SET_VOLATILE_WRITE_CACHE (R342): Set Features 06h, which enables or disables the volatile write cache and so sets the effective credit to 0 or releases it. -/
  | setVolatileWriteCache (h : Hdr) (save : Bool) (d11 : Nat)
  /-- SET_HOST_MEMORY_BUFFER (R319): Set Features 0Dh, which enables or disables the host memory buffer and, in C16 with a large enough buffer, starts loading the fine map into it. -/
  | setHostMemoryBuffer (h : Hdr) (save : Bool) (d11 : Nat) (size : Nat)
  /-- SET_TIMESTAMP (R353): Set Features 0Eh, which sets the Chervil real-time clock when an owner session is open. -/
  | setTimestamp (h : Hdr) (save : Bool) (ms : Nat)
  /-- SET_SPEED_POLICY (R355): Set Features C0h, which checks and writes the speed policy fields as Parameter Writes and commits its RW-S fields. -/
  | setSpeedPolicy (h : Hdr) (save : Bool) (data : Bytes)
  /-- SET_ACKNOWLEDGE_CREDIT_POLICY (R355): Set Features C1h, which writes HIF_CREDIT_LIMIT. -/
  | setAcknowledgeCreditPolicy (h : Hdr) (save : Bool) (d11 : Nat)
  /-- SET_COMPRESSION_POLICY (R355): Set Features C2h, which writes CMP_MODE and CMP_ACTIVE. -/
  | setCompressionPolicy (h : Hdr) (save : Bool) (d11 : Nat)
  /-- SET_OPERATING_CONTEXT (R21): Set Features C3h, which changes the operating context under the state and authentication rules and moves between SERVICE and READY or SAFE. -/
  | setOperatingContext (h : Hdr) (save : Bool) (d11 : Nat)
  /-- SET_REWRITE_POLICY (R355): Set Features C4h, which writes the verify, rewrite and retry limits. -/
  | setRewritePolicy (h : Hdr) (save : Bool) (data : Bytes)
  /-- SET_COMPUTE_POLICY (R355): Set Features C5h, which writes the usable compute cores and the resident instance limit. -/
  | setComputePolicy (h : Hdr) (save : Bool) (d11 : Nat)
  /-- GET_FEATURES (R353): Admin command that returns the current, default or saved value of a feature, or reports it changeable. -/
  | getFeatures (h : Hdr) (fid : Nat) (sel : Nat) (d11 : Nat)
  /-- ASYNCHRONOUS_EVENT_REQUEST (R358): Admin command left outstanding until an enabled, unmasked asynchronous event is reported through it. -/
  | asynchronousEventRequest (h : Hdr)
  /-- FIRMWARE_IMAGE_DOWNLOAD (R350): Admin command that transfers part of a patch package to the device. -/
  | firmwareImageDownload (h : Hdr) (off : Nat) (data : Bytes)
  /-- FIRMWARE_COMMIT_STORE (R351): Firmware Commit action 000b, which checks the downloaded package and stores it in slot 2. -/
  | firmwareCommitStore (h : Hdr) (slot : Nat)
  /-- FIRMWARE_COMMIT_STORE_AND_MARK (R351): Firmware Commit action 001b, which stores the package and marks it for activation at the next suitable controller reset or BOOT. -/
  | firmwareCommitStoreAndMark (h : Hdr) (slot : Nat)
  /-- FIRMWARE_COMMIT_MARK (R351): Firmware Commit action 010b, which marks the existing slot 2 image for activation. -/
  | firmwareCommitMark (h : Hdr) (slot : Nat)
  /-- FIRMWARE_COMMIT_ACTIVATE (R351): Firmware Commit action 011b, which activates at once unless the tape moves, pausing fetch and resuming within 200 ms. -/
  | firmwareCommitActivate (h : Hdr) (slot : Nat)
  /-- FORMAT_NVM (R341): Format of the sidecar namespace with secure erase setting 0 or 1, which unmaps every extent and, for setting 1, erases the blocks. -/
  | formatNvm (h : Hdr) (nsid : Nat) (ses : Nat) (lbaf : Nat)
  /-- FORMAT_SECURE_ERASE_TAKE (R273): Format of NSID 1 with secure erase setting 2 in service context, which rotates keys, discards staged take data and reinitialises the cartridge count. -/
  | formatSecureEraseTake (h : Hdr) (nsid : Nat) (lbaf : Nat)
  /-- PARAMETER_READ (R483): Admin command that returns elements of a parameter in the current, staged, state or descriptor view. -/
  | parameterRead (h : Hdr) (d10 : Nat) (first : Nat) (count : Nat)
  /-- PARAMETER_WRITE (R484): Admin command that checks and writes or stages elements of any parameter that has no row of its own. -/
  | parameterWrite (h : Hdr) (d10 : Nat) (first : Nat) (count : Nat) (data : Bytes)
  /-- PARAMETER_COMMIT (R481): Parameter Commit operation 0, which checks every candidate commit group and makes all staged values pending or rejects them all. -/
  | parameterCommit (h : Hdr) (op : Nat)
  /-- PARAMETER_DISCARD (R484): Parameter Commit operation 1, which discards every staged value. -/
  | parameterDiscard (h : Hdr)
  /-- KEY_DEPOSIT_CLAIM (R270): Key Deposit operation 0x01, which stores the owner key in clear on an unclaimed magazine. -/
  | keyDepositClaim (h : Hdr) (data : Bytes)
  /-- KEY_DEPOSIT_REPLACE_OWNER_KEY (R270): Key Deposit operation 0x02, which replaces the owner key and ends the session. -/
  | keyDepositReplaceOwnerKey (h : Hdr) (data : Bytes)
  /-- KEY_DEPOSIT_ESCROW_KEY (R270): Key Deposit operation 0x03, which stores an escrow key and its label. -/
  | keyDepositEscrowKey (h : Hdr) (data : Bytes)
  /-- KEY_DEPOSIT_REMOVE_ESCROW_KEY (R270): Key Deposit operation 0x04, which destroys the held escrow key. -/
  | keyDepositRemoveEscrowKey (h : Hdr) (data : Bytes)
  /-- KEY_DEPOSIT_ERASE_TAKE (R272): Key Deposit operation 0x05, which cryptographically erases a closed take by a master key rotation and takes its zones offline. -/
  | keyDepositEraseTake (h : Hdr) (data : Bytes)
  /-- KEY_DEPOSIT_RECOVER_AND_ADOPT (R275): Key Deposit operation 0x06, which recovers a cartridge's keys from its escrow block and rewraps them under this magazine's master key. -/
  | keyDepositRecoverAndAdopt (h : Hdr) (data : Bytes)
  /-- OWNER_CHALLENGE (R266): Owner Challenge with bit 0 clear, which ends any session and opens a new challenge with a fresh device nonce. -/
  | ownerChallenge (h : Hdr)
  /-- OWNER_CHALLENGE_QUERY (R266): Owner Challenge with bit 0 set, which returns the last successful challenge number and device proof without opening a challenge. -/
  | ownerChallengeQuery (h : Hdr)
  /-- OWNER_RESPONSE (R267): Admin command that checks the owner's CMAC response, opening a session or counting an authentication failure. -/
  | ownerResponse (h : Hdr) (data : Bytes)
  /-- KERNEL_LOAD (R364): Admin command that transfers and verifies a signed kernel image and creates a kernel instance. -/
  | kernelLoad (h : Hdr) (d10 : Nat) (image : Bytes)
  /-- KERNEL_LOAD_ROM (R379): Kernel Load with CDW12 bit 0 set, which instantiates a ROM kernel without a transfer or signature check. -/
  | kernelLoadRom (h : Hdr) (number : Nat)
  /-- KERNEL_UNLOAD (R367): Admin command that stops and aborts the instance's invocations, resets its core, zeroes its memory and clears its key slots. -/
  | kernelUnload (h : Hdr) (inst : Nat)
  /-- TRACE_READ (R357): Admin command that returns packets of the frozen control-engine trace buffer. -/
  | traceRead (h : Hdr) (d10 : Nat) (first : Nat) (src : Nat)
  /-- TRANSPORT_TENSION_ON (R205): Transport Command subcode 0x01 argument 1, which runs tension up and completes at HELD. -/
  | transportTensionOn (h : Hdr)
  /-- TRANSPORT_TENSION_OFF (R215): Transport Command subcode 0x01 argument 0, which stops the tape, brakes and releases tension to BRAKED. -/
  | transportTensionOff (h : Hdr)
  /-- TRANSPORT_PARK (R215): Transport Command subcode 0x02, which drains the spool queue, records a due index generation, moves to the park position and releases tension. -/
  | transportPark (h : Hdr) (arg : Nat)
  /-- TRANSPORT_LOCATE (R211): Transport Command subcode 0x03 argument 0, which moves the tape to a target position or TPN on a target wrap. -/
  | transportLocate (h : Hdr) (d11 : Nat) (d12 : Nat)
  /-- TRANSPORT_SHUTTLE (R212): Transport Command subcode 0x03 argument 1, which starts shuttle following SHUTTLE_AIN in dock context. -/
  | transportShuttle (h : Hdr)
  /-- TRANSPORT_CALIBRATE (R217): Transport Command subcode 0x04, which reads recorded data in every zone under each target and updates the zone tables. -/
  | transportCalibrate (h : Hdr) (arg : Nat)
  /-- TRANSPORT_EJECT_PREPARE (R216): Transport Command subcode 0x05, which parks and also seals the map journal and verifies the NOR writes. -/
  | transportEjectPrepare (h : Hdr) (arg : Nat)
  /-- TRANSPORT_SERVICE_UNLOAD (R218): Transport Command subcode 0x06 argument 0, which parks, releases tension and disables the transport links for cartridge removal. -/
  | transportServiceUnload (h : Hdr)
  /-- TRANSPORT_SERVICE_LOAD (R218): Transport Command subcode 0x06 argument 1, which tensions with a radius probe, finds position and reads the index partition. -/
  | transportServiceLoad (h : Hdr)
  /-- TRANSPORT_RESUME_WRITING (R219): Transport Command subcode 0x07, which clears a tape writing suspension in service context. -/
  | transportResumeWriting (h : Hdr) (arg : Nat)
  /-- UNSUPPORTED_COMMAND (R352): Any command with an unlisted opcode, which completes with Invalid Command Opcode. -/
  | unsupportedCommand (h : Hdr) (opcode : Nat) (nsid : Nat) (d10 : Nat)
  /-- FLUSH (R346): I/O command that completes once every earlier-completed write of its namespaces has persisted to the Carousel. -/
  | flush (h : Hdr) (nsid : Nat)
  /-- WRITE (R335): I/O Write to the take or sidecar namespace, checked in order and acknowledged under the hold-up credit. -/
  | write (h : Hdr) (nsid : Nat) (slba : Nat) (nlb : Nat) (fua : Bool) (cdw2 : Nat) (cdw3 : Nat) (data : Option Bytes)
  /-- ZONE_APPEND (R335): I/O Zone Append to a zone start of the take namespace, completing with the LBA placed. -/
  | zoneAppend (h : Hdr) (nsid : Nat) (slba : Nat) (nlb : Nat) (fua : Bool) (cdw2 : Nat) (cdw3 : Nat) (data : Option Bytes)
  /-- READ (R513): I/O Read served from the buffer, the Carousel or tape after the ordered read checks. -/
  | read (h : Hdr) (nsid : Nat) (slba : Nat) (nlb : Nat) (limited : Bool)
  /-- WRITE_ZEROES (R341): I/O Write Zeroes to the sidecar namespace, which deallocates its range. -/
  | writeZeroes (h : Hdr) (nsid : Nat) (slba : Nat) (nlb : Nat)
  /-- DATASET_MANAGEMENT (R341): I/O Dataset Management to the sidecar namespace, which deallocates up to 256 ranges. -/
  | datasetManagement (h : Hdr) (nsid : Nat) (deallocate : Bool) (ranges : List (Nat × Nat))
  /-- ZONE_OPEN (R337): Zone Management Send Open, which makes an empty or closed zone explicitly open. -/
  | zoneOpen (h : Hdr) (nsid : Nat) (slba : Nat) (all : Bool)
  /-- ZONE_CLOSE (R337): Zone Management Send Close, which closes a zone, its open record and its stream context binding. -/
  | zoneClose (h : Hdr) (nsid : Nat) (slba : Nat) (all : Bool)
  /-- ZONE_FINISH (R337): Zone Management Send Finish, which makes a zone Full with its write pointer at the zone end. -/
  | zoneFinish (h : Hdr) (nsid : Nat) (slba : Nat) (all : Bool)
  /-- ZONE_RESET (R337): Zone Management Send Reset, accepted only for a zone with nothing written. -/
  | zoneReset (h : Hdr) (nsid : Nat) (slba : Nat)
  /-- ZONE_RESET_ALL (R337): Zone Management Send Reset with Select All, which resets every open or closed zone with nothing written. -/
  | zoneResetAll (h : Hdr) (nsid : Nat)
  /-- ZONE_OFFLINE (R337): Zone Management Send Offline or Set Zone Descriptor Extension, which completes with Invalid Field in Command. -/
  | zoneOffline (h : Hdr) (nsid : Nat) (slba : Nat)
  /-- ZONE_MANAGEMENT_RECEIVE (R337): I/O command that returns Report Zones data for the take namespace. -/
  | zoneManagementReceive (h : Hdr) (nsid : Nat) (slba : Nat) (dwords : Nat) (zra : Nat) (zrasf : Nat) (part : Bool)
  /-- KERNEL_INVOKE (R368): I/O command that checks window bindings and queues an invocation of a kernel instance. -/
  | kernelInvoke (h : Hdr) (nsid : Nat) (d10 : Nat) (block : Bytes)
  /-- SPOOL_COMMIT (R96): I/O command that closes open records and completes once all previously completed take writes are spool-committed. -/
  | spoolCommit (h : Hdr) (nsid : Nat)
  /-- TAKE_MARK (R338): I/O command that closes the current take, finishing or emptying its zones. -/
  | takeMark (h : Hdr) (nsid : Nat)
  /-- CC_EN_SET (R325): Host write of CC.EN to 1, after which CSTS.RDY rises at the end of BOOT. -/
  | ccEnSet (ams : Nat) (css : Nat) (asqs : Nat) (acqs : Nat)
  /-- CC_EN_CLEAR (R326): Host write of CC.EN to 0, which performs a controller reset. -/
  | ccEnClear
  /-- SHUTDOWN_NORMAL (R327): Host write of CC.SHN to 01b, which completes started commands, persists acknowledged writes and reports shutdown complete. -/
  | shutdownNormal
  /-- SHUTDOWN_ABRUPT (R327): Host write of CC.SHN to 10b, which abandons started commands and reports shutdown complete at once. -/
  | shutdownAbrupt
  /-- SQ_TAIL_DOORBELL (R332): Host write of a submission queue tail doorbell, which releases entries or freezes the queue when invalid. -/
  | sqTailDoorbell (qid : Nat) (value : Nat)
  /-- CQ_HEAD_DOORBELL (R332): Host write of a completion queue head doorbell, which frees entries or freezes the attached submission queues when invalid. -/
  | cqHeadDoorbell (qid : Nat) (value : Nat)
  /-- PERST_N_ASSERT (R326): Assertion of PERST_N, which performs a controller reset. -/
  | perstNAssert
  /-- FUNCTION_LEVEL_RESET (R326): A PCI Express Function Level Reset, which performs a controller reset. -/
  | functionLevelReset
  /-- LINK_TRAINED (R323): Completion of PCI Express link training, reporting the rate and width and raising an event when below x4 at 16 GT/s. -/
  | linkTrained (rate : Nat) (width : Nat) (flit : Bool)
  /-- LINK_DOWN (R323): An unrequested PCI Express link-down, which acts as a controller reset. -/
  | linkDown (requested : Bool)
  /-- COMMAND_FETCH (R330): The device fetches the next command under arbitration once the held-command limits allow. -/
  | commandFetch
  /-- WRITE_DATA_TRANSFER (R344): Write data is moved into the write area once it has room. -/
  | writeDataTransfer (sq : Nat) (cid : Nat) (data : Option Bytes)
  /-- WRITE_CREDIT_GRANT (R342): A waiting write whose data is in the buffer is granted hold-up credit, or has persisted, and is acknowledged. -/
  | writeCreditGrant
  /-- CREDIT_WAIT_TIMEOUT (R343): Expiry of HIF_WT_MS for take data waiting for credit, which persists it as flush extents. -/
  | creditWaitTimeout
  /-- RECORD_IDLE_TIMEOUT (R71): Expiry of HIF_REC_IDLE on a zone, which closes its open record. -/
  | recordIdleTimeout (zone : Nat)
  /-- COMPRESSION_BLOCK_CODE (R223): A compression engine codes a complete block of a record, or emits it literal. -/
  | compressionBlockCode (engine : Nat)
  /-- OVERFLOW_BUFFER_FREED (R246): A freed overflow buffer releases a compression engine stalled on an empty pool. -/
  | overflowBufferFreed (engine : Nat)
  /-- XTS_SECTOR_ENCRYPT (R252): A bulk lane encrypts one cipher sector of a record body with XTS-AES-256. -/
  | xtsSectorEncrypt
  /-- DS_ASSEMBLED (R75): A DS payload and its information table are complete and the DS enters the Carousel and the spool queue. -/
  | dsAssembled
  /-- IV_CEILING_REFRESH (R254): The IV counter reaches the ceiling minus 2^16 and a higher ceiling is written to the key record. -/
  | ivCeilingRefresh
  /-- IV_CEILING_WRITE_DONE (R254): Completion of the ceiling write, which releases stalled IV requests or stops IV issue when both copies failed. -/
  | ivCeilingWriteDone (ok0 : Bool) (ok1 : Bool)
  /-- SPEED_REQUEST_UPDATE (R78): Every 200 µs the formatter computes v_req from feed-forward and backlog. -/
  | speedRequestUpdate
  /-- FSYNC_EDGE (R79): A valid FSYNC edge latches the payload bytes assembled in the last period for the feed-forward. -/
  | fsyncEdge (lowNs : Nat) (highNs : Nat) (periodUs : Nat)
  /-- FSYNC_TIMEOUT (R465): FSYNC has had no valid period for 2 s, so the feed-forward falls to 0. -/
  | fsyncTimeout
  /-- DS_POSITION_BOUNDARY (R82): At each DS position boundary the formatter starts the head copy or leaves the position blank, acting on any pending verify result. -/
  | dsPositionBoundary (ready : Bool)
  /-- VERIFY_RESULT (R87): The verify result of a copy becomes available and the copy is judged passed or failed. -/
  | verifyResult
  /-- GROUP_SPOOL_COMMIT (R77): The lockstep pair spool-commits a complete, journalled group and releases its Carousel space and spool entries. -/
  | groupSpoolCommit
  /-- CRAWL_LIMIT_EXPIRY (R84): The crawl timer reaches TFM_CRAWL_LIMIT with the spool queue empty, so the transport stops to TENSIONED. -/
  | crawlLimitExpiry
  /-- TENSIONED_IDLE_TIMEOUT (R24): Expiry of the tensioned-idle time, which parks the magazine. -/
  | tensionedIdleTimeout
  /-- PLAYBACK_IDLE_TIMEOUT (R24): Expiry of the playback-idle time with no tape read, which returns the magazine to TENSIONED. -/
  | playbackIdleTimeout
  /-- WRAP_TURNAROUND (R210): After the last verify result of a wrap the transport stops, turns around and starts the next wrap. -/
  | wrapTurnaround
  /-- TAPE_TAIL_SCAN (R443): Before the first recording after a DRAIN the transport scans the append wrap to set the resume position. -/
  | tapeTailScan (lastSeparator : Option Nat) (headPosition : Nat)
  /-- FIFO_WRITE (R105): A producer writes a word into a stream FIFO, stalling when a back-pressure body is full. -/
  | fifoWrite (n : Nat) (payload : Nat) (last : Bool) (count : Nat)
  /-- FIFO_READ (R104): A consumer reads a FIFO, receiving a not-valid word when nothing is readable. -/
  | fifoRead (n : Nat)
  /-- FIFO_ADVANCE (R108): Retention operation that moves the mark past the next packet. -/
  | fifoAdvance
  /-- FIFO_REWIND_MARK (R108): Retention operation that sets the read pointer back to the mark. -/
  | fifoRewindMark
  /-- FIFO_RELEASE (R108): Retention operation that moves the release pointer past k packets. -/
  | fifoRelease (k : Nat)
  /-- FIFO_REWIND_RELEASE (R108): Retention operation that sets the read pointer and mark back to the release pointer. -/
  | fifoRewindRelease
  /-- FIFO_POINTER_MISMATCH (R111): A mismatch of duplicated pointers resets and halts the FIFO. -/
  | fifoPointerMismatch (n : Nat)
  /-- FIFO_EXTENDED_BODY_ERROR (R112): A buffer access error on an extended FIFO body halts the FIFO. -/
  | fifoExtendedBodyError (n : Nat)
  /-- SFQ_RESTART (R111): Write of 1 to SFQ_RESTART, which takes a FIFO out of the halted state. -/
  | sfqRestart (w : Option Hdr) (n : Nat)
  /-- SFQ_STICKY_CLEAR (R113): W1C write of SFQ_STICKY, which clears sticky bits and, for the overrun bit, zeroes the drop count. -/
  | sfqStickyClear (w : Option Hdr) (n : Nat) (bits : Nat)
  /-- ENGINE_GROUP_WAKE (R116): A read-channel engine group is woken before the first DS it must read. -/
  | engineGroupWake (g : Nat)
  /-- DS_SEPARATOR_DETECTED (R126): A lane detects a DS separator and sets the slot 0 expected position. -/
  | dsSeparatorDetected (lane : Nat) (samples : List Int)
  /-- SYNC_WINDOW_CLOSE (R127): A slot's sync window closes with its best and second-best candidates. -/
  | syncWindowClose (lane : Nat) (slot : Nat) (samples : List Int)
  /-- ROW_FRAMED (R137): A framed row alignment is complete and delivered with its descriptor and erasure pointers. -/
  | rowFramed (lane : Nat) (slot : Nat) (cand : Nat) (samples : List Int) (timeNs : Nat) (gain : Nat) (offset : Int) (asym : Int)
  /-- LOCK_LOST (R131): A lane loses lock, erases the remaining rows of the DS and searches for the next separator. -/
  | lockLost (lane : Nat) (samples : List Int)
  /-- DROPOUT_SPAN (R133): A completed dropout span becomes an erasure pointer or a whole-row erasure. -/
  | dropoutSpan (lane : Nat) (slot : Nat) (kind : Nat) (first : Nat) (last : Nat) (samples : List Int)
  /-- SERVO_FRAME (R143): A servo lane measures a servo frame's mark time, type and tone amplitudes. -/
  | servoFrame (lane : Nat) (mark : Nat) (timeNs : Nat) (a : Nat) (b : Nat)
  /-- TAPE_POSITION_WORD (R145): A servo lane decodes a tape position word and checks its CRC. -/
  | tapePositionWord (lane : Nat) (bits : Nat)
  /-- SPEED_MEASUREMENT (R145): Every 200 µs the measured speed is refreshed as the median over valid servo lanes. -/
  | speedMeasurement (reverse : Bool) (marks : List (Nat × Nat))
  /-- SERVO_FRAME_TIMEOUT (R149): A servo lane has no valid frame for two frame lengths while the tape moves. -/
  | servoFrameTimeout (lane : Nat)
  /-- ROW_DECODE (R151): The decoder descrambles and decodes a row header and its C1 codewords. -/
  | rowDecode (lane : Nat) (slot : Nat)
  /-- CAPTURE_COMPLETE (R152): A capture of a DS position is identified and its SDS are decoded with C2. -/
  | captureComplete
  /-- RECORD_DECOMPRESS_START (R162): A verified record begins decompression once the hold area has room for it. -/
  | recordDecompressStart
  /-- RECORD_CRC_CHECK (R248): At the end of decompression the record's Data CRC is checked and the record is released or discarded. -/
  | recordCrcCheck
  /-- REREAD_PASS_START (R165): The device starts the next re-read pass of the retry ladder under the next read variant. -/
  | rereadPassStart (seq : Nat)
  /-- RETRY_TIME_EXPIRY (R165): TRC_RETRY_TIME has elapsed since the first pass, ending the ladder after the pass in progress. -/
  | retryTimeExpiry (seq : Nat)
  /-- SLOT_SAMPLE_INSTANT (R175): At its sample instant a loop slot applies commits, selects its region, latches feedback and writes its output 200 cycles later. -/
  | slotSampleInstant (slot : Nat)
  /-- LIMITER_UPDATE (R188): Once per super-frame the set-point limiter steps v_lim and a_lim towards the target. -/
  | limiterUpdate
  /-- DWELL_END (R189): The 20 ms still dwell between opposite moves expires and the limiter proceeds to the target. -/
  | dwellEnd
  /-- SUPERVISOR_FEEDBACK_PERIOD (R193): The supervisor evaluates a slot's feedback for loss, freeze or residual faults. -/
  | supervisorFeedbackPeriod (slot : Nat)
  /-- FAULT_LINE_ASSERTED (R193): An asserted link fault line or a status frame with the fault flag declares a loss on its slot at once. -/
  | faultLineAsserted (link : Nat)
  /-- SUBSTITUTION_END (R194): After 50 ms of substitution, or at tape still, the faulted slot enters HOLD. -/
  | substitutionEnd (slot : Nat)
  /-- STOP_COMPLETE (R195): The tape comes to rest and the magazine state is decided from the slots in HOLD. -/
  | stopComplete
  /-- CTL_REARM (R191): Write of 1 to CTL_REARM, which re-arms a slot in HOLD or refuses. -/
  | ctlRearm (w : Option Hdr) (slot : Nat)
  /-- TRAPEZE_AUTO_REARM (R191): Ringmaster re-arms L4 or L5 in HOLD after the tape has been still for 100 ms, releasing tension if refused. -/
  | trapezeAutoRearm
  /-- ENCODER_EDGE (R181): A quadrature or index edge of a reel encoder is counted or judged invalid. -/
  | encoderEdge (reel : Nat) (a : Bool) (b : Bool) (index : Bool) (cycles : Nat)
  /-- SHUTTLE_CODE_SAMPLE (R190): Chervil delivers a new filtered shuttle code, from which the shuttle target is computed. -/
  | shuttleCodeSample (raw : Nat)
  /-- LINK_SAMPLE_FRAME (R500): The chip sends a sample frame 4 µs before the sample instant of the slot that reads the link. -/
  | linkSampleFrame (link : Nat)
  /-- LINK_STATUS_FRAME (R500): A status frame arrives on a transport link and is checked for CRC and sequence. -/
  | linkStatusFrame (link : Nat) (frame : Nat) (late : Bool)
  /-- TRACE_SAMPLE (R196): All trace channels record a sample of their selected nodes and triggers are tested. -/
  | traceSample
  /-- TRACE_FREEZE (R197): After the post-trigger sample count the trace buffer freezes. -/
  | traceFreeze
  /-- CTL_TRC_ARM (R197): Write of 1 to CTL_TRC_ARM, which clears the trace buffer and starts recording. -/
  | ctlTrcArm (w : Option Hdr)
  /-- CTL_TRC_SOFTWARE_TRIGGER (R197): Write of 2 to CTL_TRC_ARM, which acts as a software trace trigger. -/
  | ctlTrcSoftwareTrigger (w : Option Hdr)
  /-- PREAMP_TRANSACTION (R497): A preamp control link transaction completes and is confirmed, retried or counted as failed. -/
  | preampTransaction (m : Nat) (rd : Bool) (reg : Nat) (data : Nat) (replies : List Nat)
  /-- PREAMP_FAULT (R498): HMC_FLT asserted for 200 ns makes the module's lanes deliver erased rows and reads its status. -/
  | preampFault (m : Nat) (status : Nat)
  /-- TENSION_UP (R205): A need for tape starts tension up, enabling links, re-arming slots and arming L0 to L2. -/
  | tensionUp (pg10 : Bool) (pg11 : Bool)
  /-- RADIUS_PROBE_DONE (R206): The open-loop radius probe measures the reel radii or fails. -/
  | radiusProbeDone (ok : Bool) (supplyUm : Nat) (takeupUm : Nat)
  /-- TENSION_SETTLED (R205): Tension stays within 5 % for 10 ms, L3 is armed and the transport reaches HELD. -/
  | tensionSettled
  /-- TENSION_TIMEOUT (R205): Tension has not settled by 106 ms, so the device brakes and returns to READY. -/
  | tensionTimeout
  /-- POSITION_VALID (R207): Two consecutive valid tape position words confirm and store the position. -/
  | positionValid (tpn : Nat) (frame : Nat) (boundary : Nat)
  /-- FIND_POSITION_FAILED (R207): No field edges after three sweeps, or no valid position in 2 m, ends find position. -/
  | findPositionFailed (cause : Nat)
  /-- LOCATE_ARRIVAL (R211): The tape stops within 2 mm of the locate target and the state follows R24. -/
  | locateArrival
  /-- LOCATE_TIMEOUT (R211): A locate not arrived after 90 s is ended with a normal stop. -/
  | locateTimeout
  /-- EMERGENCY_STOP (R213): When neither reel can be held by a loop the stages short-circuit brake. -/
  | emergencyStop (cause : Nat)
  /-- EMERGENCY_BRAKE_APPLY (R213): BRK_N is asserted once speed falls below 50 mm/s or 2 s after an emergency stop. -/
  | emergencyBrakeApply
  /-- LID_SW_CHANGE (R418): A debounced change of LID_SW, whose opening makes a fast stop. -/
  | lidSwChange (opened : Bool)
  /-- KDSQT_DOORBELL (R372): A kernel write of kdsqt releases compute DMA descriptors to the engine. -/
  | kdsqtDoorbell (core : Nat) (sqb : Nat) (sqsz : Nat) (cqb : Nat) (cqsz : Nat) (tail : Nat)
  /-- KDCQH_WRITE (R372): A kernel write of kdcqh frees completion ring entries. -/
  | kdcqhWrite (core : Nat) (head : Nat)
  /-- KLOCK_REQUEST (R278): A kernel write of 1 to klock requests CPH_LOCK with its instance ID. -/
  | klockRequest (core : Nat)
  /-- KLOCK_RELEASE (R278): A kernel write of 0 to klock releases CPH_LOCK. -/
  | klockRelease (core : Nat)
  /-- INVOCATION_START (R371): A queued invocation starts on the lowest free or woken core. -/
  | invocationStart
  /-- ECALL_EXIT (R370): ECALL with a7 = 0 ends the invocation after its DMA completes, with result write-back. -/
  | ecallExit (core : Nat) (a7 : Nat) (a0 : Nat) (a1 : Nat) (pc : Nat)
  /-- WFI_WAIT (R361): WFI waits until a DMA completion entry is written or the invocation stops. -/
  | wfiWait (core : Nat) (pc : Nat)
  /-- DMA_DESCRIPTOR_COMPLETE (R374): A compute DMA descriptor finishes and writes its completion entry. -/
  | dmaDescriptorComplete (core : Nat)
  /-- WINDOW_VIOLATION (R376): A kernel access or descriptor outside its rights freezes the instance. -/
  | windowViolation (core : Nat) (kind : Nat) (addr : Nat)
  /-- KERNEL_TRAP (R377): A trap that is not a violation ends the invocation with Kernel Trap. -/
  | kernelTrap (core : Nat) (code : Nat) (pc : Nat)
  /-- INVOCATION_TIME_LIMIT (R377): An invocation reaching CCL_INV_MS ends with Kernel Time Limit Exceeded. -/
  | invocationTimeLimit (core : Nat)
  /-- CORE_IDLE_POWER_DOWN (R371): A core without an invocation for CCL_IDLE_MS is powered down. -/
  | coreIdlePowerDown (core : Nat)
  /-- CACHE_ACCESS (R384): A requester's access to the cluster cache hits, recalls or misses. -/
  | cacheAccess (q : Nat) (wr : Bool) (addr : Nat) (data : Bytes) (err : Nat)
  /-- CACHE_MISS_FILL_COMPLETE (R389): A miss fill is written into the set and frees the bank's miss slot. -/
  | cacheMissFillComplete (bank : Nat)
  /-- CCA_RANGE_CLEAN (R393): Write of 1 to CCA_RNG_OP, which starts a clean of a compute-region range. -/
  | ccaRangeClean (w : Option Hdr)
  /-- CCA_RANGE_CLEAN_INVALIDATE (R393): Write of 2 to CCA_RNG_OP, which starts a clean and invalidate of a range. -/
  | ccaRangeCleanInvalidate (w : Option Hdr)
  /-- RANGE_OPERATION_COMPLETE (R394): A cache range operation has acted on every line and clears its status bit. -/
  | rangeOperationComplete
  /-- CCA_WAY_EN_WRITE (R396): Write of CCA_WAY_EN, which cleans removed ways or wakes added ones. -/
  | ccaWayEnWrite (w : Option Hdr) (value : Nat)
  /-- CCA_ENABLE_WRITE (R396): Write of CCA_ENABLE, which cleans and bypasses the cache or restores its ways. -/
  | ccaEnableWrite (w : Option Hdr) (value : Nat)
  /-- CACHE_CLEAN_COMPLETE (R396): Every bank has finished a clean, powering down the removed ways and resuming. -/
  | cacheCleanComplete
  /-- WAY_WAKE_COMPLETE (R398): Added ways have woken in every bank and join lookup and allocation. -/
  | wayWakeComplete
  /-- HARDWARE_WAY_DISABLE (R400): A way's error count reaches its limit and hardware disables it with a clean. -/
  | hardwareWayDisable (way : Nat)
  /-- SERVICE_POOL_REQUEST (R277): The service pool takes a normal request from the lock owner and starts its message. -/
  | servicePoolRequest (requester : Nat) (w0 : Nat) (w1 : Nat) (w2 : Nat) (w3 : Nat) (data : Bytes)
  /-- SERVICE_POOL_URGENT_REQUEST (R279): An urgent request suspends any running message and is served in FIFO order. -/
  | servicePoolUrgentRequest (requester : Nat) (w0 : Nat) (w1 : Nat) (w2 : Nat) (w3 : Nat) (data : Bytes)
  /-- SERVICE_POOL_MESSAGE_DONE (R277): A service pool message finishes and its result is written to FIFO 75. -/
  | servicePoolMessageDone
  /-- CPH_LOCK_TIMEOUT (R280): A lock held past CPH_LOCK_TMO is broken and its owner frozen. -/
  | cphLockTimeout
  /-- KEY_SLOT_LOAD (R257): A media key is unwrapped into a free or least recently used XTS slot. -/
  | keySlotLoad (keyId : Nat)
  /-- CHALLENGE_EXPIRY (R267): An open owner challenge expires 10 s after issue. -/
  | challengeExpiry
  /-- LOCKOUT_EXPIRY (R268): An authentication lockout ends and its length in the key record is cleared. -/
  | lockoutExpiry
  /-- SESSION_IDLE_TIMEOUT (R269): CPH_AUTH_IDLE seconds without an admin command end the owner session. -/
  | sessionIdleTimeout
  /-- TRNG_HEALTH_FAILURE (R281): A TRNG health test fails, starting a spell in which no key or nonce is generated. -/
  | trngHealthFailure (repetition : Bool) (proportion : Bool)
  /-- TRNG_RETEST (R281): The once-per-second TRNG retest ends the spell when both tests pass. -/
  | trngRetest (pass : Bool)
  /-- PAGE_PROGRAM_STATUS (R301): A page program status arrives, persisting the unit or retiring the block and reprogramming it. -/
  | pageProgramStatus (unit : Nat) (pass : Bool)
  /-- DIE_OPERATION_TIMEOUT (R306): A die operation not complete within 100 ms retires the die. -/
  | dieOperationTimeout (die : Nat)
  /-- PAGE_READ (R310): A page read completes, with retries at shifted thresholds for uncorrectable sectors. -/
  | pageRead (die : Nat) (block : Nat) (page : Nat) (errors : List Nat)
  /-- JOURNAL_RECORD_PERSISTED (R298): Program status passes in both journal mirrors and the records count as persisted. -/
  | journalRecordPersisted
  /-- CHECKPOINT_WRITE (R299): After CSL_CKPT_MIB of map journal a mirrored checkpoint is written and the root record updated. -/
  | checkpointWrite
  /-- PROGRAM_SEQUENCE_CEILING (R428): The program sequence reaches its ceiling and a new ceiling is written first. -/
  | programSequenceCeiling (ok0 : Bool) (ok1 : Bool)
  /-- GC_RUN (R304): Garbage collection copies a victim block's mapped units and releases it. -/
  | gcRun
  /-- FOLD (R294): A quiet, mostly mapped fine extent is folded back into one large unit. -/
  | fold (extent : Nat)
  /-- SCRUB (R311): A die block reaching its scrub age or error level is queued for relocation. -/
  | scrub
  /-- AGE_CLOCK_STEP (R307): Every 16 s Chervil advances the age clock by the acceleration factor. -/
  | ageClockStep
  /-- HMB_MAP_LOAD_DONE (R319): Loading the fine map into the host memory buffer finishes and waiting commands are served. -/
  | hmbMapLoadDone
  /-- LINE_PRESENT (R405): LINE_SNS has stayed above 35.0 V for 10 ms and power-up starts. -/
  | linePresent (mv : Nat)
  /-- LINE_LOSS (R405): LINE_SNS below 34.0 V for 20 µs enters DRAIN. -/
  | lineLoss
  /-- LINE_OVERVOLTAGE (R405): The line above 60 V for 1 ms raises an overvoltage event. -/
  | lineOvervoltage
  /-- POWER_UP_STEP (R407): A rising PGOOD, after 100 µs, lets the next rail be enabled. -/
  | powerUpStep (pgood : Bool)
  /-- PGOOD_TIMEOUT (R407): A PGOOD not risen within PWR_PG_TMO ends power-up and switches rails off. -/
  | pgoodTimeout (rail : Nat)
  /-- POWER_UP_RETRY (R407): Ten seconds after a failed power-up the sequence is retried. -/
  | powerUpRetry
  /-- REFERENCE_SETTLED (R407): After 2 ms the reference has settled, the PLLs lock and the MGT domain leaves reset. -/
  | referenceSettled
  /-- BOOT_SEQUENCE (R429): The lockstep pair runs the boot steps to READY or SAFE. -/
  | bootSequence (env : BootEnv)
  /-- PGOOD_LOST (R409): PGOOD of an enabled rail low for 20 µs is treated as line loss. -/
  | pgoodLost (rail : Nat)
  /-- BANK_TEST_START (R410): A bank test starts at BOOT or 600 s after the last, waiting for the charge. -/
  | bankTestStart (mv : Nat)
  /-- PWR_TEST_NOW (R410): Write of 1 to PWR_TEST_NOW, which requests a bank test. -/
  | pwrTestNow (w : Option Hdr)
  /-- BANK_TEST_CHARGED (R410): The bank reaches PWR_BANK_FULL minus 1 V and the test load is connected. -/
  | bankTestCharged (mv : Nat)
  /-- BANK_TEST_CHARGE_TIMEOUT (R410): The bank has not charged within PWR_CHG_TMO and the test fails. -/
  | bankTestChargeTimeout
  /-- BANK_TEST_V1_SAMPLE (R410): 10 µs after the load connects V1 is recorded for the ESR. -/
  | bankTestV1Sample (mv : Nat)
  /-- BANK_TEST_END (R411): At 100 ms or a 2 V drop the load is released and C and ESR judged. -/
  | bankTestEnd (mv : Nat) (us : Nat)
  /-- CREDIT_RECOMPUTE (R412): Every 10 ms the hold-up credit is recomputed from bank voltage and test results. -/
  | creditRecompute (mv : Nat)
  /-- DRAIN_COMPLETE (R414): With the seal persisted and the transport braked the rails go off and the magazine goes to ISLAND or BOOT. -/
  | drainComplete
  /-- BANK_BELOW_MINIMUM (R416): BANK_SNS below PWR_BANK_MIN before the seal switches every rail off. -/
  | bankBelowMinimum
  /-- BANK_BELOW_ISLAND_MINIMUM (R422): In ISLAND, BANK_SNS below 6.0 V stops Chervil and the magazine is OFF. -/
  | bankBelowIslandMinimum
  /-- CRYSTAL_STABLE (R417): After 1,024 stable crystal cycles Chervil runs from the crystal. -/
  | crystalStable
  /-- TEMPERATURE_SAMPLE (R418): Every 16 s Chervil reads temperature, humidity and shock. -/
  | temperatureSample (centi : Option Int) (humidity : Nat) (shocks : List Nat)
  /-- SHOCK_INTERRUPT (R418): SHOCK_INT reads peak acceleration and logs shocks above CHV_SHOCK_LOG. -/
  | shockInterrupt (x : Int) (y : Int) (z : Int)
  /-- COMPOSITE_TEMPERATURE_SAMPLE (R508): Every 10 ms the on-die temperature is read and thermal actions applied. -/
  | compositeTemperatureSample (deci : Int)
  /-- THERMAL_TRIP (R508): 112 °C or above for 10 ms is treated as line loss. -/
  | thermalTrip
  /-- BOOT_IMPORT_CHECK (R439): Write of 1 to BOOT_IMP_CTL, which checks the imported profile. -/
  | bootImportCheck (w : Option Hdr)
  /-- BOOT_IMPORT_SEAL (R438): Write of 2 to BOOT_IMP_CTL, which checks, seals and writes both copies. -/
  | bootImportSeal (w : Option Hdr)
  /-- BOOT_IMPORT_RESTART (R438): Write of 3 to BOOT_IMP_CTL, which resets, parks and reboots with rails on. -/
  | bootImportRestart (w : Option Hdr)
  /-- BOOT_IMPORT_ACCEPT_LOSS (R438): Write of 4 to BOOT_IMP_CTL, which clears the Carousel maps and restarts. -/
  | bootImportAcceptLoss (w : Option Hdr)
  /-- NOR_PROGRAM_COMPLETE (R506): A NOR program or erase completes, or times out as a failed copy write. -/
  | norProgramComplete (area : Nat) (copy : Nat) (ok : Bool)
  /-- LOCKSTEP_MISMATCH (R462): A mismatch of Ringmaster cores 0 and 1 forces the credit to 0 and restarts or holds SAFE. -/
  | lockstepMismatch
  /-- BUFFER_UNCORRECTABLE_ERROR (R460): An uncorrectable buffer error prevents programming any unit that used the failing data. -/
  | bufferUncorrectableError (channel : Nat)
  /-- EVENT_RECORD (R467): An event source writes a packet routed to the journal, host notice or MSI-X. -/
  | eventRecord (evt : Nat) (cause : Nat) (data : Bytes)
  /-- EVENT_RATE_SECOND_END (R469): At each second's end a summary record of suppressed events is journalled. -/
  | eventRateSecondEnd
  /-- EVENT_JOURNAL_PERSIST (R470): Journalled event records are persisted to the map journal within 1 s. -/
  | eventJournalPersist
  /-- PERCENTAGE_USED_COMPUTE (R452): Every 60 s the life percentage is computed from wear, passes and head time. -/
  | percentageUsedCompute
  /-- HEALTH_RECORD_WRITE (R451): After 600 s of head time the health record is written. -/
  | healthRecordWrite
  /-- AON_PORST_N_RISE (R417): VDD_AON rises and the island reset is released, so Chervil starts on its internal oscillator with retention RAM lost and the real-time clock invalid, and PWR_EN may leave its low state. -/
  | aonPorstNRise
  /-- HMC_FLT_RELEASE (R498): A module's HMCm_FLT line falls, so its lanes stop delivering erased rows with cause 0x7 and preamp control transactions may be sent again. -/
  | hmcFltRelease (m : Nat)
  /-- LINK_POWER_STATE_CHANGE (R324): The PCI Express link enters or leaves L1 or L2 (ASPM, CLKREQ_N, D3hot or D3cold), powering the HIF domain down or waking it and enabling WAKE_N. -/
  | linkPowerStateChange (state : Nat)
  /-- UNCORRECTABLE_AER_ERROR (R359): An uncorrectable PCI Express error is detected on the link and EVT 0x600 with cause 0x3 is raised. -/
  | uncorrectableAerError
  deriving DecidableEq, Repr

end Sys2Proof
end

