-- ==== Sys2Proof/Decode.lean ====
section
/-! DEFINITION. The table gives none of its rows any bits: commands reach the device as queue entries, register writes and events, not
as words of one encoding. So no word spells a command. -/

namespace Sys2Proof

/-- The command a word spells by the table's bits: the table gives no bits to any row, so none does. -/
def decodeTableWord (_nbits _w : Nat) : Option Instr := none

end Sys2Proof
end

