-- ==== Sys2Proof/Machine/NMap.lean ====
section
/-! DEFINITION. Sparse arrays: a list of key and value pairs with strictly rising keys, no entry equal to the array's
default. Every sparse buffer of the device (LBA content, parameters, key slots, cache lines ...) is one of these, so
that equal contents are equal data. -/

namespace Sys2Proof.Machine

/-- A sparse array indexed by natural numbers. -/
abbrev NMap (α : Type) := List (Nat × α)

/-- The entry at `k`, if one is listed. -/
def NMap.find? {α : Type} : NMap α → Nat → Option α
  | [], _ => none
  | (j, v) :: m, k => if j = k then some v else NMap.find? m k

/-- The value at `k`: the listed one, or the default `d`. -/
def NMap.get {α : Type} (d : α) (m : NMap α) (k : Nat) : α := (NMap.find? m k).getD d

/-- List `v` at `k`, in key order, in place of any earlier entry there. -/
def NMap.put {α : Type} : NMap α → Nat → α → NMap α
  | [], k, v => [(k, v)]
  | (j, w) :: m, k, v =>
    if k < j then (k, v) :: (j, w) :: m
    else if k = j then (k, v) :: m
    else (j, w) :: NMap.put m k v

/-- Take the entry at `k` away. -/
def NMap.del {α : Type} (m : NMap α) (k : Nat) : NMap α := m.filter (fun e => e.1 != k)

/-- Write `v` at `k`: writing the default removes the entry. -/
def NMap.set {α : Type} [DecidableEq α] (d : α) (m : NMap α) (k : Nat) (v : α) : NMap α :=
  if v = d then NMap.del m k else NMap.put m k v

/-- Change the value at `k`. -/
def NMap.upd {α : Type} [DecidableEq α] (d : α) (m : NMap α) (k : Nat) (f : α → α) : NMap α :=
  NMap.set d m k (f (NMap.get d m k))

/-- Keys strictly rising. -/
def NMap.rising {α : Type} : NMap α → Bool
  | [] => true
  | [_] => true
  | (j, _) :: (k, w) :: m => decide (j < k) && NMap.rising ((k, w) :: m)

/-- The canonical form: keys strictly rising and no entry equal to the default. -/
def NMap.wf {α : Type} [DecidableEq α] (d : α) (m : NMap α) : Bool :=
  NMap.rising m && m.all (fun e => decide (e.2 ≠ d))

/-- The keys listed, in order. -/
def NMap.keys {α : Type} (m : NMap α) : List Nat := m.map Prod.fst

/-- The values listed, in key order. -/
def NMap.vals {α : Type} (m : NMap α) : List α := m.map Prod.snd

/-- Write a run of values at consecutive keys. -/
def NMap.putRun {α : Type} [DecidableEq α] (d : α) (m : NMap α) (k : Nat) : List α → NMap α
  | [] => m
  | v :: vs => NMap.putRun d (NMap.set d m k v) (k + 1) vs

end Sys2Proof.Machine
end

