-- ==== Sys2Proof/Machine/Codes.lean ====
section
/-! DEFINITION. Checks and codes on byte strings: CRC-32C (R248), CRC-16 (R142), CRC-8 (R499), and the Reed-Solomon codes of
SRF-1 over GF(2^8) with polynomial 0x11D (R31, R32), encoding and errors-and-erasures decoding. -/

namespace Sys2Proof.Machine

/-- Exclusive or of two byte strings, as long as the shorter. -/
def xorBytes (a b : Bytes) : Bytes := List.zipWith (· ^^^ ·) a b

/-! ### Cyclic checks -/

/-- `n` steps of a reflected CRC register with the given reflected polynomial. -/
def crcReflStep (poly : Nat) : Nat → Nat → Nat
  | 0, c => c
  | n + 1, c => crcReflStep poly n (if c % 2 = 1 then (c / 2) ^^^ poly else c / 2)

/-- CRC-32C: polynomial 0x1EDC_6F41, reflected input and output, initial value and final XOR all ones (R248). -/
def crc32c (bs : Bytes) : Nat :=
  (bs.foldl (fun c b => crcReflStep 0x82F63B78 8 (c ^^^ b.toNat)) 0xFFFFFFFF) ^^^ 0xFFFFFFFF

/-- One bit into a most-significant-first CRC register of width `w`. -/
def crcBit (w poly c : Nat) (d : Bool) : Nat :=
  let top := (c / 2 ^ (w - 1) % 2 == 1) != d
  let c' := c * 2 % 2 ^ w
  if top then c' ^^^ poly else c'

/-- The bits of a number, most significant of `n` first. -/
def msbBits : Nat → Nat → List Bool
  | 0, _ => []
  | n + 1, x => (x / 2 ^ n % 2 == 1) :: msbBits n x

/-- A number from its bits, most significant first. -/
def ofMsbBits (l : List Bool) : Nat := l.foldl (fun a b => 2 * a + b.toNat) 0

/-- CRC-16 of the tape position word: x^16 + x^12 + x^5 + 1, initial value 0xFFFF (R142). -/
def crc16Bits (l : List Bool) : Nat := l.foldl (crcBit 16 0x1021) 0xFFFF

/-- CRC-8 of the transport and preamp links: x^8 + x^2 + x + 1, initial value 0 (R499). -/
def crc8Bits (l : List Bool) : Nat := l.foldl (crcBit 8 0x07) 0

/-- CRC-8 of a byte string. -/
def crc8 (bs : Bytes) : Nat := crc8Bits (bs.flatMap (fun b => msbBits 8 b.toNat))

/-! ### GF(2^8), polynomial 0x11D (R31) -/

/-- Multiplication by the element 0x02. -/
def gfX2 (a : Nat) : Nat := if a * 2 < 256 then a * 2 else (a * 2) ^^^ 0x11D

/-- Product, adding the multiples selected by the low `n` bits of `b`. -/
def gfMulGo : Nat → Nat → Nat → Nat
  | 0, _, _ => 0
  | n + 1, a, b => (if b % 2 = 1 then a else 0) ^^^ gfMulGo n (gfX2 a) (b / 2)

/-- Product in the field. -/
def gfMul (a b : Nat) : Nat := gfMulGo 8 a b

/-- Power by repeated multiplication. -/
def gfPow (a : Nat) : Nat → Nat
  | 0 => 1
  | n + 1 => gfMul a (gfPow a n)

/-- The element alpha to the power `i`. -/
def gfAlpha (i : Nat) : Nat := gfPow 2 (i % 255)

/-- Inverse: the 254th power. -/
def gfInv (a : Nat) : Nat :=
  let a2 := gfMul a a
  let a4 := gfMul a2 a2
  let a8 := gfMul a4 a4
  let a16 := gfMul a8 a8
  let a32 := gfMul a16 a16
  let a64 := gfMul a32 a32
  let a128 := gfMul a64 a64
  gfMul a128 (gfMul a64 (gfMul a32 (gfMul a16 (gfMul a8 (gfMul a4 a2)))))

/-! Polynomials over the field are lists of coefficients, constant term first. -/

/-- Sum of two polynomials. -/
def gpAdd : List Nat → List Nat → List Nat
  | [], q => q
  | p, [] => p
  | a :: p, b :: q => (a ^^^ b) :: gpAdd p q

/-- A scalar multiple. -/
def gpScale (c : Nat) (p : List Nat) : List Nat := p.map (gfMul c)

/-- Product of two polynomials. -/
def gpMul : List Nat → List Nat → List Nat
  | [], _ => []
  | a :: p, q => gpAdd (gpScale a q) (0 :: gpMul p q)

/-- Value of a polynomial at `x`. -/
def gpEval (p : List Nat) (x : Nat) : Nat := p.foldr (fun c acc => c ^^^ gfMul x acc) 0

/-- Formal derivative. -/
def gpDeriv : List Nat → List Nat
  | [] => []
  | _ :: p => p.mapIdx (fun i c => if i % 2 = 0 then c else 0)

/-- Generator polynomial with roots alpha^0 to alpha^(r-1) (R31), constant term first. -/
def rsGen : Nat → List Nat
  | 0 => [1]
  | r + 1 => gpMul (rsGen r) [gfAlpha r, 1]

/-- Systematic parity (R32): the remainder of the information polynomial times x^r by the generator, highest degree first.
The register holds the remainder highest degree first; `g` is the generator without its leading 1, highest degree first. -/
def rsParityGo (g : List Nat) : List Nat → List Nat → List Nat
  | reg, [] => reg
  | reg, d :: ds =>
    let f := d ^^^ reg.headD 0
    rsParityGo g (List.zipWith (fun a b => a ^^^ gfMul f b) (reg.tail ++ [0]) g) ds

/-- The `r` parity symbols of the information symbols `info`, in recorded order (R32). -/
def rsParity (r : Nat) (info : List Nat) : List Nat :=
  rsParityGo ((rsGen r).dropLast.reverse) (List.replicate r 0) info

/-- The whole codeword. -/
def rsEncode (r : Nat) (info : List Nat) : List Nat := info ++ rsParity r info

/-- Syndrome `i`: the received polynomial at alpha^i, symbol 0 the highest coefficient (R32). -/
def rsSyndrome (cw : List Nat) (i : Nat) : Nat :=
  cw.foldl (fun acc c => gfMul acc (gfAlpha i) ^^^ c) 0

/-- All syndromes of a codeword with `r` parity symbols. -/
def rsSyndromes (r : Nat) (cw : List Nat) : List Nat := (List.range r).map (rsSyndrome cw)

/-- Berlekamp and Massey's recursion started from the erasure locator: `k` counts the syndromes used, `sig` is the combined
locator, `b` the correction polynomial, `l` the register length. -/
def rsBM (syn : List Nat) (f : Nat) : Nat → Nat → List Nat → List Nat → Nat → List Nat
  | 0, _, sig, _, _ => sig
  | n + 1, k, sig, b, l =>
    let delta := (sig.mapIdx (fun i c => if i ≤ k then gfMul c (syn.getD (k - i) 0) else 0)).foldl (· ^^^ ·) 0
    let xb := 0 :: b
    if delta = 0 then rsBM syn f n (k + 1) sig xb l
    else
      let sig' := gpAdd sig (gpScale delta xb)
      if 2 * l ≤ k + f then rsBM syn f n (k + 1) sig' (gpScale (gfInv delta) sig) (k + f + 1 - l)
      else rsBM syn f n (k + 1) sig' xb l

/-- Result of decoding a codeword: the corrected symbols and the number of errors found outside the erasures. -/
structure RsResult where
  symbols : List Nat
  errors : Nat
  deriving DecidableEq, Repr

/-- Errors-and-erasures decoding of a codeword of length n with `r` parity symbols; `er` lists erased symbol indices. It answers
none where no codeword lies within 2e + f at most r. -/
def rsDecode (r : Nat) (cw : List Nat) (er : List Nat) : Option RsResult :=
  let n := cw.length
  let er := er.dedup.filter (· < n)
  let f := er.length
  if r < f then none
  else
    let syn := rsSyndromes r cw
    if syn.all (· == 0) then some { symbols := cw, errors := 0 }
    else
      let loc := fun i => gfAlpha (n - 1 - i)
      let gam := er.foldl (fun p i => gpMul p [1, loc i]) [1]
      let sig := rsBM syn f (r - f) f gam gam f
      let omega := (gpMul syn sig).take r
      let dsig := gpDeriv sig
      let fix := fun i c =>
        let x := loc i
        let xi := gfInv x
        if gpEval sig xi = 0 then c ^^^ gfMul x (gfMul (gpEval omega xi) (gfInv (gpEval dsig xi))) else c
      let out := cw.mapIdx fix
      let e := ((List.range n).filter (fun i => cw.getD i 0 != out.getD i 0 && !er.contains i)).length
      if (rsSyndromes r out).all (· == 0) && 2 * e + f ≤ r then some { symbols := out, errors := e } else none

end Sys2Proof.Machine
end

