-- ==== Sys2Proof/Machine/ParamTable.lean ====
section
/-! DEFINITION. The parameter table (R473 to R487): every parameter of the block chapters with its width, element count, access class,
level, range and reset value, one row per parameter in PID order. Where a table gives no range the range is the whole field; where
an array's index bound is not stated the eight loop slots are meant (log entry 20). -/

namespace Sys2Proof.Machine

/-- Access classes of R478. -/
inductive PAccess where
  | ro | rwl | rws | rwf | wo | w1c
  deriving DecidableEq, Repr

/-- Code of an access class in the descriptor, view 3 (R483). -/
def PAccess.code : PAccess → Nat
  | .ro => 0 | .rwl => 1 | .rws => 2 | .rwf => 3 | .wo => 4 | .w1c => 5

/-- One row of a parameter table. -/
structure PDesc where
  /-- PID. -/
  pid : Nat
  /-- Field width in bits. -/
  bits : Nat
  /-- Element count. -/
  count : Nat
  /-- Access class. -/
  access : PAccess
  /-- Level: 0 Basic, 1 Expert. -/
  level : Nat
  /-- Basic feature that writes it, or 0. -/
  fid : Nat
  /-- Sign-extended when true (R476). -/
  signed : Bool
  /-- Further conditions apply (R477). -/
  cond : Bool
  /-- Reset column reads "From profile". -/
  fromProfile : Bool
  /-- Member of a larger commit group (R480). -/
  grouped : Bool
  /-- Least value of the stated range. -/
  lo : Int
  /-- Greatest value of the stated range. -/
  hi : Int
  /-- Reset values by index, the last one repeating; 0 where the reset is stored or from the profile. -/
  reset : List Int
  deriving DecidableEq, Repr

/-- A row of the table, fields in order. -/
def pd (pid bits count : Nat) (access : PAccess) (level fid : Nat) (signed cond fromProfile grouped : Bool) (lo hi : Int)
    (reset : List Int) : PDesc :=
  { pid, bits, count, access, level, fid, signed, cond, fromProfile, grouped, lo, hi, reset }

/-- TFM_VERIFY_ROWS: C1-uncorrectable rows allowed per SDS, 0 to 8. -/
abbrev pTFM_VERIFY_ROWS : Nat := 0x1010
/-- TFM_REWRITE_MAX: failed copies before carry-over, 2 to 15. -/
abbrev pTFM_REWRITE_MAX : Nat := 0x1011
/-- TFM_SKIP_AFTER: failed copies before a skip, 1 to TFM_REWRITE_MAX − 1. -/
abbrev pTFM_SKIP_AFTER : Nat := 0x1012
/-- TFM_SKIP_LEN: positions left blank, 1 to 64. -/
abbrev pTFM_SKIP_LEN : Nat := 0x1013
/-- TFM_RETIRE_RUN: consecutive all-slot failures, 2 to 8. -/
abbrev pTFM_RETIRE_RUN : Nat := 0x1018
/-- TFM_RETIRED: retired channel map, bit c for channel c. -/
abbrev pTFM_RETIRED : Nat := 0x1019
/-- TFM_WR_GAP: verify gap in µm, 1,000 to 8,000. -/
abbrev pTFM_WR_GAP : Nat := 0x1020
/-- TFM_BKLG_TARGET: MiB, 96 to 8,192. -/
abbrev pTFM_BKLG_TARGET : Nat := 0x1030
/-- TFM_BKLG_GAIN: 0.01 mm/s per MiB, 0 to 10,000. -/
abbrev pTFM_BKLG_GAIN : Nat := 0x1031
/-- TFM_CRAWL_ENTRY: MiB, 0 to 4,096. -/
abbrev pTFM_CRAWL_ENTRY : Nat := 0x1032
/-- TFM_CRAWL_EXIT: MiB, 1 to 8,192. -/
abbrev pTFM_CRAWL_EXIT : Nat := 0x1033
/-- TFM_CRAWL_LIMIT: ms, 0 to 60,000. -/
abbrev pTFM_CRAWL_LIMIT : Nat := 0x1034
/-- TFM_VMAX_REC: mm/s, 500 to 6,000. -/
abbrev pTFM_VMAX_REC : Nat := 0x1035
/-- TFM_FF_SOURCE: 0 FSYNC when valid, 1 backlog only. -/
abbrev pTFM_FF_SOURCE : Nat := 0x1036
/-- TFM_FF_FRAMES: periods averaged, 1 to 15. -/
abbrev pTFM_FF_FRAMES : Nat := 0x1037
/-- TFM_ZONE_HYST: mm/s, 0 to 100. -/
abbrev pTFM_ZONE_HYST : Nat := 0x1038
/-- TFM_INDEX_GROUPS: groups per due generation, 16 to 4,096. -/
abbrev pTFM_INDEX_GROUPS : Nat := 0x1040
/-- TFM_BACKLOG: current backlog in MiB. -/
abbrev pTFM_BACKLOG : Nat := 0x1080
/-- TFM_VREQ: current v_req in mm/s. -/
abbrev pTFM_VREQ : Nat := 0x1081
/-- TFM_PASSES: wrap-passes in 1/1,000. -/
abbrev pTFM_PASSES : Nat := 0x1090
/-- TFM_HEAD_S: head time, s. -/
abbrev pTFM_HEAD_S : Nat := 0x1091
/-- TRC_ZEDGE: lower edge of zone z, mm/s, 500 to 5,950. -/
abbrev pTRC_ZEDGE : Nat := 0x2000
/-- TRC_ZTAB: zone table entry, R123. -/
abbrev pTRC_ZTAB : Nat := 0x2001
/-- TRC_TGT_SEL: 0 to 4, R121. -/
abbrev pTRC_TGT_SEL : Nat := 0x2002
/-- TRC_TGT_USER: signed. -/
abbrev pTRC_TGT_USER : Nat := 0x2003
/-- TRC_FIR_INIT: signed, 1/128. -/
abbrev pTRC_FIR_INIT : Nat := 0x2004
/-- TRC_GAIN_BND: codes, 0 to 16. -/
abbrev pTRC_GAIN_BND : Nat := 0x2010
/-- TRC_OFS_BND: codes, 0 to 64. -/
abbrev pTRC_OFS_BND : Nat := 0x2011
/-- TRC_ASY_BND: codes, 0 to 32. -/
abbrev pTRC_ASY_BND : Nat := 0x2012
/-- TRC_FIR_BND: 1/128, 0 to 64. -/
abbrev pTRC_FIR_BND : Nat := 0x2013
/-- TRC_FIR_MU: step exponent, 8 to 16. -/
abbrev pTRC_FIR_MU : Nat := 0x2014
/-- TRC_ADAPT: bit 0 gain, 1 offset, 2 asymmetry, 3 FIR. -/
abbrev pTRC_ADAPT : Nat := 0x2015
/-- TRC_SYNC_MAXD: 0 to 6. -/
abbrev pTRC_SYNC_MAXD : Nat := 0x2020
/-- TRC_RSYNC_MAXD: 0 to 4. -/
abbrev pTRC_RSYNC_MAXD : Nat := 0x2021
/-- TRC_SYNC_LOSS: slots, 1 to 8. -/
abbrev pTRC_SYNC_LOSS : Nat := 0x2022
/-- TRC_SEP_MIN: periods, 16 to 70. -/
abbrev pTRC_SEP_MIN : Nat := 0x2023
/-- TRC_DO_THR: percent, 10 to 90. -/
abbrev pTRC_DO_THR : Nat := 0x2030
/-- TRC_DO_WIN: bits, 4 to 64. -/
abbrev pTRC_DO_WIN : Nat := 0x2031
/-- TRC_DO_EXT: bytes, 0 to 8. -/
abbrev pTRC_DO_EXT : Nat := 0x2032
/-- TRC_DO_ROWMAX: bytes, 16 to 972. -/
abbrev pTRC_DO_ROWMAX : Nat := 0x2033
/-- TRC_TA_THR: percent, 150 to 400. -/
abbrev pTRC_TA_THR : Nat := 0x2034
/-- TRC_CAL_MIN: rows, 64 to 65,535. -/
abbrev pTRC_CAL_MIN : Nat := 0x2040
/-- TRC_CAL_STEP: codes per update, 1 to 8. -/
abbrev pTRC_CAL_STEP : Nat := 0x2041
/-- TRC_CAL_EN: background calibration. -/
abbrev pTRC_CAL_EN : Nat := 0x2042
/-- TRC_SVO_AMIN: percent, 10 to 90. -/
abbrev pTRC_SVO_AMIN : Nat := 0x2050
/-- TRC_SVO_MASK: bit i includes servo reader i. -/
abbrev pTRC_SVO_MASK : Nat := 0x2051
/-- TRC_SVO_OUTL: nm, 50 to 900. -/
abbrev pTRC_SVO_OUTL : Nat := 0x2052
/-- TRC_PA_REG: preamp register value. -/
abbrev pTRC_PA_REG : Nat := 0x2060
/-- TRC_PA_STAT: last status register read. -/
abbrev pTRC_PA_STAT : Nat := 0x2061
/-- TRC_LANE_STAT: 4] zone. -/
abbrev pTRC_LANE_STAT : Nat := 0x2080
/-- TRC_LANE_CUR: adapted values, entry format of R123. -/
abbrev pTRC_LANE_CUR : Nat := 0x2081
/-- TRC_SYNC_MISS: missed syncs since boot, saturating. -/
abbrev pTRC_SYNC_MISS : Nat := 0x2082
/-- TRC_DO_CNT: dropout spans since boot, saturating. -/
abbrev pTRC_DO_CNT : Nat := 0x2083
/-- TRC_SVO_ERR: current lateral error e, signed nm. -/
abbrev pTRC_SVO_ERR : Nat := 0x2090
/-- TRC_POS: position, 80·TPN + frame index, in 0.1 mm units. -/
abbrev pTRC_POS : Nat := 0x2091
/-- TRC_SPEED: measured speed, mm/s. -/
abbrev pTRC_SPEED : Nat := 0x2092
/-- TRC_C1_EMAX: errors accepted per C1 codeword, 4 to 8. -/
abbrev pTRC_C1_EMAX : Nat := 0x2100
/-- TRC_C2_EMAX: errors accepted per C2 column, 0 to 8. -/
abbrev pTRC_C2_EMAX : Nat := 0x2101
/-- TRC_COPY_WIN: positions searched either side, 8 to 256. -/
abbrev pTRC_COPY_WIN : Nat := 0x2102
/-- TRC_RETRY_MAX: re-read passes, 0 to 13. -/
abbrev pTRC_RETRY_MAX : Nat := 0x2103
/-- TRC_RETRY_TIME: ms, 1,000 to 600,000. -/
abbrev pTRC_RETRY_TIME : Nat := 0x2104
/-- TRC_RETRY_SPEED: mm/s, 500 to 6,000. -/
abbrev pTRC_RETRY_SPEED : Nat := 0x2105
/-- TRC_RA_GROUPS: groups, 0 to 64. -/
abbrev pTRC_RA_GROUPS : Nat := 0x2106
/-- TRC_HOLD_MIB: playback hold area, MiB, 512 to 8,192. -/
abbrev pTRC_HOLD_MIB : Nat := 0x2107
/-- TRC_PB_VMAX: playback speed, mm/s, 500 to 6,000. -/
abbrev pTRC_PB_VMAX : Nat := 0x2108
/-- TRC_DS_CLASS: DS ended in class i (i = class code), since boot, saturating. -/
abbrev pTRC_DS_CLASS : Nat := 0x2180
/-- TRC_C1_FAILED: failed C1 codewords since boot, saturating. -/
abbrev pTRC_C1_FAILED : Nat := 0x2181
/-- TRC_C2_FAILED: failed C2 columns since boot, saturating. -/
abbrev pTRC_C2_FAILED : Nat := 0x2182
/-- TRC_C3_RESTORED: bytes restored by C3 since boot, saturating. -/
abbrev pTRC_C3_RESTORED : Nat := 0x2183
/-- TRC_PASSES: re-read passes since boot, saturating. -/
abbrev pTRC_PASSES : Nat := 0x2184
/-- CTL_SEC_CNT: sections, 0 to 8. -/
abbrev pCTL_SEC_CNT : Nat := 0x3000
/-- CTL_COEF: j 0 b0, 1 b1, 2 b2, 3 a1, 4 a2. -/
abbrev pCTL_COEF : Nat := 0x3001
/-- CTL_EXP: 0 to 63. -/
abbrev pCTL_EXP : Nat := 0x3002
/-- CTL_AFF: 0.1 mA per m/s², 0 to 65,535. -/
abbrev pCTL_AFF : Nat := 0x3003
/-- CTL_OUT_MAX: destination units, signed. -/
abbrev pCTL_OUT_MAX : Nat := 0x3004
/-- CTL_OUT_MIN: destination units, signed, below CTL_OUT_MAX[n]. -/
abbrev pCTL_OUT_MIN : Nat := 0x3005
/-- CTL_PHASE: cycles. -/
abbrev pCTL_PHASE : Nat := 0x3006
/-- CTL_AUX_INS: 4] host slot. -/
abbrev pCTL_AUX_INS : Nat := 0x3007
/-- CTL_AUX_NODE: node 0 to 15 of the host. -/
abbrev pCTL_AUX_NODE : Nat := 0x3008
/-- CTL_SLOT_STATE: 4] last cause. -/
abbrev pCTL_SLOT_STATE : Nat := 0x3009
/-- CTL_REARM: 1 requests re-arm (R191). -/
abbrev pCTL_REARM : Nat := 0x300A
/-- CTL_SAT_CNT: saturations, saturating count. -/
abbrev pCTL_SAT_CNT : Nat := 0x300B
/-- CTL_CLIP_CNT: clipped periods, saturating count. -/
abbrev pCTL_CLIP_CNT : Nat := 0x300C
/-- CTL_RAD_MIN: µm, 10,000 to 60,000. -/
abbrev pCTL_RAD_MIN : Nat := 0x3010
/-- CTL_RAD_MAX: µm, 12,000 to 65,000. -/
abbrev pCTL_RAD_MAX : Nat := 0x3011
/-- CTL_RGN_HYST: µm, 0 to 1,000. -/
abbrev pCTL_RGN_HYST : Nat := 0x3012
/-- CTL_RADIUS: estimated radius, µm. -/
abbrev pCTL_RADIUS : Nat := 0x3013
/-- CTL_REGION: current region. -/
abbrev pCTL_REGION : Nat := 0x3014
/-- CTL_TENSION: µN, 300,000 to 1,000,000. -/
abbrev pCTL_TENSION : Nat := 0x3015
/-- CTL_ENC_CPR: power of two, 1,024 to 65,536. -/
abbrev pCTL_ENC_CPR : Nat := 0x3020
/-- CTL_FC_TAB: R185. -/
abbrev pCTL_FC_TAB : Nat := 0x3021
/-- CTL_FRIC_VDB: mm/s, 1 to 500. -/
abbrev pCTL_FRIC_VDB : Nat := 0x3022
/-- CTL_FC_EN: bit 0 cogging, bit 1 friction. -/
abbrev pCTL_FC_EN : Nat := 0x3023
/-- CTL_AMAX: mm/s², 100 to 8,000. -/
abbrev pCTL_AMAX : Nat := 0x3030
/-- CTL_JMAX: mm/s³, 1,000 to 400,000. -/
abbrev pCTL_JMAX : Nat := 0x3031
/-- CTL_VMAX_SHTL: mm/s, 500 to 10,000. -/
abbrev pCTL_VMAX_SHTL : Nat := 0x3032
/-- CTL_SHTL_CTR: code, 0 to 4,095. -/
abbrev pCTL_SHTL_CTR : Nat := 0x3033
/-- CTL_SHTL_DB: codes, 0 to 512. -/
abbrev pCTL_SHTL_DB : Nat := 0x3034
/-- CTL_SHTL_FS: codes, 64 to 2,047. -/
abbrev pCTL_SHTL_FS : Nat := 0x3035
/-- CTL_SHTL_POL: 0 for +1, 1 for −1. -/
abbrev pCTL_SHTL_POL : Nat := 0x3036
/-- CTL_SP_NOW: v_lim, mm/s, signed. -/
abbrev pCTL_SP_NOW : Nat := 0x3037
/-- CTL_ACC_NOW: a_lim, mm/s², signed. -/
abbrev pCTL_ACC_NOW : Nat := 0x3038
/-- CTL_LIM_HITS: R189, saturating count. -/
abbrev pCTL_LIM_HITS : Nat := 0x3039
/-- CTL_REV_CNT: completed dwells, saturating count. -/
abbrev pCTL_REV_CNT : Nat := 0x303A
/-- CTL_EXC_OUT: destination units, 0 to 65,535. -/
abbrev pCTL_EXC_OUT : Nat := 0x3040
/-- CTL_EXC_SP: set-point units, 0 to 65,535. -/
abbrev pCTL_EXC_SP : Nat := 0x3041
/-- CTL_RES_THR: feedback units, 1 to 2^24 − 1. -/
abbrev pCTL_RES_THR : Nat := 0x3042
/-- CTL_RES_N: periods, 3 to 255. -/
abbrev pCTL_RES_N : Nat := 0x3043
/-- CTL_MDL: model constants, index map in the Mehred profile. -/
abbrev pCTL_MDL : Nat := 0x3044
/-- CTL_LINK_ERR: k 0 MDRV0, 1 MDRV1, 2 TNS_, 3 VCM_, 4 and 5 encoders; saturating count. -/
abbrev pCTL_LINK_ERR : Nat := 0x3045
/-- CTL_TRC_SEL: node code, R196. -/
abbrev pCTL_TRC_SEL : Nat := 0x3050
/-- CTL_TRC_DIV: 1 to 256. -/
abbrev pCTL_TRC_DIV : Nat := 0x3051
/-- CTL_TRC_TRIG: trigger mask, R197. -/
abbrev pCTL_TRC_TRIG : Nat := 0x3052
/-- CTL_TRC_PRE: pre-trigger samples, 0 to 32,767. -/
abbrev pCTL_TRC_PRE : Nat := 0x3053
/-- CTL_TRC_ARM: 1 arm, 2 software trigger. -/
abbrev pCTL_TRC_ARM : Nat := 0x3054
/-- CTL_TRC_STAT: 16] trigger sample index. -/
abbrev pCTL_TRC_STAT : Nat := 0x3055
/-- CTL_TRC_LEVEL: channel 0 units, signed. -/
abbrev pCTL_TRC_LEVEL : Nat := 0x3056
/-- CTL_SETTLE_MM: mm, 5 to 200. -/
abbrev pCTL_SETTLE_MM : Nat := 0x3060
/-- CTL_IDLE_TENS: tensioned-idle time, ms, 0 to 600,000; 0 never. -/
abbrev pCTL_IDLE_TENS : Nat := 0x3061
/-- CTL_IDLE_PB: playback-idle time, ms, 0 to 600,000; 0 never. -/
abbrev pCTL_IDLE_PB : Nat := 0x3062
/-- CTL_END_MARGIN: mm, 128 to 448. -/
abbrev pCTL_END_MARGIN : Nat := 0x3063
/-- CTL_TSUB: sub-state code, R201. -/
abbrev pCTL_TSUB : Nat := 0x3064
/-- CTL_FIND_V: mm/s, 300 to 1,000. -/
abbrev pCTL_FIND_V : Nat := 0x3065
/-- CTL_POS_HELD: 1 when position is held. -/
abbrev pCTL_POS_HELD : Nat := 0x3066
/-- CTL_HMC_ERR: failed transactions, saturating. -/
abbrev pCTL_HMC_ERR : Nat := 0x3070
/-- CMP_MODE: 0 stored, 1 static, 2 per-block dynamic, 3 per-record dynamic. -/
abbrev pCMP_MODE : Nat := 0x4000
/-- CMP_ACTIVE: descriptor bound to zones, 0 to 63. -/
abbrev pCMP_ACTIVE : Nat := 0x4001
/-- CMP_BLOCK_KIB: block size, power of two, 16 to 256. -/
abbrev pCMP_BLOCK_KIB : Nat := 0x4002
/-- CMP_REFRESH: bytes, 0 to 65,535. -/
abbrev pCMP_REFRESH : Nat := 0x4003
/-- CMP_OVF_BUFS: 16 KiB overflow buffers, 64 to 4,096. -/
abbrev pCMP_OVF_BUFS : Nat := 0x4004
/-- CMP_GEOM: descriptor words, R227. -/
abbrev pCMP_GEOM : Nat := 0x4010
/-- CMP_IN_BYTES: engine e input, saturating. -/
abbrev pCMP_IN_BYTES : Nat := 0x4080
/-- CMP_OUT_BYTES: engine e output, headers included, saturating. -/
abbrev pCMP_OUT_BYTES : Nat := 0x4081
/-- CMP_LIT_BLOCKS: literal fallbacks, saturating. -/
abbrev pCMP_LIT_BLOCKS : Nat := 0x4082
/-- CMP_OVF_PEAK: most overflow buffers in use since boot. -/
abbrev pCMP_OVF_PEAK : Nat := 0x4083
/-- CMP_PRED_USE: blocks coded with predictor p, saturating. -/
abbrev pCMP_PRED_USE : Nat := 0x4084
/-- CMP_DCRC_FAIL: Data CRC mismatches since boot, saturating. -/
abbrev pCMP_DCRC_FAIL : Nat := 0x4090
/-- CMP_STRUCT_ERR: structural errors since boot, saturating. -/
abbrev pCMP_STRUCT_ERR : Nat := 0x4091
/-- CMP_DOUT_BYTES: decompression engine e output, saturating. -/
abbrev pCMP_DOUT_BYTES : Nat := 0x4092
/-- CPH_XTS_LANES: bulk lanes for XTS, 24 to 36. -/
abbrev pCPH_XTS_LANES : Nat := 0x4800
/-- CPH_LOCK_TMO: ms, 1 to 10,000. -/
abbrev pCPH_LOCK_TMO : Nat := 0x4801
/-- CPH_LOCK: 0] owner ID, 0 when free; [16] message suspended. -/
abbrev pCPH_LOCK : Nat := 0x4802
/-- CPH_AUTH_TRIES: 3 to 16. -/
abbrev pCPH_AUTH_TRIES : Nat := 0x4803
/-- CPH_AUTH_IDLE: s, 10 to 86,400. -/
abbrev pCPH_AUTH_IDLE : Nat := 0x4804
/-- CPH_AUTH_STATE: 16] lockout seconds. -/
abbrev pCPH_AUTH_STATE : Nat := 0x4805
/-- CPH_INSTANCE: magazine instance number. -/
abbrev pCPH_INSTANCE : Nat := 0x4806
/-- CPH_MASTER_GEN: master key generation. -/
abbrev pCPH_MASTER_GEN : Nat := 0x4807
/-- CPH_IV_NEXT: next IV counter value. -/
abbrev pCPH_IV_NEXT : Nat := 0x4808
/-- CPH_SLOT_STAT: 0] key identifier, [16] loaded, [17] bound to a stream context or queued record. -/
abbrev pCPH_SLOT_STAT : Nat := 0x4809
/-- CPH_TRNG_STAT: 8] failure spells since boot (R281). -/
abbrev pCPH_TRNG_STAT : Nat := 0x480A
/-- CPH_BREAKS: lock breaks since boot, saturating. -/
abbrev pCPH_BREAKS : Nat := 0x4880
/-- CPH_SUSPENDS: urgent suspensions since boot, saturating. -/
abbrev pCPH_SUSPENDS : Nat := 0x4881
/-- CPH_TAG_FAIL: bulk tag mismatches since boot, saturating. -/
abbrev pCPH_TAG_FAIL : Nat := 0x4882
/-- CSL_CONFIG: 2, 4, 8 or 16. -/
abbrev pCSL_CONFIG : Nat := 0x5000
/-- CSL_PLANES: 2 or 4. -/
abbrev pCSL_PLANES : Nat := 0x5001
/-- CSL_PAGES_BLK: pages per plane block. -/
abbrev pCSL_PAGES_BLK : Nat := 0x5002
/-- CSL_RATED_PE: rated SLC-mode cycles. -/
abbrev pCSL_RATED_PE : Nat := 0x5003
/-- CSL_SC_PCT: sidecar percentage, 1 to 10. -/
abbrev pCSL_SC_PCT : Nat := 0x5004
/-- CSL_SC_OP: sidecar overprovision, percent, 5 to 50. -/
abbrev pCSL_SC_OP : Nat := 0x5005
/-- CSL_SPARE_PCT: percent of die blocks, 1 to 10. -/
abbrev pCSL_SPARE_PCT : Nat := 0x5006
/-- CSL_FOLD_S: s, 10 to 86,400. -/
abbrev pCSL_FOLD_S : Nat := 0x5010
/-- CSL_CKPT_MIB: MiB of map journal, 64 to 1,024. -/
abbrev pCSL_CKPT_MIB : Nat := 0x5011
/-- CSL_STAGE_MIN: GiB, 1 to 512. -/
abbrev pCSL_STAGE_MIN : Nat := 0x5012
/-- CSL_DIE_RETIRE: failed operations, 2 to 64. -/
abbrev pCSL_DIE_RETIRE : Nat := 0x5013
/-- CSL_EA_MEV: activation energy, meV, 500 to 1,500. -/
abbrev pCSL_EA_MEV : Nat := 0x5020
/-- CSL_RT_TAB: signed offset, die feature steps, from the NAND descriptor's offset minimum to its maximum (R322). -/
abbrev pCSL_RT_TAB : Nat := 0x5021
/-- CSL_RT_STEP: steps per retry, 1 to 16. -/
abbrev pCSL_RT_STEP : Nat := 0x5022
/-- CSL_RETRY_N: retries, 0 to 16. -/
abbrev pCSL_RETRY_N : Nat := 0x5023
/-- CSL_SCRUB_AGE: equivalent days, 7 to 3,650. -/
abbrev pCSL_SCRUB_AGE : Nat := 0x5024
/-- CSL_SCRUB_BITS: bits per sector, 40 to 119. -/
abbrev pCSL_SCRUB_BITS : Nat := 0x5025
/-- CSL_ERASED_BITS: 0 to 64. -/
abbrev pCSL_ERASED_BITS : Nat := 0x5026
/-- CSL_BG_PCT: percent, 1 to 50. -/
abbrev pCSL_BG_PCT : Nat := 0x5030
/-- CSL_PE_MEAN: mean erase count, over usable die blocks. -/
abbrev pCSL_PE_MEAN : Nat := 0x5080
/-- CSL_PE_MAX: highest erase count. -/
abbrev pCSL_PE_MAX : Nat := 0x5081
/-- CSL_SPARE_LEFT: spare die blocks remaining. -/
abbrev pCSL_SPARE_LEFT : Nat := 0x5082
/-- CSL_STAGE_FREE: take staging bytes free. -/
abbrev pCSL_STAGE_FREE : Nat := 0x5083
/-- CSL_STAGE_USED: bytes of DS images and flush extents held. -/
abbrev pCSL_STAGE_USED : Nat := 0x5084
/-- CSL_PROG_RATE: measured sustained program rate, MB/s. -/
abbrev pCSL_PROG_RATE : Nat := 0x5085
/-- CSL_AGE_CLOCK: A, equivalent seconds. -/
abbrev pCSL_AGE_CLOCK : Nat := 0x5086
/-- CSL_DIE_STAT: 16] retired blocks. -/
abbrev pCSL_DIE_STAT : Nat := 0x5087
/-- CSL_SC_STATE: 32] cap in 256-LBA extents. -/
abbrev pCSL_SC_STATE : Nat := 0x5088
/-- CSL_ORPHANS: orphan units reclaimed at the last BOOT. -/
abbrev pCSL_ORPHANS : Nat := 0x5089
/-- HIF_LINK_STAT: 4] width; [10] flit mode. -/
abbrev pHIF_LINK_STAT : Nat := 0x6000
/-- HIF_LINK_MAX: highest rate offered, 4 to 6. -/
abbrev pHIF_LINK_MAX : Nat := 0x6001
/-- HIF_CREDIT_LIMIT: MiB, 0 to 8,192. -/
abbrev pHIF_CREDIT_LIMIT : Nat := 0x6010
/-- HIF_CREDIT_EFF: K of R342, MiB. -/
abbrev pHIF_CREDIT_EFF : Nat := 0x6011
/-- HIF_UNPERSISTED: U of R342, bytes. -/
abbrev pHIF_UNPERSISTED : Nat := 0x6012
/-- HIF_WT_MS: ms, 1 to 1,000. -/
abbrev pHIF_WT_MS : Nat := 0x6013
/-- HIF_WBUF_GIB: GiB, 12 to 32. -/
abbrev pHIF_WBUF_GIB : Nat := 0x6014
/-- HIF_HELD: commands held. -/
abbrev pHIF_HELD : Nat := 0x6020
/-- HIF_PRIO_RESERVE: commands, 0 to 1,024. -/
abbrev pHIF_PRIO_RESERVE : Nat := 0x6021
/-- HIF_NZ: zones of the take namespace. -/
abbrev pHIF_NZ : Nat := 0x6030
/-- HIF_GROW_STEP: zones, 1 to 4,096. -/
abbrev pHIF_GROW_STEP : Nat := 0x6031
/-- HIF_TAKE_CUR: current take number, 0 when none. -/
abbrev pHIF_TAKE_CUR : Nat := 0x6032
/-- HIF_LIFE: 8] governing ratio, 0 W, 1 P, 2 H. -/
abbrev pHIF_LIFE : Nat := 0x6033
/-- HIF_REC_MAX: LBAs per record, 64 to 65,536. -/
abbrev pHIF_REC_MAX : Nat := 0x6040
/-- HIF_REC_IDLE: ms, 1 to 1,000. -/
abbrev pHIF_REC_IDLE : Nat := 0x6041
/-- HIF_FROZEN: frozen submission queues. -/
abbrev pHIF_FROZEN : Nat := 0x6050
/-- CCL_CORES: cores 0 to n − 1 usable, n 0 to 16. -/
abbrev pCCL_CORES : Nat := 0x6800
/-- CCL_INST_MAX: resident instances, 1 to 256. -/
abbrev pCCL_INST_MAX : Nat := 0x6801
/-- CCL_MEM_GIB: compute region, GiB, 1 to 16. -/
abbrev pCCL_MEM_GIB : Nat := 0x6802
/-- CCL_INV_MS: invocation time limit, ms, 1 to 3,600,000. -/
abbrev pCCL_INV_MS : Nat := 0x6803
/-- CCL_IDLE_MS: core power-down delay, ms, 1 to 10,000. -/
abbrev pCCL_IDLE_MS : Nat := 0x6804
/-- CCL_DMA_MAX: descriptors in progress per instance, 1 to 256. -/
abbrev pCCL_DMA_MAX : Nat := 0x6805
/-- CCL_INST_STAT: 16] queued invocations. -/
abbrev pCCL_INST_STAT : Nat := 0x6880
/-- CCL_CORE_STAT: 8] instance. -/
abbrev pCCL_CORE_STAT : Nat := 0x6881
/-- CCL_INVOKES: invocations completed since boot, saturating. -/
abbrev pCCL_INVOKES : Nat := 0x6882
/-- CCL_FREEZES: freezes since boot, saturating. -/
abbrev pCCL_FREEZES : Nat := 0x6883
/-- CCL_MEM_FREE: free bytes of the compute region. -/
abbrev pCCL_MEM_FREE : Nat := 0x6884
/-- CCA_ENABLE: 1 enabled, 0 cleaned and bypassed. -/
abbrev pCCA_ENABLE : Nat := 0x6900
/-- CCA_WAY_EN: way w enabled, at least 2 bits set. -/
abbrev pCCA_WAY_EN : Nat := 0x6901
/-- CCA_WMASK: allocation mask. -/
abbrev pCCA_WMASK : Nat := 0x6902
/-- CCA_PF_EN: next-line prefetch. -/
abbrev pCCA_PF_EN : Nat := 0x6903
/-- CCA_RNG_BASE: compute-region offset, multiple of 64. -/
abbrev pCCA_RNG_BASE : Nat := 0x6904
/-- CCA_RNG_LEN: bytes, multiple of 64, 64 up to the region size. -/
abbrev pCCA_RNG_LEN : Nat := 0x6905
/-- CCA_RNG_OP: 1 clean, 2 clean and invalidate. -/
abbrev pCCA_RNG_OP : Nat := 0x6906
/-- CCA_STATUS: 16] effective ways. -/
abbrev pCCA_STATUS : Nat := 0x6910
/-- CCA_WAY_FAIL: ways disabled by hardware (R400). -/
abbrev pCCA_WAY_FAIL : Nat := 0x6911
/-- CCA_WAY_PWR: ways powered. -/
abbrev pCCA_WAY_PWR : Nat := 0x6912
/-- CCA_HITS: hits, recalls included, saturating. -/
abbrev pCCA_HITS : Nat := 0x6980
/-- CCA_MISSES: demand misses, saturating. -/
abbrev pCCA_MISSES : Nat := 0x6981
/-- CCA_RECALLS: recalls in bank b, saturating. -/
abbrev pCCA_RECALLS : Nat := 0x6982
/-- CCA_PF_CNT: prefetches issued in bank b, saturating. -/
abbrev pCCA_PF_CNT : Nat := 0x6983
/-- CCA_CE_CNT: corrected errors of way w since BOOT, saturating. -/
abbrev pCCA_CE_CNT : Nat := 0x6984
/-- CCA_UE_CNT: uncorrectable errors of way w since BOOT, tag parity included. -/
abbrev pCCA_UE_CNT : Nat := 0x6985
/-- SFQ_DEPTH: on-chip body in words. -/
abbrev pSFQ_DEPTH : Nat := 0x7000
/-- SFQ_EXT_SIZE: buffer extension in words, power of two or 0. -/
abbrev pSFQ_EXT_SIZE : Nat := 0x7001
/-- SFQ_CT_THRESH: cut-through threshold in words, 0 to 4,096. -/
abbrev pSFQ_CT_THRESH : Nat := 0x7002
/-- SFQ_RESTART: 1 leaves the halted state. -/
abbrev pSFQ_RESTART : Nat := 0x7003
/-- SFQ_FILL: words stored, retained words included. -/
abbrev pSFQ_FILL : Nat := 0x7010
/-- SFQ_PKTS: packet counter. -/
abbrev pSFQ_PKTS : Nat := 0x7011
/-- SFQ_STATUS: bit 0 empty, bit 1 full, bit 2 halted. -/
abbrev pSFQ_STATUS : Nat := 0x7012
/-- SFQ_STICKY: bit 0 overrun, bit 1 mismatch, bit 2 refused operation, bit 3 buffer error. -/
abbrev pSFQ_STICKY : Nat := 0x7013
/-- SFQ_DROPS: dropped packets, saturating. -/
abbrev pSFQ_DROPS : Nat := 0x7014
/-- SFQ_PEAK: highest SFQ_FILL since boot. -/
abbrev pSFQ_PEAK : Nat := 0x7015
/-- PWR_CREDIT: hold-up credit, MiB. -/
abbrev pPWR_CREDIT : Nat := 0x7800
/-- PWR_BANK_C: µF, last passed test. -/
abbrev pPWR_BANK_C : Nat := 0x7801
/-- PWR_BANK_ESR: µΩ, last passed test. -/
abbrev pPWR_BANK_ESR : Nat := 0x7802
/-- PWR_TEST_STAT: 16] seconds since last test. -/
abbrev pPWR_TEST_STAT : Nat := 0x7803
/-- PWR_TEST_NOW: 1 requests a test. -/
abbrev pPWR_TEST_NOW : Nat := 0x7804
/-- PWR_BANK_FULL: mV, 40,000 to 63,000. -/
abbrev pPWR_BANK_FULL : Nat := 0x7810
/-- PWR_BANK_MIN: mV, 12,000 to 55,000. -/
abbrev pPWR_BANK_MIN : Nat := 0x7811
/-- PWR_RTEST: 0.1 Ω, 50 to 10,000. -/
abbrev pPWR_RTEST : Nat := 0x7812
/-- PWR_C_MIN: µF, 1,000 to 1,000,000. -/
abbrev pPWR_C_MIN : Nat := 0x7813
/-- PWR_ESR_MAX: mΩ, 1 to 2,000. -/
abbrev pPWR_ESR_MAX : Nat := 0x7814
/-- PWR_DRAIN_W: W, 10 to 160. -/
abbrev pPWR_DRAIN_W : Nat := 0x7815
/-- PWR_DRAIN_FIX_MS: ms, 20 to 1,000. -/
abbrev pPWR_DRAIN_FIX_MS : Nat := 0x7816
/-- PWR_DERATE: percent, 50 to 95. -/
abbrev pPWR_DERATE : Nat := 0x7817
/-- PWR_CHG_TMO: s, 10 to 600. -/
abbrev pPWR_CHG_TMO : Nat := 0x7818
/-- PWR_RAIL_STAT: 16] PGOOD. -/
abbrev pPWR_RAIL_STAT : Nat := 0x7820
/-- PWR_PG_TMO: ms, 1 to 50. -/
abbrev pPWR_PG_TMO : Nat := 0x7821
/-- PWR_LINE_MV: line, mV. -/
abbrev pPWR_LINE_MV : Nat := 0x7830
/-- PWR_BANK_MV: bank, mV. -/
abbrev pPWR_BANK_MV : Nat := 0x7831
/-- PWR_TJ: composite temperature, 0.1 °C, signed. -/
abbrev pPWR_TJ : Nat := 0x7832
/-- PWR_TJ_PEAK: highest composite since BOOT, 0.1 °C. -/
abbrev pPWR_TJ_PEAK : Nat := 0x7833
/-- CHV_TEMP_MIN: °C, −40 to 40, signed. -/
abbrev pCHV_TEMP_MIN : Nat := 0x7840
/-- CHV_TEMP_MAX: °C, 20 to 85, above CHV_TEMP_MIN. -/
abbrev pCHV_TEMP_MAX : Nat := 0x7841
/-- CHV_RH_MAX: percent, 10 to 100. -/
abbrev pCHV_RH_MAX : Nat := 0x7842
/-- CHV_SHOCK_LOG: 0.1 g, 10 to 4,000. -/
abbrev pCHV_SHOCK_LOG : Nat := 0x7843
/-- CHV_STATUS: bit 0 clock valid, 1 crystal running, 2 lid open, 3 link present, 4 temperature valid. -/
abbrev pCHV_STATUS : Nat := 0x7880
/-- CHV_TEMP: 0.1 °C, signed. -/
abbrev pCHV_TEMP : Nat := 0x7881
/-- CHV_RH: 0.1 %. -/
abbrev pCHV_RH : Nat := 0x7882
/-- CHV_RTC: 00 UTC. -/
abbrev pCHV_RTC : Nat := 0x7883
/-- CHV_SHOCK_PEAK: highest 0.1 g since BOOT. -/
abbrev pCHV_SHOCK_PEAK : Nat := 0x7888
/-- CHV_RING_LOST: ring entries overwritten uncopied, saturating. -/
abbrev pCHV_RING_LOST : Nat := 0x7889
/-- EVT_CTL: bit 0 journal, 1 host notice, 2 MSI-X. -/
abbrev pEVT_CTL : Nat := 0x8000
/-- EVT_RATE: records per second per source, 1 to 1,000. -/
abbrev pEVT_RATE : Nat := 0x8001
/-- EVT_MSIX_VEC: 0 none, 1 to 2,047. -/
abbrev pEVT_MSIX_VEC : Nat := 0x8002
/-- EVT_JNL_ENTRIES: 65,536 to 1,048,576, power of two. -/
abbrev pEVT_JNL_ENTRIES : Nat := 0x8003
/-- EVT_COUNT: records since BOOT, saturating. -/
abbrev pEVT_COUNT : Nat := 0x8080
/-- EVT_SUPPRESSED: records suppressed since BOOT, saturating. -/
abbrev pEVT_SUPPRESSED : Nat := 0x8081
/-- EVT_JNL_SEQ: newest sequence number; 0 while the journal is empty (R470). -/
abbrev pEVT_JNL_SEQ : Nat := 0x8082
/-- EVT_LOST_LBA: since commissioning. -/
abbrev pEVT_LOST_LBA : Nat := 0x8083
/-- EVT_LAST_FAULT: 32] real-time clock seconds. -/
abbrev pEVT_LAST_FAULT : Nat := 0x8084
/-- BOOT_STEP: last completed step, 1 to 10. -/
abbrev pBOOT_STEP : Nat := 0x8800
/-- BOOT_CAUSE: 0 first power, 1 drain complete, 2 drain incomplete (R416), 3 restart with the rails left on (R438, R462). -/
abbrev pBOOT_CAUSE : Nat := 0x8801
/-- BOOT_SAFE_WHY: cause bits 0 to 3. -/
abbrev pBOOT_SAFE_WHY : Nat := 0x8802
/-- BOOT_PROF_STAT: 32] sequence. -/
abbrev pBOOT_PROF_STAT : Nat := 0x8803
/-- BOOT_PROF_ID: profile identifier. -/
abbrev pBOOT_PROF_ID : Nat := 0x8804
/-- BOOT_PATCH_LVL: applied patch level. -/
abbrev pBOOT_PATCH_LVL : Nat := 0x8805
/-- BOOT_FUSES: anti-rollback fuses blown. -/
abbrev pBOOT_FUSES : Nat := 0x8806
/-- BOOT_IMPORT: BOOT_IMPORT[i], i 0 to 1,048,575. -/
abbrev pBOOT_IMPORT : Nat := 0x8810
/-- BOOT_IMP_LEN: bytes, 512 to 4,194,304. -/
abbrev pBOOT_IMP_LEN : Nat := 0x8811
/-- BOOT_IMP_CTL: 1 check, 2 seal, 3 restart, 4 accept Carousel loss. -/
abbrev pBOOT_IMP_CTL : Nat := 0x8812
/-- BOOT_IMP_STAT: 32] entry offset. -/
abbrev pBOOT_IMP_STAT : Nat := 0x8813
/-- BOOT_TAIL_POS: 8] resume position. -/
abbrev pBOOT_TAIL_POS : Nat := 0x8814
/-- BOOT_TIME_MS: duration of the last BOOT. -/
abbrev pBOOT_TIME_MS : Nat := 0x8815

/-- Reset sizes of the buffer extensions by FIFO number (R101, R113). -/
def sfqExtReset : List Int :=
  List.replicate 64 0 ++ [1048576, 0, 67108864, 0, 1048576] ++ List.replicate 7 0 ++ [1048576, 0, 0, 0] ++
    List.replicate 8 262144 ++ List.replicate 4 0 ++ List.replicate 4 4194304

/-- Reset FIR taps: 128 for tap 5 of every zone, else 0 (R150). -/
def firReset : List Int := (List.range 176).map (fun k => if k % 11 = 5 then 128 else 0)

/-- Rows of the parameter tables, part 0. -/
def paramRows0 : List PDesc := [
  pd pTFM_VERIFY_ROWS 4 1 .rwl 0 0xC4 false false false false (0) 8 [4],
  pd pTFM_REWRITE_MAX 4 1 .rwl 0 0xC4 false true false false (2) 15 [8],
  pd pTFM_SKIP_AFTER 4 1 .rwl 1 0x00 false true false false (1) 14 [3],
  pd pTFM_SKIP_LEN 8 1 .rwl 1 0x00 false false false false (1) 64 [16],
  pd pTFM_RETIRE_RUN 4 1 .rwl 1 0x00 false false false false (2) 8 [3],
  pd pTFM_RETIRED 512 8 .ro 0 0x00 false false false false (0) 18446744073709551615 [0],
  pd pTFM_WR_GAP 16 1 .rwf 1 0x00 false false true false (1000) 8000 [0],
  pd pTFM_BKLG_TARGET 16 1 .rwl 0 0xC0 false false false false (96) 8192 [768],
  pd pTFM_BKLG_GAIN 16 1 .rwl 1 0x00 false false false false (0) 10000 [195],
  pd pTFM_CRAWL_ENTRY 16 1 .rws 0 0xC0 false true false true (0) 4096 [96],
  pd pTFM_CRAWL_EXIT 16 1 .rws 0 0xC0 false true false true (1) 8192 [192],
  pd pTFM_CRAWL_LIMIT 16 1 .rwl 0 0xC0 false false false false (0) 60000 [2000],
  pd pTFM_VMAX_REC 16 1 .rwl 0 0xC0 false false false false (500) 6000 [6000],
  pd pTFM_FF_SOURCE 1 1 .rwl 0 0xC0 false false false false (0) 1 [0],
  pd pTFM_FF_FRAMES 4 1 .rwl 1 0x00 false false false false (1) 15 [8],
  pd pTFM_ZONE_HYST 8 1 .rwl 1 0x00 false false false false (0) 100 [20],
  pd pTFM_INDEX_GROUPS 16 1 .rwl 1 0x00 false false false false (16) 4096 [64],
  pd pTFM_BACKLOG 32 1 .ro 0 0x00 false false false false (0) 4294967295 [0],
  pd pTFM_VREQ 16 1 .ro 0 0x00 false false false false (0) 65535 [0],
  pd pTFM_PASSES 32 1 .ro 0 0x00 false false false false (0) 4294967295 [0],
  pd pTFM_HEAD_S 32 1 .ro 0 0x00 false false false false (0) 4294967295 [0],
  pd pTRC_ZEDGE 16 16 .rws 1 0x00 false true false true (500) 5950 [500, 650, 850, 1100, 1400, 1750, 2150, 2600, 3050, 3500, 3950, 4400, 4850, 5250, 5600, 5850],
  pd pTRC_ZTAB 32 8192 .rws 1 0x00 false true false true (0) 4294967295 [0],
  pd pTRC_TGT_SEL 3 16 .rws 1 0x00 false true false true (0) 4 [2],
  pd pTRC_TGT_USER 6 5 .rws 1 0x00 true true false true (-31) 31 [0],
  pd pTRC_FIR_INIT 10 176 .rws 1 0x00 true true false true (-512) 511 firReset,
  pd pTRC_GAIN_BND 5 1 .rwl 1 0x00 false false false false (0) 16 [6],
  pd pTRC_OFS_BND 7 1 .rwl 1 0x00 false false false false (0) 64 [32],
  pd pTRC_ASY_BND 6 1 .rwl 1 0x00 false false false false (0) 32 [12],
  pd pTRC_FIR_BND 7 1 .rwl 1 0x00 false false false false (0) 64 [16],
  pd pTRC_FIR_MU 5 1 .rwl 1 0x00 false false false false (8) 16 [12],
  pd pTRC_ADAPT 4 1 .rwl 1 0x00 false false false false (0) 15 [15],
  pd pTRC_SYNC_MAXD 3 1 .rwl 1 0x00 false false false false (0) 6 [3],
  pd pTRC_RSYNC_MAXD 3 1 .rwl 1 0x00 false false false false (0) 4 [2],
  pd pTRC_SYNC_LOSS 4 1 .rwl 1 0x00 false false false false (1) 8 [3],
  pd pTRC_SEP_MIN 7 1 .rwl 1 0x00 false false false false (16) 70 [40],
  pd pTRC_DO_THR 7 1 .rwl 1 0x00 false false false false (10) 90 [40],
  pd pTRC_DO_WIN 7 1 .rwl 1 0x00 false false false false (4) 64 [16],
  pd pTRC_DO_EXT 4 1 .rwl 1 0x00 false false false false (0) 8 [1],
  pd pTRC_DO_ROWMAX 10 1 .rwl 1 0x00 false false false false (16) 972 [48],
  pd pTRC_TA_THR 9 1 .rwl 1 0x00 false false false false (150) 400 [250],
  pd pTRC_CAL_MIN 16 1 .rwl 1 0x00 false false false false (64) 65535 [256],
  pd pTRC_CAL_STEP 4 1 .rwl 1 0x00 false false false false (1) 8 [2],
  pd pTRC_CAL_EN 1 1 .rwl 0 0x00 false false false false (0) 1 [1],
  pd pTRC_SVO_AMIN 7 1 .rwl 1 0x00 false false false false (10) 90 [30],
  pd pTRC_SVO_MASK 32 1 .rwl 1 0x00 false false false false (0) 4294967295 [4294967295],
  pd pTRC_SVO_OUTL 10 1 .rwl 1 0x00 false false false false (50) 900 [300],
  pd pTRC_PA_REG 8 496 .rwf 1 0x00 false false true false (0) 255 [0]]

/-- Rows of the parameter tables, part 1. -/
def paramRows1 : List PDesc := [
  pd pTRC_PA_STAT 8 16 .ro 0 0x00 false false false false (0) 255 [0],
  pd pTRC_LANE_STAT 8 512 .ro 0 0x00 false false false false (0) 255 [0],
  pd pTRC_LANE_CUR 32 512 .ro 1 0x00 false false false false (0) 4294967295 [0],
  pd pTRC_SYNC_MISS 32 512 .ro 0 0x00 false false false false (0) 4294967295 [0],
  pd pTRC_DO_CNT 32 512 .ro 0 0x00 false false false false (0) 4294967295 [0],
  pd pTRC_SVO_ERR 16 1 .ro 0 0x00 true false false false (-32768) 32767 [0],
  pd pTRC_POS 24 1 .ro 0 0x00 false false false false (0) 16777215 [0],
  pd pTRC_SPEED 16 1 .ro 0 0x00 false false false false (0) 65535 [0],
  pd pTRC_C1_EMAX 4 1 .rwl 1 0x00 false false false false (4) 8 [6],
  pd pTRC_C2_EMAX 4 1 .rwl 1 0x00 false false false false (0) 8 [4],
  pd pTRC_COPY_WIN 9 1 .rwl 1 0x00 false false false false (8) 256 [64],
  pd pTRC_RETRY_MAX 4 1 .rwl 0 0xC4 false false false false (0) 13 [13],
  pd pTRC_RETRY_TIME 20 1 .rwl 0 0xC4 false false false false (1000) 600000 [60000],
  pd pTRC_RETRY_SPEED 13 1 .rwl 1 0x00 false false false false (500) 6000 [3050],
  pd pTRC_RA_GROUPS 7 1 .rwl 0 0xC0 false false false false (0) 64 [8],
  pd pTRC_HOLD_MIB 14 1 .rwf 1 0x00 false false false false (512) 8192 [2048],
  pd pTRC_PB_VMAX 13 1 .rwl 0 0xC0 false false false false (500) 6000 [6000],
  pd pTRC_DS_CLASS 32 33 .ro 0 0x00 false false false false (0) 4294967295 [0],
  pd pTRC_C1_FAILED 32 1 .ro 0 0x00 false false false false (0) 4294967295 [0],
  pd pTRC_C2_FAILED 32 1 .ro 0 0x00 false false false false (0) 4294967295 [0],
  pd pTRC_C3_RESTORED 32 1 .ro 0 0x00 false false false false (0) 4294967295 [0],
  pd pTRC_PASSES 32 1 .ro 0 0x00 false false false false (0) 4294967295 [0],
  pd pCTL_SEC_CNT 4 128 .rws 1 0x00 false true true true (0) 8 [0],
  pd pCTL_COEF 18 5120 .rws 1 0x00 true false true true (-131072) 131071 [0],
  pd pCTL_EXP 6 1024 .rws 1 0x00 false false true true (0) 63 [0],
  pd pCTL_AFF 16 32 .rws 1 0x00 false false true true (0) 65535 [0],
  pd pCTL_OUT_MAX 32 8 .rwl 1 0x00 true true true false (-2147483648) 2147483647 [0],
  pd pCTL_OUT_MIN 32 8 .rwl 1 0x00 true true true false (-2147483648) 2147483647 [0],
  pd pCTL_PHASE 17 6 .rws 1 0x00 false true false true (0) 131071 [400, 600, 800, 1000, 0, 200],
  pd pCTL_AUX_INS 7 2 .rws 1 0x00 false true false true (0) 127 [0],
  pd pCTL_AUX_NODE 4 2 .rws 1 0x00 false false false true (0) 15 [0],
  pd pCTL_SLOT_STATE 8 8 .ro 0 0x00 false false false false (0) 255 [0],
  pd pCTL_REARM 1 8 .wo 1 0x00 false false false false (0) 1 [0],
  pd pCTL_SAT_CNT 32 8 .ro 1 0x00 false false false false (0) 4294967295 [0],
  pd pCTL_CLIP_CNT 32 8 .ro 1 0x00 false false false false (0) 4294967295 [0],
  pd pCTL_RAD_MIN 16 1 .rws 1 0x00 false true true true (10000) 60000 [0],
  pd pCTL_RAD_MAX 16 1 .rws 1 0x00 false true true true (12000) 65000 [0],
  pd pCTL_RGN_HYST 10 1 .rws 1 0x00 false true false true (0) 1000 [100],
  pd pCTL_RADIUS 16 2 .ro 0 0x00 false false false false (0) 65535 [0],
  pd pCTL_REGION 4 2 .ro 0 0x00 false false false false (0) 15 [0],
  pd pCTL_TENSION 20 1 .rwl 1 0x00 false false false false (300000) 1000000 [600000],
  pd pCTL_ENC_CPR 17 1 .rwf 1 0x00 false true false false (1024) 65536 [16384],
  pd pCTL_FC_TAB 32 2048 .rws 1 0x00 false false false true (0) 4294967295 [0],
  pd pCTL_FRIC_VDB 9 1 .rwl 1 0x00 false false false false (1) 500 [20],
  pd pCTL_FC_EN 2 1 .rwl 1 0x00 false false false false (0) 3 [3],
  pd pCTL_AMAX 13 1 .rwl 0 0xC0 false false false false (100) 8000 [8000],
  pd pCTL_JMAX 19 1 .rwl 1 0x00 false false false false (1000) 400000 [400000],
  pd pCTL_VMAX_SHTL 14 1 .rwl 0 0xC0 false false false false (500) 10000 [10000]]

/-- Rows of the parameter tables, part 2. -/
def paramRows2 : List PDesc := [
  pd pCTL_SHTL_CTR 12 1 .rwl 1 0x00 false false false false (0) 4095 [2048],
  pd pCTL_SHTL_DB 10 1 .rwl 1 0x00 false false false false (0) 512 [64],
  pd pCTL_SHTL_FS 11 1 .rwl 1 0x00 false false false false (64) 2047 [1920],
  pd pCTL_SHTL_POL 1 1 .rwl 1 0x00 false false false false (0) 1 [0],
  pd pCTL_SP_NOW 16 1 .ro 0 0x00 true false false false (-32768) 32767 [0],
  pd pCTL_ACC_NOW 16 1 .ro 1 0x00 true false false false (-32768) 32767 [0],
  pd pCTL_LIM_HITS 32 1 .ro 0 0x00 false false false false (0) 4294967295 [0],
  pd pCTL_REV_CNT 32 1 .ro 0 0x00 false false false false (0) 4294967295 [0],
  pd pCTL_EXC_OUT 16 8 .rwl 1 0x00 false false true false (0) 65535 [0],
  pd pCTL_EXC_SP 16 8 .rwl 1 0x00 false false true false (0) 65535 [0],
  pd pCTL_RES_THR 24 8 .rwl 1 0x00 false false true false (1) 16777215 [0],
  pd pCTL_RES_N 8 8 .rwl 1 0x00 false false false false (3) 255 [16],
  pd pCTL_MDL 32 16 .rws 1 0x00 false true true true (0) 4294967295 [0],
  pd pCTL_LINK_ERR 32 6 .ro 0 0x00 false false false false (0) 4294967295 [0],
  pd pCTL_TRC_SEL 8 8 .rwl 1 0x00 false true false false (0) 135 [2, 1, 11, 34, 33, 43, 129, 128],
  pd pCTL_TRC_DIV 9 1 .rwl 1 0x00 false false false false (1) 256 [8],
  pd pCTL_TRC_TRIG 5 1 .rwl 1 0x00 false false false false (0) 31 [1],
  pd pCTL_TRC_PRE 15 1 .rwl 1 0x00 false false false false (0) 32767 [16384],
  pd pCTL_TRC_ARM 2 1 .wo 1 0x00 false false false false (1) 2 [0],
  pd pCTL_TRC_STAT 32 1 .ro 1 0x00 false false false false (0) 4294967295 [1],
  pd pCTL_TRC_LEVEL 32 1 .rwl 1 0x00 true false false false (-2147483648) 2147483647 [0],
  pd pCTL_SETTLE_MM 8 1 .rwl 1 0x00 false false false false (5) 200 [20],
  pd pCTL_IDLE_TENS 20 1 .rwl 0 0xC0 false false true false (0) 600000 [0],
  pd pCTL_IDLE_PB 20 1 .rwl 0 0xC0 false false true false (0) 600000 [0],
  pd pCTL_END_MARGIN 9 1 .rwf 1 0x00 false false false false (128) 448 [256],
  pd pCTL_TSUB 4 1 .ro 0 0x00 false false false false (0) 15 [0],
  pd pCTL_FIND_V 10 1 .rwl 1 0x00 false false false false (300) 1000 [500],
  pd pCTL_POS_HELD 1 1 .ro 0 0x00 false false false false (0) 1 [0],
  pd pCTL_HMC_ERR 32 16 .ro 0 0x00 false false false false (0) 4294967295 [0],
  pd pCMP_MODE 2 1 .rwl 0 0xC2 false false false false (0) 3 [3],
  pd pCMP_ACTIVE 6 1 .rwl 0 0xC2 false false true false (0) 63 [0],
  pd pCMP_BLOCK_KIB 9 1 .rwl 1 0x00 false true false false (16) 256 [256],
  pd pCMP_REFRESH 16 1 .rwl 1 0x00 false false false false (0) 65535 [256],
  pd pCMP_OVF_BUFS 13 1 .rwf 1 0x00 false false false false (64) 4096 [1024],
  pd pCMP_GEOM 32 512 .rws 1 0x00 false true true true (0) 4294967295 [0],
  pd pCMP_IN_BYTES 64 8 .ro 0 0x00 false false false false (0) 18446744073709551615 [0],
  pd pCMP_OUT_BYTES 64 8 .ro 0 0x00 false false false false (0) 18446744073709551615 [0],
  pd pCMP_LIT_BLOCKS 32 8 .ro 0 0x00 false false false false (0) 4294967295 [0],
  pd pCMP_OVF_PEAK 13 1 .ro 1 0x00 false false false false (0) 8191 [0],
  pd pCMP_PRED_USE 32 6 .ro 1 0x00 false false false false (0) 4294967295 [0],
  pd pCMP_DCRC_FAIL 32 1 .ro 0 0x00 false false false false (0) 4294967295 [0],
  pd pCMP_STRUCT_ERR 32 1 .ro 0 0x00 false false false false (0) 4294967295 [0],
  pd pCMP_DOUT_BYTES 64 8 .ro 0 0x00 false false false false (0) 18446744073709551615 [0],
  pd pCPH_XTS_LANES 6 1 .rwf 1 0x00 false false false false (24) 36 [32],
  pd pCPH_LOCK_TMO 14 1 .rwl 1 0x00 false false false false (1) 10000 [100],
  pd pCPH_LOCK 17 1 .ro 0 0x00 false false false false (0) 131071 [0],
  pd pCPH_AUTH_TRIES 5 1 .rwl 1 0x00 false false false false (3) 16 [5],
  pd pCPH_AUTH_IDLE 17 1 .rwl 1 0x00 false false false false (10) 86400 [900]]

/-- Rows of the parameter tables, part 3. -/
def paramRows3 : List PDesc := [
  pd pCPH_AUTH_STATE 32 1 .ro 0 0x00 false false false false (0) 4294967295 [0],
  pd pCPH_INSTANCE 32 1 .ro 0 0x00 false false false false (0) 4294967295 [0],
  pd pCPH_MASTER_GEN 32 1 .ro 0 0x00 false false false false (0) 4294967295 [0],
  pd pCPH_IV_NEXT 64 1 .ro 0 0x00 false false false false (0) 18446744073709551615 [0],
  pd pCPH_SLOT_STAT 18 288 .ro 1 0x00 false false false false (0) 262143 [0],
  pd pCPH_TRNG_STAT 16 1 .ro 0 0x00 false false false false (0) 65535 [1],
  pd pCPH_BREAKS 32 1 .ro 0 0x00 false false false false (0) 4294967295 [0],
  pd pCPH_SUSPENDS 32 1 .ro 1 0x00 false false false false (0) 4294967295 [0],
  pd pCPH_TAG_FAIL 32 1 .ro 0 0x00 false false false false (0) 4294967295 [0],
  pd pCSL_CONFIG 5 1 .ro 0 0x00 false false true false (2) 16 [0],
  pd pCSL_PLANES 3 1 .ro 0 0x00 false false true false (2) 4 [0],
  pd pCSL_PAGES_BLK 11 1 .ro 0 0x00 false false true false (128) 1024 [0],
  pd pCSL_RATED_PE 32 1 .ro 0 0x00 false false true false (0) 4294967295 [0],
  pd pCSL_SC_PCT 4 1 .ro 0 0x00 false false true false (1) 10 [0],
  pd pCSL_SC_OP 6 1 .ro 1 0x00 false false true false (5) 50 [0],
  pd pCSL_SPARE_PCT 4 1 .ro 1 0x00 false false true false (1) 10 [0],
  pd pCSL_FOLD_S 17 1 .rwl 1 0x00 false false false false (10) 86400 [600],
  pd pCSL_CKPT_MIB 11 1 .rwf 1 0x00 false false false false (64) 1024 [256],
  pd pCSL_STAGE_MIN 10 1 .rwl 1 0x00 false false false false (1) 512 [64],
  pd pCSL_DIE_RETIRE 7 1 .rwl 1 0x00 false false false false (2) 64 [8],
  pd pCSL_EA_MEV 11 1 .rwl 1 0x00 false false false false (500) 1500 [1100],
  pd pCSL_RT_TAB 8 32 .rws 1 0x00 true false true true (-128) 127 [0],
  pd pCSL_RT_STEP 5 1 .rwl 1 0x00 false false false false (1) 16 [2],
  pd pCSL_RETRY_N 5 1 .rwl 1 0x00 false false false false (0) 16 [8],
  pd pCSL_SCRUB_AGE 12 1 .rwl 1 0x00 false false false false (7) 3650 [365],
  pd pCSL_SCRUB_BITS 7 1 .rwl 1 0x00 false false false false (40) 119 [80],
  pd pCSL_ERASED_BITS 7 1 .rwl 1 0x00 false false false false (0) 64 [16],
  pd pCSL_BG_PCT 6 1 .rwl 1 0x00 false false false false (1) 50 [10],
  pd pCSL_PE_MEAN 32 1 .ro 0 0x00 false false false false (0) 4294967295 [0],
  pd pCSL_PE_MAX 32 1 .ro 0 0x00 false false false false (0) 4294967295 [0],
  pd pCSL_SPARE_LEFT 32 1 .ro 0 0x00 false false false false (0) 4294967295 [0],
  pd pCSL_STAGE_FREE 64 1 .ro 0 0x00 false false false false (0) 18446744073709551615 [0],
  pd pCSL_STAGE_USED 64 1 .ro 0 0x00 false false false false (0) 18446744073709551615 [0],
  pd pCSL_PROG_RATE 16 1 .ro 0 0x00 false false false false (0) 65535 [0],
  pd pCSL_AGE_CLOCK 64 1 .ro 1 0x00 false false false false (0) 18446744073709551615 [0],
  pd pCSL_DIE_STAT 32 384 .ro 0 0x00 false false false false (0) 4294967295 [0],
  pd pCSL_SC_STATE 64 1 .ro 0 0x00 false false false false (0) 18446744073709551615 [0],
  pd pCSL_ORPHANS 32 1 .ro 1 0x00 false false false false (0) 4294967295 [0],
  pd pHIF_LINK_STAT 11 1 .ro 0 0x00 false false false false (0) 2047 [0],
  pd pHIF_LINK_MAX 3 1 .rwl 1 0x00 false false false false (4) 6 [6],
  pd pHIF_CREDIT_LIMIT 16 1 .rwl 0 0xC1 false false false false (0) 8192 [8192],
  pd pHIF_CREDIT_EFF 16 1 .ro 0 0x00 false false false false (0) 65535 [0],
  pd pHIF_UNPERSISTED 64 1 .ro 0 0x00 false false false false (0) 18446744073709551615 [0],
  pd pHIF_WT_MS 10 1 .rwl 1 0x00 false false false false (1) 1000 [5],
  pd pHIF_WBUF_GIB 6 1 .rwf 1 0x00 false false false false (12) 32 [16],
  pd pHIF_HELD 14 1 .ro 0 0x00 false false false false (0) 16383 [0],
  pd pHIF_PRIO_RESERVE 11 1 .rwl 1 0x00 false false false false (0) 1024 [256],
  pd pHIF_NZ 23 1 .ro 0 0x00 false false false false (0) 8388607 [404900]]

/-- Rows of the parameter tables, part 4. -/
def paramRows4 : List PDesc := [
  pd pHIF_GROW_STEP 13 1 .rwl 1 0x00 false false false false (1) 4096 [256],
  pd pHIF_TAKE_CUR 32 1 .ro 0 0x00 false false false false (0) 4294967295 [0],
  pd pHIF_LIFE 10 1 .ro 0 0x00 false false false false (0) 1023 [0],
  pd pHIF_REC_MAX 17 1 .rwl 1 0x00 false false false false (64) 65536 [4096],
  pd pHIF_REC_IDLE 10 1 .rwl 1 0x00 false false false false (1) 1000 [10],
  pd pHIF_FROZEN 11 1 .ro 0 0x00 false false false false (0) 2047 [0],
  pd pCCL_CORES 5 1 .rwl 0 0xC5 false false true false (0) 16 [0],
  pd pCCL_INST_MAX 9 1 .rwl 0 0xC5 false false false false (1) 256 [256],
  pd pCCL_MEM_GIB 5 1 .rwf 1 0x00 false false false false (1) 16 [8],
  pd pCCL_INV_MS 22 1 .rwl 1 0x00 false false false false (1) 3600000 [60000],
  pd pCCL_IDLE_MS 14 1 .rwl 1 0x00 false false false false (1) 10000 [100],
  pd pCCL_DMA_MAX 9 1 .rwl 1 0x00 false false false false (1) 256 [32],
  pd pCCL_INST_STAT 32 256 .ro 0 0x00 false false false false (0) 4294967295 [0],
  pd pCCL_CORE_STAT 16 16 .ro 0 0x00 false false false false (0) 65535 [0],
  pd pCCL_INVOKES 32 1 .ro 0 0x00 false false false false (0) 4294967295 [0],
  pd pCCL_FREEZES 32 1 .ro 0 0x00 false false false false (0) 4294967295 [0],
  pd pCCL_MEM_FREE 64 1 .ro 0 0x00 false false false false (0) 18446744073709551615 [0],
  pd pCCA_ENABLE 1 1 .rwf 1 0x00 false false false false (0) 1 [1],
  pd pCCA_WAY_EN 16 1 .rwf 1 0x00 false true false false (0) 65535 [65535],
  pd pCCA_WMASK 16 18 .rwl 1 0x00 false false false false (0) 65535 [65535],
  pd pCCA_PF_EN 1 18 .rwl 1 0x00 false false false false (0) 1 [1],
  pd pCCA_RNG_BASE 34 1 .rwl 1 0x00 false true false false (0) 17179869183 [0],
  pd pCCA_RNG_LEN 35 1 .rwl 1 0x00 false true false false (64) 34359738367 [64],
  pd pCCA_RNG_OP 2 1 .wo 1 0x00 false false false false (1) 2 [0],
  pd pCCA_STATUS 21 1 .ro 0 0x00 false false false false (0) 2097151 [1048577],
  pd pCCA_WAY_FAIL 16 1 .ro 0 0x00 false false false false (0) 65535 [0],
  pd pCCA_WAY_PWR 16 1 .ro 1 0x00 false false false false (0) 65535 [65535],
  pd pCCA_HITS 64 18 .ro 0 0x00 false false false false (0) 18446744073709551615 [0],
  pd pCCA_MISSES 64 18 .ro 0 0x00 false false false false (0) 18446744073709551615 [0],
  pd pCCA_RECALLS 32 8 .ro 1 0x00 false false false false (0) 4294967295 [0],
  pd pCCA_PF_CNT 32 8 .ro 1 0x00 false false false false (0) 4294967295 [0],
  pd pCCA_CE_CNT 32 16 .ro 0 0x00 false false false false (0) 4294967295 [0],
  pd pCCA_UE_CNT 16 16 .ro 0 0x00 false false false false (0) 65535 [0],
  pd pSFQ_DEPTH 16 96 .rws 1 0x00 false true false true 0 65535 [2048],
  pd pSFQ_EXT_SIZE 32 96 .rws 1 0x00 false true false true (0) 4294967295 sfqExtReset,
  pd pSFQ_CT_THRESH 13 96 .rwl 1 0x00 false true false false (0) 4096 [16],
  pd pSFQ_RESTART 1 96 .wo 1 0x00 false false false false (0) 1 [0],
  pd pSFQ_FILL 32 96 .ro 0 0x00 false false false false (0) 4294967295 [0],
  pd pSFQ_PKTS 24 96 .ro 0 0x00 false false false false (0) 16777215 [0],
  pd pSFQ_STATUS 3 96 .ro 0 0x00 false false false false (0) 7 [1],
  pd pSFQ_STICKY 4 96 .w1c 0 0x00 false false false false (0) 15 [0],
  pd pSFQ_DROPS 16 96 .ro 0 0x00 false false false false (0) 65535 [0],
  pd pSFQ_PEAK 32 96 .ro 0 0x00 false false false false (0) 4294967295 [0],
  pd pPWR_CREDIT 14 1 .ro 0 0x00 false false false false (0) 16383 [0],
  pd pPWR_BANK_C 32 1 .ro 0 0x00 false false false false (0) 4294967295 [0],
  pd pPWR_BANK_ESR 32 1 .ro 0 0x00 false false false false (0) 4294967295 [0],
  pd pPWR_TEST_STAT 32 1 .ro 0 0x00 false false false false (0) 4294967295 [0],
  pd pPWR_TEST_NOW 1 1 .wo 1 0x00 false false false false (0) 1 [0]]

/-- Rows of the parameter tables, part 5. -/
def paramRows5 : List PDesc := [
  pd pPWR_BANK_FULL 16 1 .rws 1 0x00 false true true true (40000) 63000 [0],
  pd pPWR_BANK_MIN 16 1 .rws 1 0x00 false true true true (12000) 55000 [0],
  pd pPWR_RTEST 14 1 .rws 1 0x00 false false true true (50) 10000 [0],
  pd pPWR_C_MIN 20 1 .rws 1 0x00 false false true true (1000) 1000000 [0],
  pd pPWR_ESR_MAX 11 1 .rws 1 0x00 false false true true (1) 2000 [0],
  pd pPWR_DRAIN_W 8 1 .rws 1 0x00 false false true true (10) 160 [0],
  pd pPWR_DRAIN_FIX_MS 10 1 .rws 1 0x00 false false false true (20) 1000 [60],
  pd pPWR_DERATE 7 1 .rws 1 0x00 false false false true (50) 95 [80],
  pd pPWR_CHG_TMO 10 1 .rwl 1 0x00 false false false false (10) 600 [120],
  pd pPWR_RAIL_STAT 28 1 .ro 0 0x00 false false false false (0) 268435455 [0],
  pd pPWR_PG_TMO 6 1 .rwl 1 0x00 false false false false (1) 50 [5],
  pd pPWR_LINE_MV 16 1 .ro 0 0x00 false false false false (0) 65535 [0],
  pd pPWR_BANK_MV 16 1 .ro 0 0x00 false false false false (0) 65535 [0],
  pd pPWR_TJ 16 1 .ro 0 0x00 true false false false (-32768) 32767 [0],
  pd pPWR_TJ_PEAK 16 1 .ro 0 0x00 false false false false (0) 65535 [0],
  pd pCHV_TEMP_MIN 8 1 .rws 1 0x00 true true true true (-40) 40 [0],
  pd pCHV_TEMP_MAX 8 1 .rws 1 0x00 true true true true (20) 85 [0],
  pd pCHV_RH_MAX 7 1 .rwl 1 0x00 false false false false (10) 100 [90],
  pd pCHV_SHOCK_LOG 12 1 .rwl 1 0x00 false false false false (10) 4000 [300],
  pd pCHV_STATUS 5 1 .ro 0 0x00 false false false false (0) 31 [0],
  pd pCHV_TEMP 16 1 .ro 0 0x00 true false false false (-32768) 32767 [0],
  pd pCHV_RH 10 1 .ro 0 0x00 false false false false (0) 1023 [0],
  pd pCHV_RTC 64 1 .ro 0 0x00 false false false false (0) 18446744073709551615 [0],
  pd pCHV_SHOCK_PEAK 12 1 .ro 0 0x00 false false false false (0) 4095 [0],
  pd pCHV_RING_LOST 16 1 .ro 0 0x00 false false false false (0) 65535 [0],
  pd pEVT_CTL 3 2048 .rwl 1 0x00 false false true false (0) 7 [0],
  pd pEVT_RATE 10 1 .rwl 1 0x00 false false false false (1) 1000 [16],
  pd pEVT_MSIX_VEC 11 1 .rwl 1 0x00 false true false false (0) 2047 [0],
  pd pEVT_JNL_ENTRIES 21 1 .rwf 1 0x00 false true false false (65536) 1048576 [262144],
  pd pEVT_COUNT 32 2048 .ro 0 0x00 false false false false (0) 4294967295 [0],
  pd pEVT_SUPPRESSED 32 2048 .ro 0 0x00 false false false false (0) 4294967295 [0],
  pd pEVT_JNL_SEQ 64 1 .ro 0 0x00 false false false false (0) 18446744073709551615 [0],
  pd pEVT_LOST_LBA 64 2 .ro 0 0x00 false false false false (0) 18446744073709551615 [0],
  pd pEVT_LAST_FAULT 64 1 .ro 0 0x00 false false false false (0) 18446744073709551615 [0],
  pd pBOOT_STEP 4 1 .ro 0 0x00 false false false false (0) 15 [0],
  pd pBOOT_CAUSE 2 1 .ro 0 0x00 false false false false (0) 3 [0],
  pd pBOOT_SAFE_WHY 4 1 .ro 0 0x00 false false false false (0) 15 [0],
  pd pBOOT_PROF_STAT 64 1 .ro 0 0x00 false false false false (0) 18446744073709551615 [0],
  pd pBOOT_PROF_ID 64 1 .ro 0 0x00 false false false false (0) 18446744073709551615 [0],
  pd pBOOT_PATCH_LVL 32 1 .ro 0 0x00 false false false false (0) 4294967295 [0],
  pd pBOOT_FUSES 6 1 .ro 0 0x00 false false false false (0) 63 [0],
  pd pBOOT_IMPORT 32 1048576 .wo 1 0x00 false false false false (0) 4294967295 [0],
  pd pBOOT_IMP_LEN 23 1 .rwl 1 0x00 false false false false (512) 4194304 [0],
  pd pBOOT_IMP_CTL 3 1 .wo 1 0x00 false false false false (1) 4 [0],
  pd pBOOT_IMP_STAT 64 1 .ro 1 0x00 false false false false (0) 18446744073709551615 [0],
  pd pBOOT_TAIL_POS 32 1 .ro 0 0x00 false false false false (0) 4294967295 [0],
  pd pBOOT_TIME_MS 20 1 .ro 0 0x00 false false false false (0) 1048575 [0]]

/-- Every parameter of the device, in PID order. -/
def paramTable : List PDesc :=
  paramRows0 ++ paramRows1 ++ paramRows2 ++ paramRows3 ++ paramRows4 ++ paramRows5

/-- The table row of a PID; none where the PID is unknown (R487). -/
def pdesc? (pid : Nat) : Option PDesc := paramTable.find? (fun d => d.pid == pid)

/-- Element width in bytes: 8 where the Bits column exceeds 32, else 4 (R476). -/
def PDesc.width (d : PDesc) : Nat := if 32 < d.bits then 8 else 4

/-- Field width within one element. -/
def PDesc.field (d : PDesc) : Nat := min d.bits 64

/-- Reset value of an element. -/
def PDesc.resetAt (d : PDesc) (i : Nat) : Int := d.reset.getD i (d.reset.getLastD 0)

/-- Element value of a number: two's complement at the element width (R476). -/
def PDesc.toElem (d : PDesc) (v : Int) : Nat := (v % (2 ^ (8 * d.width) : Int)).toNat

/-- The number an element value stands for, none where bits above the field are not the extension of the field (R476). -/
def PDesc.ofElem (d : PDesc) (e : Nat) : Option Int :=
  let m := 2 ^ d.field
  let f := e % m
  let v : Int := if d.signed && m / 2 ≤ f then (f : Int) - m else f
  if d.toElem v = e then some v else none

/-- Key of an element in the sparse parameter stores. -/
def pkey (pid i : Nat) : Nat := pid * 2 ^ 20 + i

end Sys2Proof.Machine
end

