-- ==== Sys2Proof/Machine/State.lean ====
section
/-! DEFINITION. The state of the device: everything the manual names, as plain data. Each field's docstring reads: meaning | width |
rule and chapter | value at reset. `State.reset` is the part before any line power: OFF, a factory NOR with nothing in it. -/

namespace Sys2Proof.Machine

/-! ### Names -/

/-- Magazine states (R23). -/
inductive MagState where
  | off | island | boot | safe | ready | tensioned | spooling | crawl | parked | playback | locating | service | drain
  deriving DecidableEq, Repr

/-- Transport sub-states (R201). -/
inductive TSub where
  | braked | tensioning | probing | finding | held | moving | stopping | dwell | releasing | dynamic
  deriving DecidableEq, Repr

/-- Operating contexts, with the value C3h reports for each (R20, R355). -/
inductive Ctx where
  | camera | dock | service | none
  deriving DecidableEq, Repr

/-- Zone states in the order of their NVMe encodings 1h to 4h, Dh, Eh, Fh (R95, R334). -/
inductive ZState where
  | empty | implicit | explicit | closed | readOnly | full | offline
  deriving DecidableEq, Repr

/-- States of a loop slot (R191). -/
inductive SlotSt where
  | off | armed | hold
  deriving DecidableEq, Repr

/-- Kinds of data set (R47). -/
inductive DsKind where
  | data | index | parity0 | parity1
  deriving DecidableEq, Repr

/-! ### Host interface -/

/-- One posted completion, with what was transferred to host memory before it (R322, R352). -/
structure Cqe where
  /-- Submission queue of the command | 16 | NVM Express | - -/
  sq : Nat
  /-- Command identifier | 16 | NVM Express | - -/
  cid : Nat
  /-- Status code type | 3 | R514 12 | - -/
  sct : Nat
  /-- Status code | 8 | R514 12 | - -/
  sc : Nat
  /-- Do Not Retry bit | 1 | R514 12 | - -/
  dnr : Bool
  /-- Completion Dword 0 | 32 | R352 12 | - -/
  dw0 : Nat
  /-- Completion Dword 1 | 32 | R352 12 | - -/
  dw1 : Nat
  /-- Data transferred to the host | bytes | R352 12 | - -/
  data : Bytes
  deriving DecidableEq, Repr

/-- A submission queue (R328 to R332). -/
structure Sq where
  /-- Entries | 13 | R328 12 | - -/
  size : Nat
  /-- Completion queue | 16 | R328 12 | - -/
  cq : Nat
  /-- Class: 0 urgent, 1 high, 2 medium, 3 low | 2 | R330 12 | - -/
  cls : Nat
  /-- Head: the next entry fetched | 12 | R332 12 | 0 -/
  head : Nat
  /-- Tail as the last doorbell left it | 12 | R332 12 | 0 -/
  tail : Nat
  /-- Frozen by an invalid doorbell | 1 | R332 12 | false -/
  frozen : Bool
  deriving DecidableEq, Repr

/-- A completion queue (R328). -/
structure Cq where
  /-- Entries | 13 | R328 12 | - -/
  size : Nat
  /-- Head as the last doorbell left it | 12 | R332 12 | 0 -/
  head : Nat
  /-- Tail | 12 | NVM Express | 0 -/
  tail : Nat
  /-- Interrupt vector | 11 | R328 12 | - -/
  vector : Nat
  /-- Interrupts enabled | 1 | NVM Express | - -/
  ien : Bool
  /-- Entries posted and not yet released by the head doorbell, oldest first | list | NVM Express | empty -/
  entries : List Cqe
  deriving DecidableEq, Repr

/-- What a held command is waiting for. -/
inductive Wait where
  /-- Fetched; nothing of it has begun. -/
  | fetched
  /-- Executing in the very command that fetched it. -/
  | running
  /-- An Asynchronous Event Request (R358). -/
  | aer
  /-- A write or Zone Append whose record is in `writes` (R342). -/
  | write
  /-- A Flush covering the write applications up to number `upto` on the chosen namespaces, but for those of `skip`, which had not
  completed when it was fetched (R346). -/
  | flush (take side : Bool) (upto : Nat) (skip : List Nat)
  /-- A Spool Commit covering take writes up to number `upto`, but for those of `skip` (R96). -/
  | spoolCommit (upto : Nat) (skip : List Nat)
  /-- A write or Zone Append to a zone of the current take, fetched behind a Take Mark: it waits unchecked (R338). -/
  | behindMark (append : Bool) (slba nlb : Nat) (fua : Bool) (cdw2 cdw3 : Nat)
  /-- A Take Mark waiting for earlier writes (R338). -/
  | takeMark
  /-- A read of NSID 1 waiting for tape (R13). -/
  | read (slba nlb : Nat) (limited : Bool)
  /-- A sidecar command waiting for the HMB load (R319): the command is kept to run again. -/
  | hmb (slba nlb : Nat) (op : Nat) (data : Bytes)
  /-- A Transport Command in `tasks`. -/
  | transport
  /-- Waiting for a write of the key record, or for a rotation (R268, R271). -/
  | keyRecord
  /-- A Kernel Invoke queued or running. -/
  | invoke (inst : Nat)
  /-- A Trace Read of packets from `first` on, whose data FIFO 92 holds back (R111, R198). -/
  | trace (first count : Nat)
  /-- Firmware activation waiting for started commands; `rom` when slot 1, the ROM without patches, is to run (R350, R351). -/
  | activate (rom : Bool)
  /-- Deletion of a submission queue waiting for its commands' completions (R349). -/
  | deleteSq (qid : Nat)
  /-- A completion built and waiting for room in its completion queue. -/
  | posting (e : Cqe)
  /-- The completion of an Abort, waiting likewise (R348). -/
  | aborting (e : Cqe)
  deriving DecidableEq, Repr

/-- A held command: fetched, its completion not yet posted (R329). -/
structure Held where
  /-- Fetch number | counter | R330 12 | - -/
  seq : Nat
  /-- Submission queue | 16 | R329 12 | - -/
  sq : Nat
  /-- Command identifier, none while only the fetch is known | 16 | R329 12 | - -/
  cid : Option Nat
  /-- Arbitration class: 0 admin or urgent, 1 high, 2 medium, 3 low | 2 | R330 12 | - -/
  cls : Nat
  /-- What it waits for | name | R329 12 | - -/
  wait : Wait
  deriving DecidableEq, Repr

/-- A write or Zone Append not yet completed (R335, R342, R344). -/
structure WriteCmd where
  /-- Fetch number of the held command | counter | R342 12 | - -/
  seq : Nat
  /-- Namespace, 1 or 2 | 32 | R333 12 | - -/
  nsid : Nat
  /-- First LBA; for a Zone Append the zone start until it is placed | 64 | R335 12 | - -/
  slba : Nat
  /-- Blocks | 17 | R335 12 | - -/
  nlb : Nat
  /-- FUA set | 1 | R97 03 | - -/
  fua : Bool
  /-- Zone Append | 1 | R335 12 | - -/
  append : Bool
  /-- Timecode dwords, none when bit 31 of CDW3 is clear | 64 | R339 12 | - -/
  timecode : Option (Nat × Nat)
  /-- Its data is wholly in the write area | 1 | R344 12 | - -/
  moved : Bool
  /-- Write application number, 0 until moved | counter | R331 12 | - -/
  app : Nat
  deriving DecidableEq, Repr

/-- One LBA of the write area (R344). -/
structure WLba where
  /-- The block | 4,096 bytes | R344 12 | - -/
  data : Bytes
  /-- Its write has been acknowledged or its command has ended | 1 | R342 12 | - -/
  acked : Bool
  /-- Persisted under R302 | 1 | R302 11 | - -/
  persisted : Bool
  /-- Write application number | counter | R331 12 | - -/
  app : Nat
  /-- The packer has taken it into a record | 1 | R71 03 | - -/
  packed : Bool
  /-- Sequence number of the DS holding its record's last byte, when it has entered one | 32 | R76 03 | - -/
  ds : Option Nat
  /-- Timecode of the command that wrote it, when this is its first LBA | 64 | R339 12 | - -/
  timecode : Option (Nat × Nat)
  deriving DecidableEq, Repr

/-- A zone of the take namespace (R334). -/
structure Zone where
  /-- State | 4 | R334 12 | empty -/
  st : ZState
  /-- Write pointer relative to the zone start | 17 | R334 12 | 0 -/
  wp : Nat
  /-- Take it belongs to | 32 | R338 12 | 0 -/
  take : Nat
  /-- Bound stream context | 16 | R72 03 | none -/
  ctx : Option Nat
  /-- Blocks really written; LBAs of a Full zone above it read as zeros | 17 | R336 12 | 0 -/
  written : Nat
  /-- Finished by Take Mark: attribute bit 0 | 1 | R337 12 | false -/
  byTakeMark : Bool
  /-- Number of the last write, for implicit close | counter | R334 12 | 0 -/
  lastWrite : Nat
  deriving DecidableEq, Repr

/-- A take (R73, R95, R338). -/
structure Take where
  /-- Media key identifier | 16 | R261 10 | 0 -/
  keyId : Nat
  /-- Closed by Take Mark | 1 | R73 03 | false -/
  closed : Bool
  /-- Cryptographically erased | 1 | R272 10 | false -/
  erased : Bool
  /-- First zone | 32 | R95 03 | - -/
  firstZone : Nat
  /-- Zones | 32 | R95 03 | - -/
  zones : Nat
  /-- Start time, seconds | 64 | R95 03 | - -/
  start : Nat
  /-- First data DS sequence number holding its data | 32 | R95 03 | none -/
  firstDs : Option Nat
  /-- Last data DS sequence number holding its data | 32 | R95 03 | none -/
  lastDs : Option Nat
  /-- Its first record has been cut | 1 | R73 03 | false -/
  firstCut : Bool
  deriving DecidableEq, Repr

/-- An Error log entry (R168, R356). -/
structure ErrEntry where
  /-- Error count | 64 | NVM Express | - -/
  count : Nat
  /-- Submission queue | 16 | NVM Express | - -/
  sq : Nat
  /-- Command identifier | 16 | NVM Express | - -/
  cid : Nat
  /-- Status field: SCT, SC, DNR | 15 | NVM Express | - -/
  status : Nat
  /-- LBA | 64 | R168 06 | - -/
  lba : Nat
  /-- Namespace | 32 | NVM Express | - -/
  nsid : Nat
  /-- Vendor Specific Information Available | 8 | R168 06 | - -/
  vsi : Nat
  /-- Command Specific Information | 64 | R168 06 | - -/
  csi : Nat
  deriving DecidableEq, Repr

/-- The NVMe controller and the PCI Express function. -/
structure Nvme where
  /-- Link trained: (rate code, width, flit) of HIF_LINK_STAT | 11 | R323, R360 12 | none -/
  link : Option (Nat × Nat × Bool)
  /-- Link power state: 0 L0, 1 L1, 2 L1.1, 3 L1.2, 4 L2 | name | R324, R17 12 | 0 -/
  linkPower : Nat
  /-- WAKE_N asserted | 1 | R324 12 | false -/
  wake : Bool
  /-- CC.EN | 1 | R325 12 | false -/
  en : Bool
  /-- CC.AMS | 3 | R330 12 | 0 -/
  ams : Nat
  /-- CC.CSS | 3 | R333 12 | 0 -/
  css : Nat
  /-- CC.SHN as last written | 2 | R327 12 | 0 -/
  shn : Nat
  /-- CSTS.SHST | 2 | R327 12 | 0 -/
  shst : Nat
  /-- CSTS.RDY | 1 | R325 12 | false -/
  rdy : Bool
  /-- CSTS.CFS | 1 | R512 12 | false -/
  cfs : Bool
  /-- CSTS.PP | 1 | R351 12 | false -/
  pp : Bool
  /-- Submission queues by identifier, 0 the admin queue | 1,025 queues | R328 12 | empty -/
  sqs : NMap Sq
  /-- Completion queues by identifier | 1,025 queues | R328 12 | empty -/
  cqs : NMap Cq
  /-- Held commands in fetch order | at most 8,192 | R329 12 | empty -/
  held : List Held
  /-- Next fetch number | counter | R330 12 | 0 -/
  fetchSeq : Nat
  /-- Last queue served in each class, for round robin | 16 each | R330 12 | empty -/
  rr : NMap Nat
  /-- Commands left to the queue class under its weight: (class, remaining) | 8 | R330 12 | (1, 0) -/
  wrr : Nat × Nat
  /-- Writes not completed, in fetch order | list | R342 12 | empty -/
  writes : List WriteCmd
  /-- Writes applied so far | counter | R331 12 | 0 -/
  applied : Nat
  /-- Interrupt vectors signalled: count per vector | 2,048 vectors | R324 12 | empty -/
  msix : NMap Nat
  /-- Features 01h, 04h (two thresholds each of two sensors), 08h, 0Bh, 0Dh by key, 09h at 0x900 + vector | 32 each | R353 12 | empty: defaults -/
  features : NMap Nat
  /-- Volatile write cache enabled (06h) | 1 | R342 12 | true -/
  vwc : Bool
  /-- Error log, newest first, at most 64 | 64 entries | R356 12 | empty -/
  errLog : List ErrEntry
  /-- Error count | 64 | NVM Express | 0 -/
  errCount : Nat
  /-- Event types masked until their log is read: 256·type + information | list | R358 12 | empty -/
  masked : List Nat
  /-- Asynchronous events waiting for a request: (type, information, log) | list | R358 12 | empty -/
  asyncQ : List (Nat × Nat × Nat)
  /-- Namespaces changed since log 04h was read | list | R340 12 | empty -/
  changedNs : List Nat
  /-- Zones made Offline since log BFh was read | list | R356 12 | empty -/
  changedZones : List Nat
  /-- 512-byte units of LBA data read by the host | counter | R357 12 | 0 -/
  unitsRead : Nat
  /-- 512-byte units of LBA data written by the host | counter | R357 12 | 0 -/
  unitsWritten : Nat
  /-- Host read commands | counter | NVM Express | 0 -/
  readCmds : Nat
  /-- Host write commands | counter | NVM Express | 0 -/
  writeCmds : Nat
  /-- BOOTs | counter | R357 12 | 0 -/
  powerCycles : Nat
  /-- Chervil ticks spent from BOOT to DRAIN | counter | R357 12 | 0 -/
  powerOn : Nat
  /-- DRAINs without a completed normal shutdown | counter | R357 12 | 0 -/
  unsafeShut : Nat
  /-- Reads completed with Unrecovered Read Error | counter | R357 12 | 0 -/
  mediaErrors : Nat
  /-- Effective credit was 0 at the last evaluation | 1 | R343 12 | true -/
  creditZero : Bool
  /-- EVT 0x607 raised: a first Capacity Exceeded has been reported | 1 | R359 12 | false -/
  capReported : Bool
  /-- Firmware image being downloaded, by 4-byte offset runs | bytes | R350 12 | empty -/
  fwBuf : Bytes
  /-- Slot 2 image marked for activation | 1 | R351 12 | false -/
  fwMarked : Bool
  /-- Patch package stored in slot 2, none when empty | at most 4 MiB | R350 12 | none -/
  fwSlot2 : Option Bytes
  /-- Patch level running, 0 unpatched | 32 | R440 16 | 0 -/
  patchLevel : Nat
  deriving DecidableEq, Repr

/-! ### Take namespace, packer and DS assembly -/

/-- A stream context (R9, R72): what the manual lets the model see of its 64 bytes. -/
structure StreamCtx where
  /-- Take it was last bound for | 32 | R72 03 | - -/
  take : Nat
  /-- Next cipher-sector index | 64 | R72 03 | 0 -/
  next : Nat
  /-- Zone bound now, none when free | 32 | R72 03 | none -/
  zone : Option Nat
  /-- Geometry descriptor copied at binding, eight words | 256 | R224 09 | - -/
  geom : List Nat
  deriving DecidableEq, Repr

/-- A record from its opening to its entry into the payload stream (R71, R74, R223, R252). -/
structure PackRec where
  /-- Zone | 32 | R33 02 | - -/
  zone : Nat
  /-- First LBA | 64 | R33 02 | - -/
  start : Nat
  /-- LBAs so far | 17 | R33 02 | - -/
  count : Nat
  /-- Take | 32 | R33 02 | - -/
  take : Nat
  /-- Media key identifier | 16 | R33 02 | - -/
  keyId : Nat
  /-- Stream context | 16 | R33 02 | - -/
  ctx : Nat
  /-- Flags of the header | 8 | R33 02 | - -/
  flags : Nat
  /-- Timecode, 8 header bytes | 64 | R33 02 | - -/
  timecode : Bytes
  /-- Latched HIF_REC_MAX | 17 | R100 03 | - -/
  recMax : Nat
  /-- Compression mode | 2 | R224, R240 09 | - -/
  mode : Nat
  /-- Latched CMP_BLOCK_KIB | 9 | R224 09 | - -/
  block : Nat
  /-- Compression engine | 3 | R223 09 | - -/
  engine : Nat
  /-- Geometry descriptor | 256 | R227 09 | - -/
  geom : List Nat
  /-- Stream offset of its first byte | 64 | R230 09 | - -/
  t0 : Nat
  /-- Uncompressed bytes received | bytes | R223 09 | empty -/
  data : Bytes
  /-- Number in closing order, none while open | counter | R74 03 | none -/
  closed : Option Nat
  /-- Uncompressed bytes coded so far | 28 | R241 09 | 0 -/
  at_ : Nat
  /-- Tables carried from block to block | 17 lengths per context | R239 09 | none -/
  carried : Option (List (List Nat))
  /-- Compressed record so far | bytes | R241 09 | empty -/
  coded : Bytes
  /-- Data CRC | 32 | R33 02 | 0 until closed -/
  crc : Nat
  /-- First cipher-sector index, once the first sector is encrypted | 64 | R33 02 | 0 -/
  sector0 : Nat
  /-- Encrypted sectors so far | bytes | R35 02 | empty -/
  body : Bytes
  /-- Its body is complete | 1 | R35 02 | false -/
  done : Bool
  /-- Number in the order in which coded bodies have reached the XTS lanes, none before | counter | R251 10 | none -/
  arrived : Option Nat
  deriving DecidableEq, Repr

/-- A directory entry of the open DS (R39). -/
structure DirEntry where
  /-- Payload offset | 32 | R39 02 | - -/
  off : Nat
  /-- Envelope length | 32 | R39 02 | - -/
  len : Nat
  /-- Zone | 32 | R39 02 | - -/
  zone : Nat
  /-- LBA count | 32 | R39 02 | - -/
  count : Nat
  /-- First LBA | 64 | R39 02 | - -/
  start : Nat
  /-- Stream context | 16 | R39 02 | - -/
  ctx : Nat
  /-- Header flags | 16 | R39 02 | - -/
  flags : Nat
  /-- Take | 32 | R39 02 | - -/
  take : Nat
  deriving DecidableEq, Repr

/-- A DS being assembled (R37, R40). -/
structure OpenDs where
  /-- Payload bytes placed | at most 3 MiB | R37 02 | empty -/
  payload : Bytes
  /-- Directory | at most 2,040 entries | R39 02 | empty -/
  dir : List DirEntry
  /-- Continuation length | 32 | R37 02 | 0 -/
  cont : Nat
  /-- Fill start, none while open | 32 | R40 02 | none -/
  fill : Option Nat
  deriving DecidableEq, Repr

/-- An assembled data DS (R37, R292). -/
structure DsImage where
  /-- The 3,211,264 information bytes: payload, then table with its tag | bytes | R292 11 | - -/
  bytes : Bytes
  /-- First sequence number of its C3 group, once the group has been started | 32 | R57 02 | none -/
  group : Option Nat
  /-- Its Carousel units and journal record have persisted | 1 | R302 11 | false -/
  persisted : Bool
  /-- Spool-committed | 1 | R77 03 | false -/
  committed : Bool
  /-- Take log offset of its first byte | 64 | R292 11 | - -/
  logOff : Nat
  /-- LBAs it completes: (LBA, count) | list | R76 03 | - -/
  lbas : List (Nat × Nat)
  deriving DecidableEq, Repr

/-- A location entry of the index (R95). -/
structure Loc where
  /-- First sequence number | 32 | R95 03 | - -/
  seq : Nat
  /-- Count | 16 | R95 03 | - -/
  count : Nat
  /-- Wrap | 8 | R95 03 | - -/
  wrap : Nat
  /-- 0 data run, 1 parity pair | 8 | R95 03 | - -/
  kind : Nat
  /-- Position of the first DS | 32 | R95 03 | - -/
  pos : Nat
  /-- First sequence number of the group | 32 | R95 03 | - -/
  group : Nat
  deriving DecidableEq, Repr

/-- A DS copy in the spool queue (R75, R109). -/
structure Copy where
  /-- Kind | name | R47 02 | - -/
  kind : DsKind
  /-- Sequence number: of the DS, of the group's first DS for parity, of the index DS for index | 32 | R37 02 | - -/
  seq : Nat
  /-- Data DS of its group when the copy is a parity DS | 5 | R47 02 | 0 -/
  m : Nat
  deriving DecidableEq, Repr

/-- A copy started on tape whose verify result is outstanding (R86, R87). -/
structure Started where
  /-- The copy | record | R87 03 | - -/
  copy : Copy
  /-- Wrap | 8 | R60 02 | - -/
  wrap : Nat
  /-- Position | 20 | R60 02 | - -/
  pos : Nat
  /-- Rewrite flag | 1 | R61 02 | - -/
  rewrite : Bool
  /-- Started since the last rewind | 1 | R109 04 | true -/
  fresh : Bool
  /-- Cut short by a stop | 1 | R86 03 | false -/
  cut : Bool
  /-- Speed zone of the copy | 4 | R81 03 | - -/
  zone : Nat
  /-- Rows whose header passed, by channel: bit k for slot k | 8 each | R86 03 | empty -/
  good : NMap Nat
  /-- Rows with valid headers that C1 cannot correct, by channel: bit k for slot k | 8 each | R86 03 | empty -/
  c1Fail : NMap Nat
  /-- Lanes that have seen the copy's DS separator | list of lanes | R124, R126 05 | empty -/
  heads : List Nat
  /-- The result, once it is available: it takes effect at the next position boundary | 1 | R87 03 | none -/
  result : Option Bool
  deriving DecidableEq, Repr

/-- A verified position (R92). -/
structure Verified where
  /-- The copy | record | R92 03 | - -/
  copy : Copy
  /-- Wrap | 8 | R92 03 | - -/
  wrap : Nat
  /-- Position | 20 | R92 03 | - -/
  pos : Nat
  deriving DecidableEq, Repr

/-- An index generation being recorded (R93, R94). -/
structure IndexGen where
  /-- Generation number | 32 | R68 02 | - -/
  num : Nat
  /-- Index wrap, 0 or 1 | 8 | R68 02 | - -/
  wrap : Nat
  /-- Index DS, each its 3,211,264 information bytes | list | R95 03 | - -/
  ds : List Bytes
  /-- Index DS number next to be verified | 12 | R68 02 | 0 -/
  at_ : Nat
  /-- Next index position | 13 | R67 02 | 0 -/
  pos : Nat
  deriving DecidableEq, Repr

/-- Take namespace, record packer, DS assembly, spool queue and formatter. -/
structure Spool where
  /-- Zones by index, Empty when not listed | 4,194,304 zones | R334 12 | empty -/
  zones : NMap Zone
  /-- Zones of the namespace, NZ | 23 | R340 12 | 404,900 -/
  nz : Nat
  /-- Takes by number | 32 | R338 12 | empty -/
  takes : NMap Take
  /-- Take numbers issued | 32 | R338 12 | 0 -/
  lastTake : Nat
  /-- Current take, none when no take is current | 32 | R338 12 | none -/
  current : Option Nat
  /-- Write area of NSID 1 by LBA | 12 to 32 GiB | R344 12 | empty -/
  wbuf : NMap WLba
  /-- Stream contexts by number | 65,536 of 64 bytes | R72 03 | empty -/
  ctxs : NMap StreamCtx
  /-- Next cipher-sector index of a context for a take it is not bound for now, by 65,536·take + context | map of 64 | R72 03, R442 16 | empty -/
  floors : NMap Nat
  /-- Records from opening to entry into the payload stream, in opening order; at most one open per zone | list | R71, R74 03 | empty -/
  recs : List PackRec
  /-- Records closed so far | counter | R74 03 | 0 -/
  closings : Nat
  /-- Overflow buffers in use by each engine's block | 13 | R246 09 | empty -/
  ovf : NMap Nat
  /-- Compression engines that hold a block the pool has no overflow buffer left for | list | R246 09 | empty -/
  ovfWait : List Nat
  /-- Coded bodies that have reached the XTS lanes, counted for their order of arrival | counter | R251 10 | 0 -/
  arrivals : Nat
  /-- Payload stream offset of the open DS | 64 | R33 02 | 0 -/
  stream : Nat
  /-- The open DS | record | R37 02 | empty -/
  cur : OpenDs
  /-- DS whose payload is complete, awaiting table and tag | list | R75 03 | empty -/
  filled : List OpenDs
  /-- Sequence number of the next data DS | 32 | R38 02 | 0 -/
  nextSeq : Nat
  /-- Data DS held as images by sequence number | 3,211,264 bytes each | R292 11 | empty -/
  images : NMap DsImage
  /-- Payload bytes assembled since the last FSYNC edge | 64 | R79 03 | 0 -/
  latch : Nat
  /-- Latched counts with their periods in µs, newest first | list | R79 03 | empty -/
  ffHist : List (Nat × Nat)
  /-- FSYNC valid | 1 | R80 03 | false -/
  fsyncOk : Bool
  /-- FSYNC-derived feed-forward running | 1 | R80 03 | false -/
  ffRun : Bool
  /-- Feed-forward, mm/s | 32 | R79 03 | 0 -/
  vff : Nat
  /-- Requested speed, mm/s | 16 | R78 03 | 0 -/
  vreq : Nat
  /-- Copies started whose results are outstanding, oldest first | list | R87 03 | empty -/
  started : List Started
  /-- First sequence number of the open C3 group, in the order of assembly | 32 | R57 02 | none -/
  groupFirst : Option Nat
  /-- Data DS in the open C3 group | 5 | R58 02 | 0 -/
  groupCount : Nat
  /-- Group sizes by first sequence number, once closed | 5 | R58 02 | empty -/
  groups : NMap Nat
  /-- First verified copies, until their group is journalled | list | R92 03 | empty -/
  verified : List Verified
  /-- Groups complete and journalled, awaiting spool commit | list | R77 03 | empty -/
  ready : List Nat
  /-- Index journal: location entries | list | R92 03 | empty -/
  locs : List Loc
  /-- Append wrap | 6 | R95 03 | 0 -/
  wrap : Nat
  /-- Next position on the append wrap | 20 | R60 02 | 0 -/
  pos : Nat
  /-- Recording has begun on the wrap since its start | 1 | R62 02 | false -/
  wrapUsed : Bool
  /-- Group whose recording has begun on the append wrap | 32 | R58 02 | none -/
  recGroup : Option Nat
  /-- The next start is at the resume position | 1 | R209 08 | false -/
  resume : Bool
  /-- Position from which the speed-measured zone holds: current speed zone | 4 | R81 03 | 0 -/
  zone : Nat
  /-- Wrap ended; waiting for the last verify result | 1 | R85 03 | false -/
  wrapEnd : Bool
  /-- Group to be recorded again whole on the next wrap | 1 | R59 02 | false -/
  carry : Bool
  /-- Consecutive failed copies of each DS on this wrap, by copy code (log 23) | 4 each | R88 03 | empty -/
  fails : NMap Nat
  /-- The group at the mark was carried over onto this wrap | 1 | R89 03 | false -/
  carried : Bool
  /-- Positions still to be left blank by a skip | 7 | R88 03 | 0 -/
  skip : Nat
  /-- Copies of the rewound DS are rewrites: sequence numbers with a started copy | list | R61 02 | empty -/
  copied : List Copy
  /-- Tape writing suspended | 1 | R89 03 | false -/
  suspended : Bool
  /-- Wrap and sequence number of the suspended DS | 32 | R453 17 | 0 -/
  suspendedAt : Nat
  /-- Cartridge full | 1 | R59 02 | false -/
  full : Bool
  /-- Crawl timer running with its latched limit, ms | 16 | R84 03 | none -/
  crawl : Option Nat
  /-- A commit close is in progress before the controlled stop | 1 | R98 03 | false -/
  closing : Bool
  /-- Last data DS the commit close in progress waits to see assembled, once the open DS has been filled | 32 | R98 03 | none -/
  closeAt : Option Nat
  /-- The group the commit close has closed, whose copies' results it waits for | 32 | R98 03 | none -/
  closeGrp : Option Nat
  /-- Park or eject-prepare is draining the queue | 1 | R40 02 | false -/
  draining : Bool
  /-- Groups spool-committed since the last complete generation | 32 | R93 03 | 0 -/
  sinceGen : Nat
  /-- A generation is due | 1 | R93 03 | false -/
  genDue : Bool
  /-- Newest complete generation and its index wrap | 32 | R69 02 | none -/
  newest : Option (Nat × Nat)
  /-- Number of the last generation made for this cartridge, and its index wrap: kept over an initialisation | 32 | R68 02 | none -/
  lastGen : Option (Nat × Nat)
  /-- Generation being recorded | record | R93 03 | none -/
  gen : Option IndexGen
  /-- A generation was abandoned since the last complete one | 1 | R94 03 | false -/
  abandoned : Bool
  /-- Cartridge identifier | 64 | R37 02 | 0 -/
  cartridge : Nat
  /-- Initialisation count | 16 | R42 02 | 1 -/
  initCount : Nat
  /-- No index was found on the cartridge | 1 | R218 08 | true -/
  noIndex : Bool
  /-- Foreign cartridge, with the instance number its key block names | 32 | R264 10 | none -/
  foreign : Option Nat
  /-- Last spool-committed sequence number | 32 | R453 17 | none -/
  lastCommit : Option Nat
  /-- Tail scan pending | 1 | R443 16 | false -/
  tailScan : Bool
  /-- Result of the last tail scan: wrap and position | 32 | R443 16 | 0 -/
  tailPos : Nat
  /-- DS assembly stalled: staging full | 1 | R315 11 | false -/
  stageFull : Bool
  /-- Channels retired by this magazine | 512 | R90 03 | empty -/
  retired : List Nat
  /-- Consecutive copies on which each channel failed in all slots | 4 each | R90 03 | empty -/
  retireRun : NMap Nat
  /-- Retired-channel map of the newest complete generation, when known | 512 | R153 06 | none -/
  indexRetired : Option (List Nat)
  /-- Take LBAs applied and not yet spool-committed, with their application number | list | R96, R97 03 | empty -/
  uncommitted : NMap Nat
  /-- Rewrites, copies verified, copies failed, skips, carry-overs, suspensions over the head stack's life | 64 each | R453 17 | empty -/
  life : NMap Nat
  /-- Rewrite copies, blank positions and carry-overs since BOOT | 64 each | R453 17 | empty -/
  sinceBoot : NMap Nat
  /-- Per-channel counts: 8·c + field | 32 each | R453 17 | empty -/
  chan : NMap Nat
  /-- Per-wrap counts: 8·w + field | 32 each | R453 17 | empty -/
  perWrap : NMap Nat
  deriving DecidableEq, Repr

/-! ### Stream FIFOs -/

/-- One stored word of a FIFO (R102): payload, end mark, byte count. -/
structure FWord where
  /-- Payload | 256 or 64 | R101 04 | - -/
  payload : Nat
  /-- End mark | 1 | R102 04 | - -/
  last : Bool
  /-- Byte count of an end-marked data word, 0 for 32 | 5 | R102 04 | - -/
  count : Nat
  deriving DecidableEq, Repr

/-- A stream FIFO (R101 to R112). `words` runs from L to W; M and P are held as offsets from L. -/
structure Fifo where
  /-- Release pointer L, as words since reset | pointer | R108 04 | 0 -/
  lp : Nat
  /-- Words from L to W | depth | R108 04 | empty -/
  words : List FWord
  /-- Mark M, words after L | pointer | R108 04 | 0 -/
  m : Nat
  /-- Read pointer P, words after L | pointer | R108 04 | 0 -/
  p : Nat
  /-- The arriving packet is being ignored | 1 | R106 04 | false -/
  dropping : Bool
  /-- Halted | 1 | R111 04 | false -/
  halted : Bool
  /-- Sticky bits: overrun, mismatch, refused operation, buffer error | 4 | R113 04 | 0 -/
  sticky : Nat
  /-- Dropped packets | 16 | R106 04 | 0 -/
  drops : Nat
  /-- Highest fill since BOOT | 32 | R113 04 | 0 -/
  peak : Nat
  /-- The word the last FIFO_READ returned: valid tag and word | 257 | R104 04 | none -/
  out : Option FWord
  /-- Words a producer still holds because the body is full or halted, first to go in first | words | R105 04 | empty -/
  held : List FWord
  /-- Words of the head packet already read | counter | R107 04 | 0 -/
  headRead : Nat
  /-- Cut-through threshold latched for the head packet | 13 | R113 04 | 0 -/
  thr : Nat
  deriving DecidableEq, Repr

/-- An empty FIFO. -/
def Fifo.empty : Fifo :=
  { lp := 0, words := [], m := 0, p := 0, dropping := false, halted := false, sticky := 0, drops := 0, peak := 0, out := none,
    held := [], headRead := 0, thr := 0 }

/-! ### Read channel and decoder -/

/-- An erasure pointer (R136). -/
structure Pointer where
  /-- Channel | 9 | R136 05 | - -/
  chan : Nat
  /-- Slot | 3 | R136 05 | - -/
  slot : Nat
  /-- Candidate index | 1 | R136 05 | - -/
  cand : Nat
  /-- First row byte | 10 | R136 05 | - -/
  first : Nat
  /-- Last row byte | 10 | R136 05 | - -/
  last : Nat
  /-- Whole row erased | 1 | R136 05 | - -/
  whole : Bool
  /-- Cause | 4 | R136 05 | - -/
  cause : Nat
  /-- Read tag bits [23:0] | 24 | R136 05 | - -/
  tag : Nat
  deriving DecidableEq, Repr

/-- A dropout span, in numbers of bits sampled (R133). -/
structure Span where
  /-- Kind: 1 amplitude loss, 2 thermal asperity, 3 clipping | 2 | R133 05 | - -/
  kind : Nat
  /-- First bit, or the first not yet reported | counter | R133 05 | - -/
  first : Nat
  /-- Last bit; of a span still open the last so far | counter | R133 05 | - -/
  last : Nat
  /-- Bits since the mean has come back | 7 | R133 05 | 0 -/
  back : Nat
  /-- Counted in TRC_DO_CNT | 1 | R150 05 | false -/
  counted : Bool
  deriving DecidableEq, Repr

/-- The signal chain of a data lane: ADC, timing recovery, equaliser, detector and dropout detector (R117 to R122, R133). -/
structure Sig where
  /-- Newest ADC code | 7 | R118 05 | 0 -/
  prev : Int
  /-- Time from the newest sample to the next bit, 1/65,536 sample | 24 | R119 05 | 0 -/
  wait : Nat
  /-- Loop residual, 1/2^20 of the bit period | 16 | R119 05 | 0 -/
  freq : Int
  /-- Squared phase errors of the last 64 bits, newest first, in (1/64 bit)^2 | 64 | R119 05 | empty -/
  errs : List Nat
  /-- Bits sampled since the lane was powered | counter | R119 05 | 0 -/
  n : Nat
  /-- Last 11 bit samples, newest first, 1/64 LSB | 11 | R120 05 | empty -/
  line : List Int
  /-- Last equaliser output, and the ideal level it was decided to have, LSB | 2 × 9 | R119, R120 05 | (0, 0) -/
  y : Int × Int
  /-- Survivors of the 16 detector states: metric and the last 64 bits, newest in bit 0 | 16 × (n + 64) | R122 05 | empty -/
  paths : List (Nat × Nat)
  /-- Last magnetisation out of the detector | 1 | R122 05 | none -/
  mag : Option Bool
  /-- Magnitudes of the newest equaliser outputs, newest first: TRC_DO_WIN of them | 64 | R133 05 | empty -/
  win : List Nat
  /-- The 4,096 magnitudes before, newest first | 4,096 | R133 05 | empty -/
  ref : List Nat
  /-- Open amplitude loss or thermal asperity | record | R133 05 | none -/
  span : Option Span
  /-- Samples at an ADC limit in each of the last 8 bits, newest first | 8 | R133 05 | empty -/
  clips : List Nat
  /-- Open clipping span | record | R133 05 | none -/
  clip : Option Span
  /-- Spans completed and not yet reported | list | R133 05 | empty -/
  done : List Span
  /-- Samples since the last row end | counter | R148 05 | 0 -/
  samples : Nat
  /-- Samples at an ADC limit since the last row end | counter | R148 05 | 0 -/
  clipped : Nat
  /-- Bits since the last row end in which gain and offset adaptation paused | counter | R133 05 | 0 -/
  paused : Nat
  deriving DecidableEq, Repr

/-- Parameters that act from a DS separator on (R125, R150). -/
structure Bounds where
  /-- TRC_GAIN_BND | 5 | R125 05 | 0 -/
  gain : Nat
  /-- TRC_OFS_BND | 7 | R125 05 | 0 -/
  offset : Nat
  /-- TRC_ASY_BND | 6 | R125 05 | 0 -/
  asym : Nat
  /-- TRC_FIR_BND | 7 | R125 05 | 0 -/
  fir : Nat
  /-- TRC_FIR_MU | 5 | R120 05 | 0 -/
  mu : Nat
  /-- TRC_ADAPT | 4 | R125 05 | 0 -/
  adapt : Nat
  /-- Factor on the bounds of the read variant | 2 | R139 05 | 0 -/
  factor : Nat
  deriving DecidableEq, Repr

/-- Parameters that act from a row on (R150). -/
structure RowPar where
  /-- TRC_SYNC_MAXD, or 6 by the read variant | 3 | R127 05 | 0 -/
  sync : Nat
  /-- TRC_RSYNC_MAXD | 3 | R130 05 | 0 -/
  resync : Nat
  /-- TRC_SYNC_LOSS | 4 | R131 05 | 0 -/
  loss : Nat
  /-- TRC_DO_THR | 7 | R133 05 | 0 -/
  thr : Nat
  /-- TRC_DO_WIN | 7 | R133 05 | 0 -/
  win : Nat
  /-- TRC_TA_THR | 9 | R133 05 | 0 -/
  ta : Nat
  /-- TRC_DO_EXT | 4 | R135 05 | 0 -/
  ext : Nat
  /-- TRC_DO_ROWMAX | 10 | R135 05 | 0 -/
  rowMax : Nat
  deriving DecidableEq, Repr

/-- A data lane (R114 to R138). -/
structure Lane where
  /-- Signal chain | record | R117 05 | see its fields -/
  sig : Sig
  /-- Timing loop locked | 1 | R119 05 | false -/
  locked : Bool
  /-- Speed zone of the values loaded | 4 | R124 05 | none -/
  zone : Option Nat
  /-- Reload at the next separator: lost lock, or a zone or equaliser commit | 1 | R124, R131 05 | true -/
  reload : Bool
  /-- Adapted gain, offset and asymmetry codes in the entry format | 32 | R123 05 | 0 -/
  cur : Nat
  /-- Values loaded at the last load, in the entry format | 32 | R124 05 | 0 -/
  start : Nat
  /-- Adapted FIR taps in 1/128, with 8 fractional bits more | 11 of 18 | R120 05 | empty -/
  fir : List Int
  /-- FIR taps loaded at the last load, 1/128 | 11 of 10 | R124, R125 05 | empty -/
  fir0 : List Int
  /-- Detector target in use | 3 | R121 05 | 0 -/
  target : Nat
  /-- Bounds and adaptation parameters in force since the last separator | record | R125, R150 05 | see its fields -/
  bnd : Bounds
  /-- Parameters in force since the start of the row | record | R150 05 | see its fields -/
  par : RowPar
  /-- TRC_SEP_MIN of the search in progress, none before the first | 7 | R126, R150 05 | none -/
  sepMin : Option Nat
  /-- Detected channel bits, oldest first: since DS bit 480 while a DS is framed, else those of the search | bits | R126 05 | empty -/
  bits : List Bool
  /-- Number of the bit sampled that `bits` begins with | counter | R126 05 | 0 -/
  bitsAt : Nat
  /-- Number of the bit sampled with which the search, or the DS at its bit 480, began | counter | R119 05 | 0 -/
  mark : Nat
  /-- Read tag of the DS being framed, or of the last one | 32 | R137 05 | none -/
  tag : Option Nat
  /-- A separator has been found and its DS is being framed | 1 | R126 05 | false -/
  inDs : Bool
  /-- Slot whose sync window comes next, 8 after the last | 4 | R127 05 | 0 -/
  next : Nat
  /-- Latest confirmed slot with its sync position, relative to DS bit 600 | 16 | R129 05 | none -/
  confirmed : Option (Nat × Int)
  /-- Expected sync position of the open window | 16 | R129 05 | 600 -/
  expect : Int
  /-- Expected sync positions of the slots whose windows have closed, by slot | 8 of 17 | R129 05 | empty -/
  expects : List Int
  /-- Candidates kept in the slot's window: (offset, distance), best first | 2 | R127 05 | empty -/
  cands : List (Int × Nat)
  /-- Alignments of the open row that have been delivered | 2 | R137 05 | 0 -/
  framed : Nat
  /-- Erasure pointers of the open row | list | R135 05 | empty -/
  ptrs : List Pointer
  /-- Bits for which the timing loop has been unlocked | counter | R131 05 | 0 -/
  unlocked : Nat
  /-- Lock has been lost since the last separator | 1 | R131 05 | false -/
  lost : Bool
  /-- Woken late: no lock yet in the DS it joined | 1 | R116 05 | false -/
  late : Bool
  /-- Consecutive slots without a candidate | 4 | R131 05 | 0 -/
  missRun : Nat
  /-- Preamp fault of the module delivered as lane state | 1 | R138 05 | false -/
  fault : Bool
  /-- Calibration: rows with a value held at a bound, consecutive | 7 | R148 05 | 0 -/
  boundRun : Nat
  deriving DecidableEq, Repr

/-- A framed row alignment as delivered (R137). -/
structure RowPkt where
  /-- Two candidates were kept | 1 | R137 05 | - -/
  two : Bool
  /-- Read tag | 32 | R137 05 | - -/
  tag : Nat
  /-- The 972 row bytes, still scrambled; empty for a row delivered as erased | bytes | R137 05 | - -/
  bytes : Bytes
  /-- Sync offset from expected | 6 | R137 05 | - -/
  offset : Int
  /-- Sync distance | 3 | R137 05 | - -/
  dist : Nat
  /-- Resync: 0 expected, 1 displaced, 2 missed | 2 | R137 05 | - -/
  resync : Nat
  /-- Resync offset | 5 | R137 05 | - -/
  rsOff : Int
  /-- Speed zone | 4 | R137 05 | - -/
  zone : Nat
  /-- Retired lane | 1 | R137 05 | - -/
  retired : Bool
  /-- Whole row erased | 1 | R137 05 | - -/
  erased : Bool
  /-- Read variant | 4 | R139 05 | - -/
  variant : Nat
  /-- Sync time, ns | 32 | R137 05 | - -/
  time : Nat
  deriving DecidableEq, Repr

/-- A decoded row of the capture in progress (R151 to R154). -/
structure Row where
  /-- Sequence field | 24 | R46 02 | - -/
  seqField : Nat
  /-- Format code | 7 | R47 02 | - -/
  fmt : Nat
  /-- SDS | 5 | R46 02 | - -/
  sds : Nat
  /-- Row | 7 | R46 02 | - -/
  row : Nat
  /-- The 896 row information bytes, none for each byte of a failed codeword | bytes | R154 06 | - -/
  info : List (Option Byte)
  deriving DecidableEq, Repr

/-- Decoded columns of one DS: value and number of errors C2 found, keyed 896·s + v; a column holds its 112 symbols. -/
structure Column where
  /-- Symbols of rows 0 to 111 | 112 bytes | R155 06 | - -/
  syms : Bytes
  /-- Errors C2 corrected | 4 | R155 06 | - -/
  errs : Nat
  /-- Restored by C3 | 1 | R158 06 | - -/
  byC3 : Bool
  /-- Captures disagreed | 1 | R157 06 | - -/
  clash : Bool
  deriving DecidableEq, Repr

/-- A DS being decoded (R157 to R166). -/
structure Decode where
  /-- Columns decoded so far by 896·s + v | 28,672 | R155 06 | empty -/
  cols : NMap Column
  /-- A capture of it was identified | 1 | R152 06 | false -/
  seen : Bool
  /-- Captures merged | counter | R157 06 | 0 -/
  captures : Nat
  /-- Completed but the tag failed at least once | 1 | R160 06 | false -/
  tagFail : Bool
  /-- C3 restored part of it | 1 | R158 06 | false -/
  usedC3 : Bool
  /-- Its first capture completed it | 1 | R167 06 | false -/
  alone : Bool
  /-- Wrap of its captures | 6 | R157 06 | 0 -/
  wrap : Nat
  /-- Position of its first capture | 20 | R157 06 | 0 -/
  pos : Nat
  /-- Group size its format code names, 0 but for a parity DS | 5 | R157 06 | 0 -/
  m : Nat
  /-- It ended as an index inconsistency and is not retried | 1 | R160 06 | false -/
  gone : Bool
  deriving DecidableEq, Repr

/-- A retry ladder (R165, R166). -/
structure Ladder where
  /-- Re-read passes made | 4 | R165 06 | 0 -/
  passes : Nat
  /-- TRC_RETRY_MAX latched | 4 | R171 06 | - -/
  max : Nat
  /-- The first pass has been made | 1 | R165 06 | false -/
  first : Bool
  /-- TRC_RETRY_TIME has elapsed | 1 | R165 06 | false -/
  expired : Bool
  /-- A pass is running | 1 | R165 06 | false -/
  inPass : Bool
  /-- Ends after the first pass: every waiting read has Limited Retry | 1 | R345 12 | false -/
  limited : Bool
  deriving DecidableEq, Repr

/-- Calibration sums of one lane and zone (R146). -/
structure CalSum where
  /-- Reference rows | 16 | R146 05 | 0 -/
  n : Nat
  /-- Sum of gain codes | int | R146 05 | 0 -/
  gain : Int
  /-- Sum of offset codes | int | R146 05 | 0 -/
  offset : Int
  /-- Sum of asymmetry codes | int | R146 05 | 0 -/
  asym : Int
  /-- TRC_CAL_MIN as latched when the sums were last cleared | 16 | R150 05 | 0 -/
  need : Nat
  deriving DecidableEq, Repr

/-- A servo lane (R140 to R145). -/
structure Servo where
  /-- Boundary index | 5 | R143 05 | 0 -/
  k : Nat
  /-- A + B of its last valid frames, newest first | 256 of 17 | R143 05 | empty -/
  amps : List Nat
  /-- Newest error from the target, nm | 16 | R144 05 | none -/
  err : Option Int
  /-- Time of the newest valid frame, ns | 32 | R144 05 | 0 -/
  time : Nat
  /-- TPN decoded | 20 | R145 05 | none -/
  tpn : Option Nat
  /-- Frame index within the word | 7 | R145 05 | 0 -/
  frame : Nat
  /-- Consecutive CRC failures | 2 | R145 05 | 0 -/
  crcRun : Nat
  /-- Consecutive frames excluded as outlier | 9 | R149 05 | 0 -/
  outRun : Nat
  /-- Mean amplitude at the last tension-up, times 256 | 32 | R149 05 | 0 -/
  ref : Nat
  deriving DecidableEq, Repr

/-- A record on its way from a decoded DS to a reader (R161, R226, R247). -/
structure ReadRec where
  /-- The 64 header bytes as recorded | bytes | R33 02 | - -/
  header : Bytes
  /-- Decrypted body bytes | bytes | R161 06 | - -/
  body : Bytes
  /-- DS sequence number of its header | 32 | R168 06 | - -/
  ds : Nat
  /-- Wrap it came from, 0x3F for the Carousel | 6 | R168 06 | - -/
  wrap : Nat
  /-- Decompression engine | 3 | R226 09 | - -/
  engine : Nat
  /-- DS of it whose tag has verified, of those it spans | counter | R161 06 | 1 -/
  parts : Nat
  /-- DS it spans | counter | R161 06 | 1 -/
  span : Nat
  /-- Decompressed output in the hold area, none before decoding and after a structural error | bytes | R161 06 | none -/
  out : Option Bytes
  /-- Decoding has run | 1 | R247 09 | false -/
  decoded : Bool
  deriving DecidableEq, Repr

/-- The pass of the tape that the decoder captures (R159, R165, R170, R217). -/
structure Pass where
  /-- 0 playback, 1 re-read, 2 index read, 3 calibrate | 2 | R165 06 | - -/
  kind : Nat
  /-- First sequence number of the group it reads | 32 | R159 06 | - -/
  group : Nat
  /-- Last position it captures | 20 | R163 06 | - -/
  last : Nat
  /-- The leading edge of its first position has passed: its own speed target holds | 1 | R208 08 | false -/
  running : Bool
  deriving DecidableEq, Repr

/-- Read channel, servo lanes and decoder. -/
structure ReadCh where
  /-- Data lanes by number | 512 | R114 05 | empty -/
  lanes : NMap Lane
  /-- Engine groups awake | 16 | R116 05 | empty -/
  awake : List Nat
  /-- Row packets waiting for the row decoder by (8·lane + slot)·2 + candidate | FIFOs 36 to 51 | R137 05 | empty -/
  rows : NMap RowPkt
  /-- Erasure pointers waiting | FIFO 79 | R136 05 | empty -/
  ptrs : List Pointer
  /-- Accepted rows of the capture in progress by 128·s + row | 4,096 | R151 06 | empty -/
  cap : NMap Row
  /-- Rows of the capture in progress delivered with a failed header, by 8·lane + slot: the candidate chosen | 1 each | R128, R132 05 | empty -/
  failedHdr : NMap Nat
  /-- Read variant of the pass | 4 | R139 05 | 0 -/
  variant : Nat
  /-- Wrap being read | 6 | R151 06 | 0 -/
  wrap : Nat
  /-- Position being captured | 20 | R151 06 | 0 -/
  pos : Nat
  /-- Servo lanes by number | 32 | R114 05 | empty -/
  servo : NMap Servo
  /-- Lateral sample: error nm | 16 | R144 05 | 0 -/
  lateral : Int
  /-- Lateral sample valid | 1 | R144 05 | false -/
  lateralOk : Bool
  /-- Time of the newest frame used, ns | 32 | R144 05 | 0 -/
  lateralTime : Nat
  /-- TRC_POS, 0.1 mm | 24 | R145 05 | 0 -/
  pos10 : Nat
  /-- Measured speed, µm/s, signed with the direction | 32 | R145 05 | 0 -/
  speed : Int
  /-- Measured speed valid | 1 | R145 05 | false -/
  speedOk : Bool
  /-- Calibration sums by 512·z + lane | 8,192 | R146 05 | empty -/
  cal : NMap CalSum
  /-- Sums of FIR taps and corrected symbols of calibrate by target and zone: 256·z + 16·target + item | int | R147 05 | empty -/
  calFir : NMap Int
  /-- Entries changed since the calibration record was written | 1 | R146 05 | false -/
  calDirty : Bool
  /-- DS being decoded by 4·seq + kind: 0 data, 1 index, 2 and 3 parity | records | R157 06 | empty -/
  dec : NMap Decode
  /-- Group size by first sequence number, from the parity format codes | 5 | R158 06 | empty -/
  decM : NMap Nat
  /-- Ladders by sequence number | records | R166 06 | empty -/
  ladders : NMap Ladder
  /-- Authenticated DS held: payload and table by sequence number | 3,211,264 bytes | R159 06 | empty -/
  auth : NMap Bytes
  /-- Final class of DS that ended failed, by sequence number | 8 | R167 06 | empty -/
  classes : NMap Nat
  /-- Records being decompressed or held | hold area | R161 06 | empty -/
  recs : List ReadRec
  /-- Released plaintext by LBA, for the reads that wait | bytes | R161 06 | empty -/
  plain : NMap Bytes
  /-- Wrap each DS was read from, 0x3F for the Carousel, and the re-read passes made for it, by sequence number | 6 + 4 | R168 06 | empty -/
  origin : NMap (Nat × Nat)
  /-- Failed LBAs: class, passes, DS, wrap | list | R168 06 | empty -/
  failed : NMap (Nat × Nat × Nat × Nat)
  /-- Index DS collected from an index wrap by 4096·wrap + number: every complete decode that differs, in the order found | list of bytes | R69 02 | empty -/
  idx : NMap (List Bytes)
  /-- Record directories of the data DS known since BOOT, by sequence number | 2,040 entries each | R39 02 | empty -/
  dirs : NMap (List DirEntry)
  /-- Pass under way, none while nothing is captured | record | R165 06 | none -/
  pass : Option Pass
  /-- Groups read ahead of the last one that a read asked for | 7 | R169 06 | 0 -/
  ahead : Nat
  /-- Group of the highest DS that a read has asked for in this playback | 32 | R169 06 | 0 -/
  top : Nat
  /-- Position from which the run in progress has captured every position | 20 | R169 06 | 0 -/
  runAt : Nat
  /-- Groups collected since before their copy window in this run | list | R169 06 | empty -/
  took : List Nat
  /-- Preamp mode register last written, by module | 8 | R498 20 | empty -/
  preamp : NMap Nat
  /-- Modules with HMC_FLT asserted | 16 | R138 05 | empty -/
  hmcFlt : List Nat
  /-- Modules whose control link failed three times | 16 | R497 20 | empty -/
  hmcBad : List Nat
  deriving DecidableEq, Repr

/-! ### Control engine -/

/-- A loop slot (R172 to R195). -/
structure Slot where
  /-- State | 2 | R191 07 | off -/
  st : SlotSt
  /-- Last cause | 4 | R199 07 | 0 -/
  cause : Nat
  /-- Running on the model estimate | 1 | R194 07 | false -/
  subst : Bool
  /-- Section states (s1, s2) of the cascade, 12 fractional bits | 40 each | R177 07 | empty -/
  sec : List (Int × Int)
  /-- Section outputs, 12 fractional bits | 40 each | R196 07 | empty -/
  secOut : List Int
  /-- Set-point latched, 12 fractional bits | 40 | R175 07 | 0 -/
  sp : Int
  /-- Feedback latched, 12 fractional bits | 40 | R175 07 | 0 -/
  fb : Int
  /-- Error, 12 fractional bits | 40 | R178 07 | 0 -/
  err : Int
  /-- Model estimate, 12 fractional bits | 40 | R193 07 | 0 -/
  est : Int
  /-- Output in the destination unit | 32 | R178 07 | 0 -/
  out : Int
  /-- Region | 4 | R183 07 | 0 -/
  region : Nat
  /-- Feedback sample valid | 1 | R192 07 | false -/
  valid : Bool
  /-- Validity of the last 16 feedback periods, newest first | 16 | R191 07 | empty -/
  hist : List Bool
  /-- Loss count | 2 | R193 07 | 0 -/
  loss : Nat
  /-- Freeze count | 5 | R193 07 | 0 -/
  freeze : Nat
  /-- Residual count | 8 | R193 07 | 0 -/
  resid : Nat
  /-- Feedback value and stamp of the last period, for the freeze test | 72 | R193 07 | (0, 0) -/
  seen : Int × Nat
  /-- Set-points of the last 16 feedback periods, newest first, for the excitation test | 16 × 40 | R192 07 | empty -/
  sps : List Int
  /-- L4: last valid error and the actuator position then, 12 fractional bits | 2 × 40 | R193 07 | (0, 0) -/
  base : Int × Int
  /-- L4 closed | 1 | R186 07 | false -/
  closed : Bool
  /-- The tests of this feedback period have been made at the sample instant | 1 | R175 07 | false -/
  tested : Bool
  /-- CTL_REARM has been written: the request acts at the next sample instant | 1 | R200 07 | false -/
  rearm : Bool
  deriving DecidableEq, Repr

/-- A slot that is OFF. -/
def Slot.zero : Slot :=
  { st := .off, cause := 0, subst := false, sec := [], secOut := [], sp := 0, fb := 0, err := 0, est := 0, out := 0, region := 0,
    valid := false, hist := [], loss := 0, freeze := 0, resid := 0, seen := (0, 0), sps := [], base := (0, 0), closed := false,
    tested := false, rearm := false }

/-- An encoder input of a reel (R181, R501). -/
structure Encoder where
  /-- Levels of A, B and I | 3 | R181 07 | false -/
  a : Bool
  /-- Level of B | 1 | R181 07 | false -/
  b : Bool
  /-- Level of I | 1 | R181 07 | false -/
  i : Bool
  /-- Quadrature count | 64 | R181 07 | 0 -/
  count : Int
  /-- Count at the last index, none before the first since BOOT or since an invalid sample | 64 | R185 07 | none -/
  index : Option Int
  /-- Count at the previous index seen | 64 | R181 07 | none -/
  lastIndex : Option Int
  /-- Edges in the last 8 L0 periods: (engine cycle, count), newest first | list | R181 07 | empty -/
  edges : List (Nat × Int)
  /-- Engine cycle of the encoder's clock | counter | R181 07 | 0 -/
  cycle : Nat
  /-- L0 periods that have begun since the last edge, at most 9 | 4 | R181 07 | 0 -/
  idle : Nat
  /-- An invalid sample since the last feedback period, with its cause | 2 | R181 07 | 0 -/
  invalid : Nat
  /-- Real-time clock, 1/32,768 s, at which its last invalid sample was reported | 64 | R199 07 | none -/
  evtAt : Option Nat
  deriving DecidableEq, Repr

/-- A transport link (R499, R500). -/
structure Link where
  /-- Enabled | 1 | R499 20 | false -/
  on : Bool
  /-- Sample frame sequence | 4 | R500 20 | 0 -/
  seq : Nat
  /-- A sample frame is unanswered | 1 | R500 20 | false -/
  asked : Bool
  /-- Value A of the last valid status frame | 24 | R499 20 | 0 -/
  a : Int
  /-- Value B of the last valid status frame | 24 | R499 20 | 0 -/
  b : Int
  /-- Flags of the last valid status frame | 8 | R499 20 | 0 -/
  flags : Nat
  /-- The sample of this period is valid | 1 | R192 07 | false -/
  fresh : Bool
  /-- Command value last sent | 24 | R499 20 | 0 -/
  cmd : Int
  /-- Mode bits last sent: enable, regeneration, short-circuit braking | 3 | R499 20 | 0 -/
  mode : Nat
  /-- Fault line asserted | 1 | R193 07 | false -/
  fault : Bool
  /-- Real-time clock, 1/32,768 s, at which its last failure event was raised | 64 | R199 07 | none -/
  evtAt : Option Nat
  deriving DecidableEq, Repr

/-- A link that is disabled. -/
def Link.zero : Link :=
  { on := false, seq := 0, asked := false, a := 0, b := 0, flags := 0, fresh := false, cmd := 0, mode := 0, fault := false, evtAt := none }

/-- The trace (R196 to R198, R357). -/
structure Trace where
  /-- 0 idle, 1 recording, 2 frozen | 2 | R200 07 | 0 -/
  st : Nat
  /-- Samples, newest first, eight words each | 32,768 × 8 × 64 | R198 07 | empty -/
  samples : List (List Nat)
  /-- Samples still to be taken after the trigger | 16 | R197 07 | none -/
  left : Option Nat
  /-- Trigger source bit | 3 | R357 12 | 0 -/
  trig : Nat
  /-- Trigger sample index | 16 | R357 12 | 0 -/
  trigAt : Nat
  /-- Samples taken since arming | counter | R198 07 | 0 -/
  index : Nat
  /-- CTL_TRC_PRE, DIV, TRIG and LEVEL at arming | words | R200 07 | empty -/
  pre : Nat
  /-- CTL_TRC_DIV at arming | 9 | R357 12 | 8 -/
  div : Nat
  /-- CTL_TRC_TRIG at arming | 5 | R197 07 | 1 -/
  mask : Nat
  /-- CTL_TRC_LEVEL at arming | 32 | R197 07 | 0 -/
  level : Int
  /-- CTL_TRC_SEL at arming | 8 × 8 | R357 12 | empty -/
  sel : List Nat
  /-- Freezes since BOOT | 32 | R357 12 | 0 -/
  freezes : Nat
  /-- Freeze time | 64 | R357 12 | 0 -/
  time : Nat
  /-- A trigger condition has occurred since the last sample: source bits | 5 | R197 07 | 0 -/
  pending : Nat
  deriving DecidableEq, Repr

/-- Where a locate goes (R211). -/
inductive Target where
  | position (wrap pos : Nat)
  | tpn (wrap : Option Nat) (n : Nat)
  | index (wrap : Nat)
  deriving DecidableEq, Repr

/-- Tape activities, in the order of their triggers (R202). -/
inductive Task where
  | tensionOn (cmd : Option Nat)
  | tensionOff (cmd : Option Nat)
  | park (cmd : Option Nat) (eject : Bool)
  | locate (cmd : Option Nat) (t : Target)
  | shuttle (cmd : Option Nat)
  | calibrate (cmd : Option Nat)
  | unload (cmd : Option Nat)
  | load (cmd : Option Nat)
  | tailScan
  | record
  | read (seq : Nat)
  deriving DecidableEq, Repr

/-- What follows when the tape comes to rest (R24, R213, R215). -/
inductive AfterStop where
  | hold | release | park | supervisor | lid | emergency | drain
  deriving DecidableEq, Repr

/-- A release of tension under way (R201, R215): the currents of L0 and L1 ramp to zero. -/
structure Ramp where
  /-- Magazine state once BRAKED | 4 | R24 01 | - -/
  goal : MagState
  /-- Super-frames left of the 100 | 7 | R215 08 | 100 -/
  left : Nat
  /-- Currents of MDRV links 0 and 1 at its start, mA | 2 × 24 | R215 08 | - -/
  amps : Int × Int
  deriving DecidableEq, Repr

/-- Control engine and transport. -/
structure Ctl where
  /-- Loop slots L0 to L7 | 8 | R172 07 | off -/
  slots : NMap Slot
  /-- Limiter velocity v_lim, 1/25,000,000 mm/s | int | R188 07 | 0 -/
  vlim : Int
  /-- Limiter acceleration a_lim, 1/5,000 mm/s² | int | R188 07 | 0 -/
  alim : Int
  /-- Target presented, mm/s | 32 | R188 07 | 0 -/
  target : Int
  /-- Fast stop limits in force | 1 | R203 08 | false -/
  fast : Bool
  /-- A reversal is stopping at zero, or its dwell runs | 1 | R189 07 | false -/
  reversing : Bool
  /-- Dwell running | 1 | R189 07 | false -/
  dwell : Bool
  /-- Direction of the last move: -1, 0, 1 | 2 | R203 08 | 0 -/
  lastDir : Int
  /-- The last super-frame met the hit condition | 1 | R189 07 | false -/
  hit : Bool
  /-- Encoders of the supply and take-up reels | 2 | R181 07 | zero -/
  enc : NMap Encoder
  /-- Radius estimates, µm: (supply, take-up) | 16 each | R182 07 | (0, 0) -/
  radius : Nat × Nat
  /-- Radii are stored for this cartridge | 1 | R182 07 | false -/
  radiusOk : Bool
  /-- Radius estimates of the last 64 super-frames, newest first, none for a reel that showed no motion | list | R182 07 | empty -/
  radHist : List (Option Nat × Option Nat)
  /-- Links: 0 MDRV0, 1 MDRV1, 2 TNS_, 3 VCM_ | 4 | R499 20 | disabled -/
  links : NMap Link
  /-- Supervisor stop under way | 1 | R195 07 | false -/
  supStop : Bool
  /-- Trace | record | R196 07 | idle -/
  trace : Trace
  /-- Transport sub-state | 4 | R201 08 | braked -/
  tsub : TSub
  /-- Activities waiting or running, the first one current | list | R202 08 | empty -/
  tasks : List Task
  /-- Stage of the first activity: 0 not begun, 1 on its way to where it works, 2 and above as each sequence counts | name | R202 08 | 0 -/
  stage : Nat
  /-- What follows the stop in progress | name | R213 08 | none -/
  after : Option AfterStop
  /-- Chip tick at which the tape last moved | counter | R191 07 | 0 -/
  movedAt : Nat
  /-- The radius probe has turned round once | 1 | R206 08 | false -/
  probed : Bool
  /-- Direction of the sequence in progress | 2 | R207 08 | 1 -/
  dir : Int
  /-- Position held: confirmed position TRC_POS and encoder counts | 24 + 2 × 64 | R205 08 | none -/
  held : Option (Nat × Int × Int)
  /-- Last TPN stored | 20 | R207 08 | 0 -/
  lastTpn : Nat
  /-- Wrap the L4 boundary target selects | 6 | R210 08 | 0 -/
  wrapSel : Nat
  /-- Transport rails good since BOOT | 1 | R408 15 | false -/
  railsUp : Bool
  /-- BRK_N asserted (brake engaged) | 1 | R213 08 | true -/
  brake : Bool
  /-- MDRV_SCB_N asserted: by its pull-down while the rails are off | 1 | R494, R500 20 | true -/
  scb : Bool
  /-- Shuttle sequence active | 1 | R190 07 | false -/
  shuttle : Bool
  /-- Shuttle code after the filter | 12 | R418 15 | 2,048 -/
  shCode : Nat
  /-- Raw shuttle samples, newest first | 8 of 12 | R418 15 | empty -/
  shRaw : List Nat
  /-- Shuttle input fault | 1 | R418 15 | false -/
  shFault : Bool
  /-- Calibrate: zones not measured | 16 | R219 08 | 0 -/
  unmeasured : Nat
  /-- Calibrate: zone and target of the pass | 8 | R217 08 | (0, 0) -/
  calPass : Nat × Nat
  /-- Recording start or locate: the position aimed at | name | R208 08 | none -/
  aim : Option Target
  /-- Write current on: a copy is being recorded | 1 | R496 20 | false -/
  writing : Bool
  /-- A turnaround is under way: the tape runs to the wrap stop point, then back on the new wrap | 1 | R210 08 | false -/
  turn : Bool
  /-- Wrap towards which the L4 boundary target steps | 6 | R211 08 | 0 -/
  wrapGoal : Nat
  /-- Super-frames since its last step | 3 | R211 08 | 0 -/
  wrapTick : Nat
  /-- Super-frames since v_lim reached 0, at most 100 | 7 | R203 08 | 100 -/
  stillFor : Nat
  /-- The head activity has begun with a tension-up or find position | 1 | R202 08 | false -/
  begun : Bool
  /-- Release of tension under way | record | R201, R215 08 | none -/
  rel : Option Ramp
  /-- Super-frames since L0 and L1 were armed, in TENSIONING | 8 | R205 08 | 0 -/
  tensFor : Nat
  /-- Set-point of L5 in a field sweep, nm | 17 | R207 08 | none -/
  sweep : Option Int
  /-- The sweep of this find position is over: the boundary index is fixed | 1 | R207 08 | false -/
  swept : Bool
  /-- Real-time clock, 1/32,768 s, at the start of the emergency stop | 64 | R213 08 | none -/
  emAt : Option Nat
  /-- Shuttle target of the newest code, 1/25,000,000 mm/s | int | R190 07 | 0 -/
  shTarget : Int
  /-- CTL_IDLE_TENS at the last entry to HELD, ms | 20 | R222 08 | 0 -/
  idleTens : Nat
  /-- CTL_IDLE_PB at the last tape read, ms | 20 | R222 08 | 0 -/
  idlePb : Nat
  /-- The first TPN of the radius probe in this direction has been tested | 1 | R206 08 | false -/
  probeTpn : Bool
  /-- Write clock, mHz: 66,667 bits per mm times the measured speed at the last update | 40 | R16 01 | 0 -/
  wclk : Nat
  deriving DecidableEq, Repr

/-! ### Cipher and keys -/

/-- A key slot (R255). -/
structure KeySlot where
  /-- Key, 64 bytes for an XTS slot, 32 for a MAC slot | 512 or 256 | R255 10 | - -/
  key : Bytes
  /-- Key identifier shown by CPH_SLOT_STAT | 16 | R284 10 | 0 -/
  id : Nat
  /-- Last use, for replacement | counter | R257 10 | 0 -/
  used : Nat
  deriving DecidableEq, Repr

/-- A wrapped cartridge MAC key of the index journal (R262). -/
structure MacKey where
  /-- Instance number of the generating magazine | 32 | R262 10 | - -/
  inst : Nat
  /-- Wrap of the entry under the master key | 48 bytes | R262 10 | - -/
  wrapped : Bytes
  deriving DecidableEq, Repr

/-- A wrapped media key of the index journal (R262). -/
structure MediaKey where
  /-- Take | 32 | R262 10 | - -/
  take : Nat
  /-- Wrap of the entry under the master key | 80 bytes | R262 10 | - -/
  wrapped : Bytes
  deriving DecidableEq, Repr

/-- The key record (R260), fields as stored. -/
structure KeyRec where
  /-- Magazine instance number | 32 | R260 10 | - -/
  inst : Nat
  /-- Master key generation | 32 | R260 10 | - -/
  gen : Nat
  /-- Current master key, wrapped | 48 bytes | R260 10 | - -/
  cur : Bytes
  /-- Previous master key, wrapped; zero when no rotation is in progress | 48 bytes | R260 10 | - -/
  prev : Bytes
  /-- Owner key, wrapped; zero while unclaimed | 40 bytes | R260 10 | - -/
  owner : Bytes
  /-- Escrow label and key, wrapped; zero when none | 48 bytes | R260 10 | - -/
  escrow : Bytes
  /-- IV ceiling | 64 | R254 10 | - -/
  ceiling : Nat
  /-- Consecutive authentication failures | 16 | R268 10 | - -/
  fails : Nat
  /-- Lockout length, s | 32 | R268 10 | - -/
  lockLen : Nat
  /-- Record sequence | 32 | R260 10 | - -/
  seq : Nat
  deriving DecidableEq, Repr

/-- A service pool message (R276 to R280). -/
structure PoolMsg where
  /-- Requester | 16 | R278 10 | - -/
  req : Nat
  /-- Word 0 | 64 | R277 10 | - -/
  w0 : Nat
  /-- Word 1: source address | 64 | R277 10 | - -/
  w1 : Nat
  /-- Word 2: destination address or target slot | 64 | R277 10 | - -/
  w2 : Nat
  /-- Word 3 | 64 | R277 10 | - -/
  w3 : Nat
  /-- Source data, with IV and tag of a verify operation behind it | bytes | R276 10 | - -/
  data : Bytes
  deriving DecidableEq, Repr

/-- A service pool result (R277), with the bytes written at the destination. -/
structure PoolRes where
  /-- Status | 8 | R277 10 | - -/
  status : Nat
  /-- Requester | 16 | R277 10 | - -/
  req : Nat
  /-- Bytes processed | 32 | R277 10 | - -/
  done : Nat
  /-- IV | 12 bytes | R277 10 | - -/
  iv : Bytes
  /-- Destination address | 64 | R277 10 | - -/
  dst : Nat
  /-- Bytes written there | bytes | R276 10 | - -/
  out : Bytes
  deriving DecidableEq, Repr

/-- A master key rotation under way (R271 to R273). -/
structure Rotation where
  /-- The command that asked for it, none at BOOT | counter | R272 10 | - -/
  seq : Option Nat
  /-- Step under way, 1 to 3 | 2 | R271 10 | 1 -/
  step : Nat
  /-- The take whose key does not survive, none for a Format or a rotation completed at BOOT | 32 | R272 10 | - -/
  take : Option Nat
  /-- A Format: no media key and no MAC key survives | 1 | R273 10 | - -/
  format : Bool
  /-- A new escrow key with its label, still wrapped as the record stores it | 48 bytes | R272 10 | none -/
  escrow : Option Bytes
  deriving DecidableEq, Repr

/-- Cipher, keys and owner access. -/
structure Keys where
  /-- Key slots 0 to 287 | 256 × 512 + 32 × 256 | R255 10 | empty -/
  slots : NMap KeySlot
  /-- Use counter of slot replacement | counter | R257 10 | 0 -/
  clock : Nat
  /-- The key record in force, as the device holds it | record | R260 10 | none -/
  krec : Option KeyRec
  /-- IV counter | 64 | R254 10 | 0 -/
  iv : Nat
  /-- Ceiling persisted in both copies, none before the first write has verified | 64 | R254 10 | none -/
  ceiling : Option Nat
  /-- A ceiling write is under way | 64 | R254 10 | none -/
  ceilingBusy : Option Nat
  /-- The last ceiling write failed in both copies | 1 | R254 10 | false -/
  ivDead : Bool
  /-- The held count or lockout could not be written | 1 | R511 10 | false -/
  recDirty : Bool
  /-- Session open | 1 | R265 10 | false -/
  session : Bool
  /-- Open challenge: its device nonce | 256 | R266 10 | none -/
  challenge : Option Bytes
  /-- Challenges issued | 32 | R266 10 | 0 -/
  challenges : Nat
  /-- Challenge number and device proof of the last success since BOOT | 160 | R266 10 | (0, zero) -/
  proof : Nat × Bytes
  /-- Lockout remaining, Chervil ticks | 48 | R268 10 | 0 -/
  lockout : Nat
  /-- TRNG healthy | 1 | R281 10 | true -/
  trngOk : Bool
  /-- TRNG failure spells since BOOT | 8 | R281 10 | 0 -/
  spells : Nat
  /-- CPH_LOCK owner, 0 when free | 16 | R278 10 | 0 -/
  lock : Nat
  /-- Release requested while a message runs | 1 | R278 10 | false -/
  lockRelease : Bool
  /-- Message running | record | R277 10 | none -/
  msg : Option PoolMsg
  /-- Message suspended by urgent requests | record | R279 10 | none -/
  suspended : Option PoolMsg
  /-- Urgent requests queued behind the running one | list | R279 10 | empty -/
  urgent : List PoolMsg
  /-- Normal requests waiting behind the running message, oldest first | list | R277 10 | empty -/
  queue : List PoolMsg
  /-- The previous request's message with its data so far and its IV, for a continuation | bytes | R277 10 | none -/
  partMsg : Option (PoolMsg × Bytes)
  /-- Results delivered in FIFO 75, newest first | list | R277 10 | empty -/
  results : List PoolRes
  /-- MAC keys of the mounted cartridge by identifier | 12 | R261 10 | empty -/
  macs : NMap MacKey
  /-- MAC key identifier this magazine records with | 16 | R261 10 | none -/
  macCur : Option Nat
  /-- Media keys of the mounted cartridge by identifier | 65,535 | R261 10 | empty -/
  medias : NMap MediaKey
  /-- Media key identifiers issued | 16 | R261 10 | 0 -/
  mediaNext : Nat
  /-- Master key rotation under way | record | R271 10 | none -/
  rot : Option Rotation
  deriving DecidableEq, Repr

/-! ### Carousel -/

/-- Unit kinds of the page tag (R290 table). -/
inductive UKind where
  | image | flush | large | fine | indexJ | mapJ | checkpoint
  deriving DecidableEq, Repr

/-- A unit (R291, R301). -/
structure CUnit where
  /-- Kind | 8 | page tags 11 | - -/
  kind : UKind
  /-- Logical address of the tag | 64 | page tags 11 | - -/
  laddr : Nat
  /-- Die | 9 | R285 11 | - -/
  die : Nat
  /-- Die block | 32 | R287 11 | - -/
  block : Nat
  /-- First page | 16 | R291 11 | - -/
  page : Nat
  /-- Program sequence | 64 | R428 16 | - -/
  seq : Nat
  /-- Boot count, real-time clock second and erase count of its die block when it was programmed | 3 × 32 | page tags 11 | - -/
  stamp : Nat × Nat × Nat
  /-- Page statuses still outstanding | 7 | R301 11 | - -/
  left : Nat
  /-- Content, from the buffer copy | 1 MiB or 16 KiB | R291 11 | - -/
  data : Bytes
  /-- Every page has passed | 1 | R301 11 | false -/
  persisted : Bool
  /-- Its map record has persisted | 1 | R302 11 | false -/
  journalled : Bool
  /-- Mapped | 1 | R303 11 | true -/
  mapped : Bool
  /-- What it holds: first LBA, count and application number | list | R291, R296 11 | - -/
  lbas : List Nat
  /-- Sectors found uncorrectable after the ladder: 8·page + sector | list | R310 11 | empty -/
  bad : List Nat
  deriving DecidableEq, Repr

/-- A die block (R287, R308). -/
structure Block where
  /-- Erase count | 32 | R308 11 | 0 -/
  erases : Nat
  /-- 0 free, 1 open, 2 in use, 3 retired, 4 spare | 3 | R305, R306 11 | 0 -/
  use : Nat
  /-- Space it holds: kind code of its units | 8 | R305 11 | 0 -/
  space : Nat
  /-- Next page to program | 16 | R305 11 | 0 -/
  next : Nat
  /-- Age clock at its first program | 64 | R308 11 | 0 -/
  age : Nat
  /-- Magazine temperature then, tenths of a degree | 16 | R308 11 | 0 -/
  temp : Int
  /-- Real-time clock then | 64 | R308 11 | 0 -/
  rtc : Nat
  deriving DecidableEq, Repr

/-- A die (R285, R306). -/
structure Die where
  /-- Retired | 1 | R306 11 | false -/
  retired : Bool
  /-- Consecutive failed operations | 7 | R306 11 | 0 -/
  fails : Nat
  /-- Read-threshold offset of the last page read | 8 signed | R309 11 | 0 -/
  offset : Int
  /-- Retired blocks | 16 | R322 11 | 0 -/
  retiredBlocks : Nat
  deriving DecidableEq, Repr

/-- A fine-unit map entry (R295). -/
structure Fine where
  /-- Unit, none when empty; entry j stands for page j of it when it is a large unit | number | R293 11 | none -/
  unit : Option Nat
  /-- The entry points into a large unit | 1 | R293 11 | false -/
  inLarge : Bool
  /-- Zero mask | 4 | R295 11 | 0 -/
  zero : Nat
  /-- Unreadable mask | 4 | R295 11 | 0 -/
  unread : Nat
  deriving DecidableEq, Repr

/-- A sidecar extent (R293). -/
inductive Ext where
  | large (unit : Nat)
  | fine (m : NMap Fine) (lastTouch : Nat)
  deriving DecidableEq, Repr

/-- A retained event journal entry (R470). -/
structure JEntry where
  /-- Sequence number | 64 | R470 18 | - -/
  seq : Nat
  /-- Real-time clock seconds, low 32 bits | 32 | R470 18 | - -/
  rtc : Nat
  /-- Event | 11 | R467 18 | - -/
  evt : Nat
  /-- Host notice | 1 | R470 18 | - -/
  notice : Bool
  /-- Cause | 8 | R470 18 | - -/
  cause : Nat
  /-- Magazine state index | 8 | R470 18 | - -/
  st : Nat
  /-- Milliseconds since BOOT | 32 | R470 18 | - -/
  ms : Nat
  /-- Data bytes 0 to 11 | 12 bytes | R467 18 | - -/
  data : Bytes
  deriving DecidableEq, Repr

/-- What one journal record says (R92, R298, R300, R470). -/
inductive JRec where
  | unit (id : Nat)
  | release (id : Nat)
  | extent (e : Nat) (v : Option Ext)
  | block (die block : Nat) (b : Block)
  | die (d : Nat) (v : Die)
  | tail (n : Nat)
  | image (seq : Nat) (v : Option DsImage)
  | zone (z : Nat) (v : Option Zone)
  | take (t : Nat) (v : Take)
  | counters (lastTake : Nat) (current : Option Nat) (nextSeq stream mediaNext initCount cartridge nz : Nat)
  /-- Sequence number of the data DS behind an image, and the stream offset of its payload (R33, R38). -/
  | next (seq stream : Nat)
  | mac (id : Nat) (v : Option MacKey) (cur : Bool)
  | media (id : Nat) (v : Option MediaKey)
  | loc (l : Loc)
  | append (wrap pos : Nat)
  | commit (group m : Nat)
  | group (first m : Nat)
  | floor (z n : Nat)
  | gen (newest last : Option (Nat × Nat)) (due : Bool) (since : Nat)
  | sectors (ctx take next : Nat)
  | event (e : JEntry)
  | wear (spares : Nat) (readOnly : Bool)
  | sealRec (age rtc credit : Nat)
  /-- The take namespace is discarded: an initialisation, or a loss accepted at BOOT (R273, R438). -/
  | wipe
  deriving DecidableEq, Repr

/-- A commit of one of the two journals on its way into both mirrors (R298). -/
structure JCommit where
  /-- Index journal, else map journal | 1 | R298 11 | - -/
  index : Bool
  /-- Its records, in the order they take effect | list | R298 11 | - -/
  recs : List JRec
  /-- Units that must have persisted before it is written | list | R302 11 | - -/
  after : List Nat
  deriving DecidableEq, Repr

/-- What the Carousel's journals hold persistently: the map a BOOT finds (R303). -/
structure NvMap where
  /-- Mapped units | list | R303 11 | empty -/
  units : List Nat
  /-- Sidecar extents | map | R293 11 | empty -/
  exts : NMap Ext
  /-- Block records | map | R299 11 | empty -/
  blocks : NMap Block
  /-- Die records | map | R299 11 | empty -/
  dies : NMap Die
  /-- Take log tail | 64 | R298 11 | 0 -/
  tail : Nat
  /-- DS images | map | R442 16 | empty -/
  images : NMap DsImage
  /-- Zones | map | R92 03 | empty -/
  zones : NMap Zone
  /-- Takes | map | R92 03 | empty -/
  takes : NMap Take
  /-- Take numbers issued | 32 | R338 12 | 0 -/
  lastTake : Nat
  /-- Current take | 32 | R442 16 | none -/
  current : Option Nat
  /-- Next sequence number | 32 | R38 02 | 0 -/
  nextSeq : Nat
  /-- Payload stream offset of the DS with that number | 64 | R33 02 | 0 -/
  stream : Nat
  /-- Media key identifiers issued | 16 | R261 10 | 0 -/
  mediaNext : Nat
  /-- Initialisation count | 16 | R273 10 | 1 -/
  initCount : Nat
  /-- Cartridge identifier | 64 | R37 02 | 0 -/
  cartridge : Nat
  /-- Zones of the namespace | 23 | R340 12 | 404,900 -/
  nz : Nat
  /-- MAC keys | map | R261 10 | empty -/
  macs : NMap MacKey
  /-- MAC key recorded with | 16 | R261 10 | none -/
  macCur : Option Nat
  /-- Media keys | map | R261 10 | empty -/
  medias : NMap MediaKey
  /-- Location entries | list | R92 03 | empty -/
  locs : List Loc
  /-- Append wrap and next position | 26 | R443 16 | (0, 0) -/
  append : Nat × Nat
  /-- Newest complete generation | 33 | R69 02 | none -/
  newest : Option (Nat × Nat)
  /-- Last generation made | 33 | R68 02 | none -/
  lastGen : Option (Nat × Nat)
  /-- Generation due | 1 | R93 03 | false -/
  genDue : Bool
  /-- Groups committed since | 32 | R93 03 | 0 -/
  sinceGen : Nat
  /-- Next cipher-sector index by 65,536·take + context | map of 64 | R442 16 | empty -/
  sectors : NMap Nat
  /-- Data DS of each closed group not yet spool-committed, by its first sequence number | map of 5 | R442 16 | empty -/
  groups : NMap Nat
  /-- Blocks of each zone known to be spool-committed: no BOOT takes them back | map of 17 | R442 16 | empty -/
  floors : NMap Nat
  /-- Age clock at the last checkpoint | 64 | R307 11 | 0 -/
  ckAge : Nat
  /-- Event journal, newest first | list | R470 18 | empty -/
  events : List JEntry
  /-- Spare die blocks left | 32 | R306 11 | 0 -/
  spares : Nat
  /-- Sidecar namespace read-only | 1 | R317 11 | false -/
  readOnly : Bool
  /-- Seal record is the last persisted record: age clock, real-time clock, credit | 192 | R300, R414 | none -/
  sealed : Option (Nat × Nat × Nat)
  deriving DecidableEq, Repr

/-- The Carousel controller. -/
structure Car where
  /-- Dies populated per channel | 5 | R285 11 | 0 -/
  perChan : Nat
  /-- Dies by number | 384 | R285 11 | empty -/
  dies : NMap Die
  /-- Die blocks by 65,536·D + block | records | R308 11 | empty -/
  blocks : NMap Block
  /-- Die blocks per die | 32 | R287 11 | 0 -/
  blocksPerDie : Nat
  /-- Spares at commissioning | 32 | R313 11 | 0 -/
  spares0 : Nat
  /-- Spare die blocks remaining | 32 | R306 11 | 0 -/
  spares : Nat
  /-- Die blocks taken from the take staging space and the sidecar reservation | 32 | R316 11 | 0 -/
  lostStage : Nat
  /-- Die blocks taken from the sidecar reservation | 32 | R316 11 | 0 -/
  lostSide : Nat
  /-- Units by number | flash | R291 11 | empty -/
  units : NMap CUnit
  /-- Unit numbers issued | counter | R291 11 | 0 -/
  nextUnit : Nat
  /-- Program sequence of the next unit | 64 | R428 16 | 0 -/
  pseq : Nat
  /-- Program sequence ceiling persisted, none before the root record is written | 64 | R428 16 | none -/
  pceil : Option Nat
  /-- Boot count | 32 | R427 16 | 0 -/
  boots : Nat
  /-- Sidecar extents | map | R293 11 | empty -/
  exts : NMap Ext
  /-- Sidecar LBAs written and not yet programmed or persisted | buffer | R342 12 | empty -/
  sbuf : NMap WLba
  /-- Take log tail, bytes | 64 | R292 11 | 0 -/
  tail : Nat
  /-- Flush extent numbers issued | 64 | R296 11 | 0 -/
  flushNo : Nat
  /-- Journal commits not yet persisted, oldest first | list | R298 11 | empty -/
  journal : List JCommit
  /-- What the journals hold persistently | record | R303 11 | empty -/
  nv : NvMap
  /-- Bytes of map journal since the last checkpoint | 40 | R299 11 | 0 -/
  sinceCkpt : Nat
  /-- Blocks queued for scrub, oldest first | list | R311 11 | empty -/
  scrub : List Nat
  /-- Age clock A, equivalent seconds | 64 | R307 11 | 0 -/
  age : Nat
  /-- Fraction of the age clock, 1/2^32 s | 32 | R307 11 | 0 -/
  ageFrac : Nat
  /-- Sidecar namespace read-only | 1 | R317 11 | false -/
  readOnly : Bool
  /-- HMB: 0 not enabled, 1 loading, 2 in use, 3 enabled but not used | 2 | R319, R320 11 | 0 -/
  hmb : Nat
  /-- Orphans reclaimed at the last BOOT | 32 | R303 11 | 0 -/
  orphans : Nat
  /-- Counters of the Carousel log by offset | 64 each | R453 17 | empty -/
  log : NMap Nat
  /-- Journal sealed | 1 | R300 11 | false -/
  sealed : Bool
  /-- The write area is unreadable: an uncorrectable buffer error | 1 | R463 18 | false -/
  bufBad : Bool
  deriving DecidableEq, Repr

/-! ### Compute cluster and cluster cache -/

/-- A kernel's window declaration (R362, R366). -/
structure WinDecl where
  /-- Kind | 8 | R366 13 | 0 -/
  kind : Nat
  /-- Rights | 8 | R366 13 | 0 -/
  rights : Nat
  /-- Scratch pages | 32 | R362 13 | 0 -/
  pages : Nat
  deriving DecidableEq, Repr

/-- A binding of a take or sidecar window (R369). -/
structure WinBind where
  /-- Window | 3 | R369 13 | - -/
  win : Nat
  /-- First LBA | 64 | R369 13 | - -/
  lba : Nat
  /-- LBAs | 32 | R369 13 | - -/
  count : Nat
  /-- Rights | 8 | R369 13 | - -/
  rights : Nat
  deriving DecidableEq, Repr

/-- A kernel instance (R364). -/
structure Kern where
  /-- The image as loaded; header only for a ROM kernel | bytes | R362 13 | - -/
  image : Bytes
  /-- ROM kernel number | 8 | R379 13 | none -/
  rom : Option Nat
  /-- Window declarations | 8 | R366 13 | - -/
  wins : List WinDecl
  /-- Entry virtual address | 64 | R370 13 | - -/
  entry : Nat
  /-- Top of stack | 64 | R370 13 | - -/
  sp : Nat
  /-- Bytes of the image region | 64 | R364 13 | - -/
  region : Nat
  /-- Buffer address of its image region; its scratch windows follow | 36 | R364 13 | - -/
  base : Nat
  /-- Bound kernel key slots | 0 to 2 | R364 13 | empty -/
  slots : List Nat
  /-- Frozen | 1 | R376 13 | false -/
  frozen : Bool
  /-- Invocations made | 32 | R370 13 | 0 -/
  count : Nat
  deriving DecidableEq, Repr

/-- An invocation (R368, R371). -/
structure Invoc where
  /-- Fetch number of its command | counter | R371 13 | - -/
  seq : Nat
  /-- Instance number | 8 | R368 13 | - -/
  inst : Nat
  /-- Class | 2 | R371 13 | - -/
  cls : Nat
  /-- The invocation block | 256 bytes to 2 MiB | R369 13 | - -/
  block : Bytes
  /-- Result write-back | 1 | R368 13 | - -/
  wb : Bool
  /-- Bindings | list | R369 13 | - -/
  binds : List WinBind
  /-- Buffer address of its argument window; the result window follows on the next page boundary | 36 | R366 13 | - -/
  base : Nat
  deriving DecidableEq, Repr

/-- A DMA descriptor in progress (R373). -/
structure Dma where
  /-- Opcode | 8 | R373 13 | - -/
  op : Nat
  /-- Window | 3 | R373 13 | - -/
  win : Nat
  /-- LBA count | 10 | R373 13 | - -/
  count : Nat
  /-- LBA offset | 64 | R373 13 | - -/
  off : Nat
  /-- Memory address | 64 | R373 13 | - -/
  addr : Nat
  /-- Memory length | 32 | R373 13 | - -/
  len : Nat
  /-- Tag | 32 | R373 13 | - -/
  tag : Nat
  /-- Words of a cipher request | 4 × 64 | R373 13 | - -/
  words : List Nat
  /-- Write application number of a sidecar write whose data has been taken, 0 before | counter | R375 13 | 0 -/
  app : Nat
  /-- Result when done: status, class or cipher status, units done, IV | record | R374 13 | none -/
  res : Option (Nat × Nat × Nat × Bytes)
  deriving DecidableEq, Repr

/-- A compute core (R361, R370 to R378). -/
structure Core where
  /-- Powered | 1 | R371 13 | false -/
  powered : Bool
  /-- The frozen instance that holds the core | 8 | R376 13 | none -/
  frozen : Option Nat
  /-- Invocation running | record | R371 13 | none -/
  run : Option Invoc
  /-- Program counter | 64 | R370 13 | 0 -/
  pc : Nat
  /-- Integer registers x0 to x31 | 32 × 64 | R361, R370 13 | empty: zero -/
  x : NMap Nat
  /-- Floating-point registers | 32 × 64 | R361 13 | empty: zero -/
  f : NMap Nat
  /-- Vector registers | 32 × 512 | R361 13 | empty: zero -/
  v : NMap Nat
  /-- Waiting in WFI | 1 | R361 13 | false -/
  wfi : Bool
  /-- ECALL executed; waiting for its descriptors: (a0, a1) | 128 | R370 13 | none -/
  exiting : Option (Nat × Nat)
  /-- Submission ring base | 64 | R372 13 | 0 -/
  sqb : Nat
  /-- Submission ring entries | 11 | R372 13 | 0 -/
  sqsz : Nat
  /-- Submission tail | 11 | R372 13 | 0 -/
  sqt : Nat
  /-- Submission head | 11 | R372 13 | 0 -/
  sqh : Nat
  /-- Completion ring base | 64 | R372 13 | 0 -/
  cqb : Nat
  /-- Completion ring entries | 11 | R372 13 | 0 -/
  cqsz : Nat
  /-- Completion head | 11 | R372 13 | 0 -/
  cqh : Nat
  /-- Completion tail | 11 | R372 13 | 0 -/
  cqt : Nat
  /-- Descriptors in progress, oldest first | list | R372 13 | empty -/
  dma : List Dma
  deriving DecidableEq, Repr

/-- A core with nothing in it. -/
def Core.zero : Core :=
  { powered := false, frozen := none, run := none, pc := 0, x := [], f := [], v := [], wfi := false, exiting := none, sqb := 0, sqsz := 0,
    sqt := 0, sqh := 0, cqb := 0, cqsz := 0, cqh := 0, cqt := 0, dma := [] }

/-- Compute cluster. -/
structure Comp where
  /-- Kernel instances by number | 256 | R364 13 | empty -/
  kerns : NMap Kern
  /-- Cores by number | 16 | R361 13 | empty -/
  cores : NMap Core
  /-- Invocations queued | FIFO 76 | R371 13 | empty -/
  queue : List Invoc
  deriving DecidableEq, Repr

/-- A line of the cluster cache (R382, R388). -/
structure CLine where
  /-- Tag | 17 | R382 14 | - -/
  tag : Nat
  /-- Dirty | 1 | R388 14 | - -/
  dirty : Bool
  /-- Data | 64 bytes | R382 14 | - -/
  data : Bytes
  deriving DecidableEq, Repr

/-- A set of the cluster cache (R382, R385). -/
structure CSet where
  /-- Valid lines by way | 16 | R382 14 | empty -/
  lines : NMap CLine
  /-- Order matrix | 120 | R385 14 | 0 -/
  order : Nat
  deriving DecidableEq, Repr

/-- A victim-cache entry (R391): set, way the line came from, line. -/
structure Victim where
  /-- Set | 10 | R391 14 | - -/
  set : Nat
  /-- Way it came from | 4 | R399 14 | - -/
  way : Nat
  /-- The line | record | R391 14 | - -/
  line : CLine
  deriving DecidableEq, Repr

/-- A bank's miss slot (R389). -/
structure Miss where
  /-- Line address (address div 64) | 30 | R389 14 | - -/
  line : Nat
  /-- Requester | 5 | R383 14 | - -/
  q : Nat
  /-- Prefetch | 1 | R390 14 | - -/
  pf : Bool
  /-- Requests waiting for this fill: requester, write, offset, bytes | list | R389 14 | - -/
  wait : List (Nat × Bool × Nat × Bytes)
  deriving DecidableEq, Repr

/-- A request waiting at the head of a bank's queue or stalled by a clean (R389, R396). -/
structure CReq where
  /-- Requester | 5 | R383 14 | - -/
  q : Nat
  /-- Write | 1 | R388 14 | - -/
  wr : Bool
  /-- Address | 36 | R382 14 | - -/
  addr : Nat
  /-- Bytes written | bytes | R388 14 | - -/
  data : Bytes
  /-- Error found in the line it meets: 0 none, 1 single bit, 2 double bit, 3 tag parity | 2 | R399 14 | 0 -/
  err : Nat
  deriving DecidableEq, Repr

/-- Cluster cache. -/
structure Cache where
  /-- Sets by 1,024·bank + set | 8,192 | R382 14 | empty -/
  sets : NMap CSet
  /-- Victim caches by bank, oldest first | 8 × 4 | R391 14 | empty -/
  vict : NMap (List Victim)
  /-- Miss slots by bank | 8 | R389 14 | empty -/
  miss : NMap Miss
  /-- Requests waiting by bank, oldest first | list | R389 14 | empty -/
  wait : NMap (List CReq)
  /-- Compute region content of the buffer by line address, zero when not listed | 64 bytes each | R365 13 | empty -/
  mem : NMap Bytes
  /-- Clean running: the ways it removes and whether the victim caches go too | 17 | R396 14 | none -/
  clean : Option (List Nat × Bool)
  /-- Range operation running: operation, first line, lines | record | R393 14 | none -/
  range : Option (Nat × Nat × Nat)
  /-- Ways effective in lookup and powered | 16 | R396, R398 14 | 0xFFFF -/
  ways : Nat
  /-- Ways being woken | 16 | R398 14 | 0 -/
  waking : Nat
  /-- CCA_WAY_FAIL | 16 | R400 14 | 0 -/
  fail : Nat
  /-- Hardware disables due when the running operation ends | list | R396 14 | empty -/
  due : List Nat
  /-- Corrected errors of each way in the current second | counter | R400 14 | empty -/
  ceSec : NMap Nat
  /-- RTC second those counts belong to | 64 | R400 14 | 0 -/
  ceAt : Nat
  /-- Data returned by the last read access | bytes | R384 14 | empty -/
  out : Bytes
  deriving DecidableEq, Repr

/-! ### Power, Chervil, configuration NOR and events -/

/-- An entry of Chervil's event ring (R420). -/
structure Ring where
  /-- Real-time clock seconds | 32 | R420 15 | - -/
  rtc : Nat
  /-- Type | 8 | R420 15 | - -/
  kind : Nat
  /-- Magazine state at the event | 8 | R420 15 | - -/
  st : Nat
  /-- Type data | 10 bytes | R420 15 | - -/
  data : Bytes
  /-- Copied into the event journal | 1 | R421 15 | false -/
  copied : Bool
  deriving DecidableEq, Repr

/-- The bank test in progress (R410). -/
inductive BankTest where
  | idle | charging | loaded (v0 : Nat) | sampled (v0 v1 : Nat)
  deriving DecidableEq, Repr

/-- Power, hold-up and Chervil. -/
structure Power where
  /-- VDD_AON present: Chervil runs | 1 | R417 15 | false -/
  aon : Bool
  /-- Crystal running | 1 | R417 15 | false -/
  crystal : Bool
  /-- Line present | 1 | R405 15 | false -/
  line : Bool
  /-- Line, mV | 16 | R425 15 | 0 -/
  lineMv : Nat
  /-- Bank, mV | 16 | R425 15 | 0 -/
  bankMv : Nat
  /-- PWR_EN | 12 | R406 15 | 0 -/
  en : Nat
  /-- PGOOD as last judged | 12 | R406 15 | 0 -/
  pgood : Nat
  /-- REF_EN | 1 | R407 15 | false -/
  refEn : Bool
  /-- MGT domain released | 1 | R407 15 | false -/
  mgt : Bool
  /-- Power-up waiting for its retry | 1 | R407 15 | false -/
  retry : Bool
  /-- Bank test | name | R410 15 | idle -/
  test : BankTest
  /-- BANK_TEST output | 1 | R410 15 | false -/
  testPin : Bool
  /-- Last bank test passed | 1 | R411 15 | false -/
  passed : Bool
  /-- Last bank test failed | 1 | R411 15 | false -/
  failed : Bool
  /-- A test has passed since BOOT | 1 | R413 15 | false -/
  everPassed : Bool
  /-- Consecutive failures | 8 | R425 15 | 0 -/
  testFails : Nat
  /-- Ticks since the last test started | counter | R425 15 | 0 -/
  testAge : Nat
  /-- C of the last passed test, µF, as numerator and denominator: PWR_BANK_C shows it rounded down | 32 | R411, R412 15 | 0 -/
  cap : Nat × Nat
  /-- ESR of the last passed test, µΩ, likewise: PWR_BANK_ESR | 32 | R411, R412 15 | 0 -/
  esr : Nat × Nat
  /-- Hold-up credit, MiB | 14 | R412 15 | 0 -/
  credit : Nat
  /-- K forced to 0 by a fault | 1 | R459 18 | false -/
  force0 : Bool
  /-- Real-time clock, 1/32,768 s since 1970 or since the last BOOT while invalid | 64 | R417 15 | 0 -/
  rtc : Nat
  /-- Real-time clock valid | 1 | R417 15 | false -/
  rtcOk : Bool
  /-- Retention RAM content lost since the last BOOT read it | 1 | R420 15 | true -/
  retLost : Bool
  /-- Magazine temperature, tenths of a degree | 16 | R418 15 | 0 -/
  temp : Int
  /-- Temperature valid | 1 | R418 15 | false -/
  tempOk : Bool
  /-- A valid temperature has been sampled since Chervil started | 1 | R419 15 | false -/
  tempSeen : Bool
  /-- Consecutive invalid temperature samples | 8 | R419 15 | 0 -/
  tempBad : Nat
  /-- Humidity, 0.1 % | 10 | R418 15 | 0 -/
  rh : Nat
  /-- Failed range checks by input: 0 line, 1 bank, 2 temperature, 3 humidity, 4 shock | counter | R418 15 | empty -/
  badInputs : NMap Nat
  /-- Highest shock since BOOT, 0.1 g | 12 | R425 15 | 0 -/
  shock : Nat
  /-- Exposure histogram by 5 °C band, seconds | 33 of 32 | R419 15 | empty -/
  hist : NMap Nat
  /-- Event ring, oldest first | 512 entries | R420 15 | empty -/
  ring : List Ring
  /-- Ring entries overwritten uncopied | 16 | R425 15 | 0 -/
  ringLost : Nat
  /-- Drain status: 0 none, 1 complete, 2 incomplete | 2 | R416 15 | 0 -/
  drain : Nat
  /-- Credit at the last loss, MiB | 16 | R420 15 | 0 -/
  lossCredit : Nat
  /-- U latched at the loss, less what the DRAIN has persisted by its end, LBAs: NSID 1 and NSID 2 | 64 each | R457 18 | (0, 0) -/
  lossU : Nat × Nat
  /-- Fault class of the loss, and the cause of EVT 0x7F0 when a condition of R456 did not hold, else 0 | 8 | R457, R459 18 | (0, 0) -/
  lossClass : Nat × Nat
  /-- Authentication failures and lockout length, s, held in retention RAM | 16 + 32 | R511 10 | none -/
  retFails : Option (Nat × Nat)
  /-- Radii stored in retention RAM | 2 × 16 | R182 07 | none -/
  retRadius : Option (Nat × Nat)
  /-- Confirmed position in retention RAM | 24 + 2 × 64 | R205 08 | none -/
  retPos : Option (Nat × Int × Int)
  /-- Lid switch open | 1 | R418 15 | false -/
  lid : Bool
  /-- Composite temperature, tenths of a degree | 16 | R508 20 | 0 -/
  tj : Int
  /-- Highest composite since BOOT | 16 | R510 20 | 0 -/
  tjPeak : Int
  /-- Thermal level: 0 none, 1 warning, 2 critical | 2 | R508 20 | 0 -/
  thermal : Nat
  /-- A trip to be journalled at the next BOOT | 1 | R508 20 | false -/
  tripped : Bool
  /-- Events decided by Chervil while Ringmaster had no power, raised at the next BOOT: event, cause, data | list | R407, R415 15 | empty -/
  owed : List (Nat × Nat × Bytes)
  deriving DecidableEq, Repr

/-- The two NOR copies of one record: bytes, none when never written (R426, R427). -/
structure Copies where
  /-- Copy 0 | bytes | R426 16 | none -/
  c0 : Option Bytes
  /-- Copy 1 | bytes | R426 16 | none -/
  c1 : Option Bytes
  /-- The copy that is newer than the other, none while they are alike | 1 | R260 10 | none -/
  newer : Option Nat
  deriving DecidableEq, Repr

/-- Which change of the key record a write carries (R268, R270, R271). -/
inductive KeyStep where
  | claim | owner | escrow | noEscrow | rotateNew | rotateEnd
  deriving DecidableEq, Repr

/-- What follows once both copies of a NOR write have their result (R260, R511, R506). -/
inductive NorAct where
  /-- Nothing. -/
  | plain
  /-- A failure count or lockout: the command completes with this status and Dword 0 whatever the result (R511). -/
  | auth (seq : Nat) (sct sc : Nat) (dnr : Bool) (dw0 : Nat)
  /-- A change of a key: in force only when a copy verified, else Internal Error (R511). -/
  | key (seq : Option Nat) (k : KeyRec) (step : KeyStep)
  /-- The sealed profile (R438). -/
  | profile
  /-- A patch package: the Firmware Commit completes with this status once a copy has verified (R350). -/
  | patch (seq : Nat) (sct sc : Nat) (dnr : Bool)
  /-- A record written at commissioning or BOOT. -/
  | boot
  deriving DecidableEq, Repr

/-- A NOR write not yet verified: one copy first, then the other (R260, R506). -/
structure NorOp where
  /-- Area: 0 profile, 1 key, 2 root, 3 calibration, 4 health, 5 patch | 3 | R426 16 | - -/
  area : Nat
  /-- Content | bytes | R426 16 | - -/
  data : Bytes
  /-- The copy written first | 1 | R260 10 | - -/
  first : Nat
  /-- Result of the copy written first | 1 | R260 10 | none -/
  r0 : Option Bool
  /-- What follows | name | R511 10 | - -/
  act : NorAct
  deriving DecidableEq, Repr

/-- Configuration NOR, fuses and start-up. -/
structure Nor where
  /-- Records by area: 0 profile, 1 key, 2 root, 3 calibration, 4 health, 5 patch | 32 MiB | R426 16 | empty -/
  areas : NMap Copies
  /-- Writes under way, oldest first | list | R506 20 | empty -/
  ops : List NorOp
  /-- Areas of which the last write verified in no copy | 6 | R216 08, R506 20 | empty -/
  failed : List Nat
  /-- The configuration NOR failed identification | 1 | R506 20 | false -/
  dead : Bool
  /-- Anti-rollback fuses blown | 6 | R441 16 | 0 -/
  fuses : Nat
  /-- Import buffer by word | 4 MiB | R438 16 | empty -/
  imp : NMap Nat
  /-- BOOT_IMP_STAT: state, reason, entry offset | 64 | R446 16 | (0, 0, 0) -/
  impStat : Nat × Nat × Nat
  /-- Check or seal running: 0 none, 1 check, 2 seal | 2 | R439 16 | 0 -/
  impBusy : Nat
  /-- Profile in force, none without a valid copy | bytes | R429 16 | none -/
  profile : Option Bytes
  /-- Copy in use, sequence and validity of both copies | 35 | R446 16 | 0 -/
  profStat : Nat
  deriving DecidableEq, Repr

/-- Event sources, journal and background counters. -/
structure Events where
  /-- Records since BOOT by source | 32 each | R472 18 | empty -/
  count : NMap Nat
  /-- Suppressed since BOOT by source | 32 each | R472 18 | empty -/
  supp : NMap Nat
  /-- Journalled in the current second by source | 10 each | R469 18 | empty -/
  inSec : NMap Nat
  /-- Suppressed in the current second by source | 32 each | R469 18 | empty -/
  suppSec : NMap Nat
  /-- EVT_RATE in force for the current second | 10 | R472 18 | 16 -/
  rate : Nat
  /-- Journal, newest first | EVT_JNL_ENTRIES | R470 18 | empty -/
  jnl : List JEntry
  /-- Newest sequence number | 64 | R470 18 | 0 -/
  seq : Nat
  /-- Entries overwritten | 64 | R470 18 | 0 -/
  lostOld : Nat
  /-- Entries not yet persisted | list | R470 18 | empty -/
  unsaved : List JEntry
  /-- Records dropped in FIFOs 80 to 87 since commissioning | 64 | R470 18 | 0 -/
  dropped : Nat
  /-- EVT_LOST_LBA: NSID 1 and 2 | 64 each | R457 18 | (0, 0) -/
  lost : Nat × Nat
  /-- EVT_LAST_FAULT: class and seconds | 64 | R472 18 | (0, 0) -/
  lastFault : Nat × Nat
  /-- Travel of the cartridge's tape by wrap, in 1/32,768 µm | 80 each | R449 17 | empty -/
  travel : NMap Nat
  /-- Head time, Chervil ticks | 64 | R449 17 | 0 -/
  headTicks : Nat
  /-- Head time at the last health record write | 64 | R451 17 | 0 -/
  headSaved : Nat
  /-- Percentage Used and governing ratio | 10 | R452 17 | (0, 0) -/
  life : Nat × Nat
  /-- EVT 0x608 causes raised | 2 | R452 17 | 0 -/
  lifeEvt : Nat
  deriving DecidableEq, Repr

/-- The magazine level. -/
structure Mag where
  /-- State | 4 | R23 01 | off -/
  st : MagState
  /-- Context | 2 | R20 01 | none -/
  ctx : Ctx
  /-- Profile's default context | 2 | R20 01 | none -/
  dflt : Ctx
  /-- State SERVICE was entered from | 4 | R21 01 | ready -/
  from_ : MagState
  /-- SAFE cause bits | 4 | R446 16 | 0 -/
  why : Nat
  /-- A fault holds SAFE until the next power-up | 1 | R462 18 | false -/
  heldFault : Bool
  /-- Chervil ticks since the first lockstep mismatch, none without one in the last 3,600 s | 27 | R462 18 | none -/
  mismatch : Option Nat
  /-- BOOT_STEP | 4 | R446 16 | 0 -/
  step : Nat
  /-- BOOT_CAUSE | 2 | R446 16 | 0 -/
  cause : Nat
  /-- BOOT_TIME_MS | 20 | R446 16 | 0 -/
  bootMs : Nat
  /-- Restart with the rails left on: 0 none, 1 from BOOT step 1, 2 from step 2, 3 entry into SAFE after a second mismatch | 2 | R438 16, R462 18 | 0 -/
  restart : Nat
  /-- BOOT has halted until the next power-up | 1 | R431, R440 16 | false -/
  halted : Bool
  /-- Cartridge unloaded | 1 | R218 08 | false -/
  unloaded : Bool
  /-- Chervil ticks since BOOT | counter | R470 18 | 0 -/
  ticks : Nat
  deriving DecidableEq, Repr

/-- The state of the device. -/
structure State where
  /-- Commands waiting, first in first out | list | model's own, log 1 | empty -/
  pending : List Instr
  /-- Magazine level | record | 01 | see its fields -/
  mag : Mag
  /-- Parameter values in effect by pid·2^20 + index, the table's reset value where not listed | element values | R478 19 | empty -/
  params : NMap Nat
  /-- Staged values | element values | R480 19 | empty -/
  staged : NMap Nat
  /-- Pending values: committed, awaiting their boundary | element values | R481 19 | empty -/
  pend : NMap Nat
  /-- Elements written since BOOT | 1 each | R483 19 | empty -/
  wrote : NMap Nat
  /-- Profile presets: values of the profile and the records over the reset values | element values | R474 19 | empty -/
  presets : NMap Nat
  /-- Host interface | record | 12 | see its fields -/
  nv : Nvme
  /-- Take namespace and spooling | record | 03 | see its fields -/
  sp : Spool
  /-- Stream FIFOs by number, empty where not listed | 96 | R101 04 | empty -/
  fifos : NMap Fifo
  /-- Read channel and decoder | record | 05, 06 | see its fields -/
  rc : ReadCh
  /-- Control engine and transport | record | 07, 08 | see its fields -/
  ctl : Ctl
  /-- Cipher and keys | record | 10 | see its fields -/
  keys : Keys
  /-- Carousel | record | 11 | see its fields -/
  car : Car
  /-- Compute cluster | record | 13 | see its fields -/
  comp : Comp
  /-- Cluster cache | record | 14 | see its fields -/
  cache : Cache
  /-- Power and Chervil | record | 15 | see its fields -/
  pw : Power
  /-- Configuration NOR and start-up | record | 16 | see its fields -/
  nor : Nor
  /-- Events and health | record | 17, 18 | see its fields -/
  ev : Events
  /-- Free values drawn so far: the model's own counter, no state of the device | counter | log 2 | DESIGN CHOICE 0 -/
  freeCtr : Nat
  deriving DecidableEq, Repr

/-- Reasons for which the device model stops with a fault. No meaning raises one: every command has an outcome. -/
inductive Fault where
  /-- Never raised by a meaning; kept so that the type has a member. Safe. -/
  | none
  deriving DecidableEq, Repr

/-- Reasons for which a command has no meaning. -/
inductive Refusal where
  /-- A command whose meaning is not written yet, named by its mnemonic: raised by the dispatch only. Safe. -/
  | notModelled (mnemonic : String)
  deriving DecidableEq, Repr

/-- What a step or a meaning answers. -/
abbrev Out := Host.Outcome State Fault Refusal

/-- The empty persistent map. -/
def NvMap.zero : NvMap :=
  { units := [], exts := [], blocks := [], dies := [], tail := 0, images := [], zones := [], takes := [], lastTake := 0, current := none,
    nextSeq := 0, stream := 0, mediaNext := 0, initCount := 1, cartridge := 0, nz := 404900, macs := [], macCur := none, medias := [],
    locs := [], append := (0, 0), newest := none, lastGen := none, genDue := false, sinceGen := 0, sectors := [], groups := [], floors := [], ckAge := 0, events := [], spares := 0,
    readOnly := false, sealed := none }

/-- The NVMe controller before any BOOT (R512). -/
def Nvme.zero : Nvme :=
  { link := none, linkPower := 0, wake := false, en := false, ams := 0, css := 0, shn := 0, shst := 0, rdy := false, cfs := false, pp := false, sqs := [],
    cqs := [], held := [], fetchSeq := 0, rr := [], wrr := (1, 0), writes := [], applied := 0, msix := [], features := [], vwc := true,
    errLog := [], errCount := 0, masked := [], asyncQ := [], changedNs := [], changedZones := [], unitsRead := 0, unitsWritten := 0,
    readCmds := 0, writeCmds := 0, powerCycles := 0, powerOn := 0, unsafeShut := 0, mediaErrors := 0, creditZero := true,
    capReported := false, fwBuf := [], fwMarked := false, fwSlot2 := none, patchLevel := 0 }

/-- The take path before any BOOT. -/
def Spool.zero : Spool :=
  { zones := [], nz := 404900, takes := [], lastTake := 0, current := none, wbuf := [], ctxs := [], floors := [], recs := [], closings := 0, ovf := [], ovfWait := [], arrivals := 0,
    stream := 0, cur := { payload := [], dir := [], cont := 0, fill := none }, filled := [], nextSeq := 0, images := [], latch := 0,
    ffHist := [], fsyncOk := false, ffRun := false, vff := 0, vreq := 0, started := [], groupFirst := none, groupCount := 0, groups := [],
    verified := [], ready := [], locs := [], wrap := 0, pos := 0, wrapUsed := false, recGroup := none, resume := false, zone := 0, wrapEnd := false,
    carry := false, fails := [], carried := false, skip := 0, copied := [], suspended := false, suspendedAt := 0, full := false, crawl := none,
    closing := false, closeAt := none, closeGrp := none, draining := false, sinceGen := 0, genDue := false, newest := none, lastGen := none, gen := none, abandoned := false, cartridge := 0,
    initCount := 1, noIndex := true, foreign := none, lastCommit := none, tailScan := false, tailPos := 0, stageFull := false,
    retired := [], retireRun := [], indexRetired := none, uncommitted := [], life := [], sinceBoot := [], chan := [], perWrap := [] }

/-- The read path before any BOOT. -/
def ReadCh.zero : ReadCh :=
  { lanes := [], awake := [], rows := [], ptrs := [], cap := [], failedHdr := [], variant := 0, wrap := 0, pos := 0, servo := [], lateral := 0,
    lateralOk := false, lateralTime := 0, pos10 := 0, speed := 0, speedOk := false, cal := [], calFir := [], calDirty := false, dec := [],
    decM := [], ladders := [], auth := [], classes := [], recs := [], plain := [], origin := [], failed := [], idx := [], dirs := [], pass := none, ahead := 0, top := 0, runAt := 0, took := [], preamp := [], hmcFlt := [],
    hmcBad := [] }

/-- The trace before any BOOT. -/
def Trace.zero : Trace :=
  { st := 0, samples := [], left := none, trig := 0, trigAt := 0, index := 0, pre := 16384, div := 8, mask := 1, level := 0, sel := [],
    freezes := 0, time := 0, pending := 0 }

/-- Control engine and transport before any BOOT. -/
def Ctl.zero : Ctl :=
  { slots := [], vlim := 0, alim := 0, target := 0, fast := false, reversing := false, dwell := false, lastDir := 0, hit := false, enc := [],
    radius := (0, 0), radiusOk := false, radHist := [], links := [], supStop := false, trace := Trace.zero, tsub := .braked, tasks := [], stage := 0,
    after := none, movedAt := 0, probed := false, dir := 1, held := none, lastTpn := 0, wrapSel := 0, railsUp := false, brake := true,
    scb := true, shuttle := false, shCode := 2048, shRaw := [], shFault := false, unmeasured := 0, calPass := (0, 0), aim := none,
    writing := false, turn := false, wrapGoal := 0, wrapTick := 0, stillFor := 100, begun := false, rel := none, tensFor := 0, sweep := none,
    swept := false, emAt := none, shTarget := 0, idleTens := 0, idlePb := 0, probeTpn := false, wclk := 0 }

/-- Keys before any BOOT. -/
def Keys.zero : Keys :=
  { slots := [], clock := 0, krec := none, iv := 0, ceiling := none, ceilingBusy := none, ivDead := false, recDirty := false, session := false,
    challenge := none, challenges := 0, proof := (0, zeroBytes 16), lockout := 0, trngOk := true, spells := 0, lock := 0,
    lockRelease := false, msg := none, suspended := none, urgent := [], queue := [], partMsg := none, results := [], macs := [], macCur := none,
    medias := [], mediaNext := 0, rot := none }

/-- The Carousel before any BOOT. -/
def Car.zero : Car :=
  { perChan := 0, dies := [], blocks := [], blocksPerDie := 0, spares0 := 0, spares := 0, lostStage := 0, lostSide := 0, units := [],
    nextUnit := 0, pseq := 0, pceil := none, boots := 0, exts := [], sbuf := [], tail := 0, flushNo := 0, journal := [],
    nv := NvMap.zero, sinceCkpt := 0, scrub := [], age := 0, ageFrac := 0, readOnly := false, hmb := 0, orphans := 0, log := [],
    sealed := false, bufBad := false }

/-- The cluster cache before any BOOT: enabled, every way effective. -/
def Cache.zero : Cache :=
  { sets := [], vict := [], miss := [], wait := [], mem := [], clean := none, range := none, ways := 0xFFFF, waking := 0, fail := 0, due := [],
    ceSec := [], ceAt := 0, out := [] }

/-- Power and Chervil in OFF. -/
def Power.zero : Power :=
  { aon := false, crystal := false, line := false, lineMv := 0, bankMv := 0, en := 0, pgood := 0, refEn := false, mgt := false, retry := false,
    test := .idle, testPin := false, passed := false, failed := false, everPassed := false, testFails := 0, testAge := 0, cap := (0, 1), esr := (0, 1),
    credit := 0, force0 := false, rtc := 0, rtcOk := false, retLost := true, temp := 0, tempOk := false, tempSeen := false, tempBad := 0, rh := 0, badInputs := [],
    shock := 0, hist := [], ring := [], ringLost := 0, drain := 0, lossCredit := 0, lossU := (0, 0),
    lossClass := (0, 0), retFails := none, retRadius := none, retPos := none, lid := false, tj := 0, tjPeak := 0, thermal := 0,
    tripped := false, owed := [] }

/-- A factory NOR. -/
def Nor.zero : Nor :=
  { areas := [], ops := [], failed := [], dead := false, fuses := 0, imp := [], impStat := (0, 0, 0), impBusy := 0, profile := none, profStat := 0 }

/-- Events before any BOOT. -/
def Events.zero : Events :=
  { count := [], supp := [], inSec := [], suppSec := [], rate := 16, jnl := [], seq := 0, lostOld := 0, unsaved := [], dropped := 0, lost := (0, 0),
    lastFault := (0, 0), travel := [], headTicks := 0, headSaved := 0, life := (0, 0), lifeEvt := 0 }

/-- The magazine in OFF. -/
def Mag.zero : Mag :=
  { st := .off, ctx := .none, dflt := .none, from_ := .ready, why := 0, heldFault := false, mismatch := none, step := 0, cause := 0,
    bootMs := 0, restart := 0, halted := false, unloaded := false, ticks := 0 }

/-- The device before power is applied for the first time: OFF, with a factory NOR, an empty Carousel and a blank cartridge. -/
def State.reset : State :=
  { pending := [], mag := Mag.zero, params := [], staged := [], pend := [], wrote := [], presets := [], nv := Nvme.zero, sp := Spool.zero,
    fifos := [], rc := ReadCh.zero, ctl := Ctl.zero, keys := Keys.zero, car := Car.zero, comp := { kerns := [], cores := [], queue := [] },
    cache := Cache.zero, pw := Power.zero, nor := Nor.zero, ev := Events.zero, freeCtr := 0 }

end Sys2Proof.Machine
end

