-- ==== Sys2Proof/Machine/Operands.lean ====
section
/-! DEFINITION. Forms in which commands carry their operands: numbers in byte strings (R5, R6), runs of LBAs and their blocks, zones (R334), the timecode
dwords of a write (R339), and the elements of a Parameter Write (R476). -/

namespace Sys2Proof.Machine

/-- Number in `n` bytes at offset `o`, most significant first (R6). -/
def beAt (b : Bytes) (o n : Nat) : Nat := beNat (slice b o n)

/-- Number in `n` bytes at offset `o`, little-endian (R5). -/
def leAt (b : Bytes) (o n : Nat) : Nat := leNat (slice b o n)

/-- Zone of an LBA of the take namespace: 65,536 LBAs each (R334). -/
def zoneOf (lba : Nat) : Nat := lba / 65536

/-- LBAs of a run. -/
def lbaList (slba n : Nat) : List Nat := (List.range n).map (· + slba)

/-- Cut a run of bytes into `n` blocks of 4,096. -/
def blocksOf (n : Nat) (data : Bytes) : List Bytes := (List.range n).map (fun i => fitBytes 4096 (slice data (4096 * i) 4096))

/-- Timecode of CDW2 and CDW3, none when bit 31 of CDW3 is clear (R339). -/
def timecodeOf (cdw2 cdw3 : Nat) : Option (Nat × Nat) := if Nat.testBit cdw3 31 then some (cdw2, cdw3) else none

/-- A timecode passes the field checks of R339; its reserved bits are ignored (R7). -/
def timecodeOk (cdw2 cdw3 : Nat) : Bool :=
  !Nat.testBit cdw3 31
    || (decide (bitsOf cdw2 7 0 ≤ 23) && decide (bitsOf cdw2 15 8 ≤ 59) && decide (bitsOf cdw2 23 16 ≤ 59) && decide (1 ≤ bitsOf cdw3 15 0)
        && decide (bitsOf cdw3 15 0 ≤ 1000) && decide (bitsOf cdw2 31 24 < bitsOf cdw3 15 0))

/-- The elements of a Parameter Write, from its data: `count` numbers of `width` bytes, little-endian (R476). -/
def elemsOf (width count : Nat) (data : Bytes) : List Nat := (List.range count).map (fun k => leAt data (width * k) width)

end Sys2Proof.Machine
end

