-- ==== Sys2Proof/Machine/Format.lean ====
section
/-! DEFINITION. The SRF-1 format (chapter "SRF-1 data set and track format"): record headers, DS information tables, the split of a
data set into sub data sets and rows, the codes C1, C2 and C3, row headers, interleave, scrambler, channel patterns, and where
positions lie on tape. Everything here is a function of its arguments: nothing of it can be changed by a parameter (R30). -/

namespace Sys2Proof.Machine

/-! ### Sizes -/

/-- Payload bytes of a data set (R37). -/
abbrev dsPayload : Nat := 3145728
/-- Bytes of a DS information table (R37). -/
abbrev dsTableLen : Nat := 65536
/-- Information bytes of a data set (R43). -/
abbrev dsInfo : Nat := 3211264
/-- Positions of a wrap (R60). -/
abbrev wrapPositions : Nat := 768000
/-- Positions of an index wrap (R67). -/
abbrev indexPositions : Nat := 8000
/-- Channel bits of a row (R54). -/
abbrev rowBits : Nat := 8227
/-- Channel bits of a data set on one channel (R54). -/
abbrev dsBits : Nat := 66296

/-! ### Record header (R33) -/

/-- The first 60 bytes of a record header. -/
def recHeaderBody (flags mode zone count start take ctx keyId sector0 compLen bodyLen crc : Nat) (timecode : Bytes) : Bytes :=
  beBytes 4 0x53524843 ++ beBytes 1 0x01 ++ beBytes 1 flags ++ beBytes 1 mode ++ beBytes 1 0 ++ beBytes 4 zone ++ beBytes 4 count
    ++ beBytes 8 start ++ beBytes 4 take ++ beBytes 2 ctx ++ beBytes 2 keyId ++ beBytes 8 sector0 ++ beBytes 4 compLen
    ++ beBytes 4 bodyLen ++ beBytes 4 crc ++ fitBytes 8 timecode

/-- A structure with its CRC-32C appended, most significant byte first. -/
def withCrcBE (b : Bytes) : Bytes := b ++ beBytes 4 (crc32c b)

/-- Body length of a compressed record: rounded up to a multiple of 16, at least 16 (R33). -/
def bodyLen (n : Nat) : Nat := max 16 ((n + 15) / 16 * 16)

/-- The header of a packed record. -/
def PackRec.header (r : PackRec) : Bytes :=
  withCrcBE (recHeaderBody r.flags r.mode r.zone r.count r.start r.take r.ctx r.keyId r.sector0 r.coded.length (bodyLen r.coded.length)
    r.crc r.timecode)

/-- A record header is one that R33 allows: identifier, version and header CRC. -/
def headerValid (h : Bytes) : Bool :=
  h.length = 64 && beAt h 0 4 = 0x53524843 && beAt h 4 1 = 1 && beAt h 0x3C 4 = crc32c (h.take 60)

/-- Timecode bytes of a record header from the command dwords of R339: the nominal rate most significant byte first. -/
def timecodeBytes (cdw2 cdw3 : Nat) : Bytes :=
  leBytes 4 cdw2 ++ beBytes 2 (cdw3 % 65536) ++ beBytes 1 (cdw3 / 65536 % 4) ++ beBytes 1 0

/-! ### DS information table (R37, R39, R41) -/

/-- One directory entry. -/
def DirEntry.bytes (d : DirEntry) : Bytes :=
  beBytes 4 d.off ++ beBytes 4 d.len ++ beBytes 4 d.zone ++ beBytes 4 d.count ++ beBytes 8 d.start ++ beBytes 2 d.ctx ++ beBytes 2 d.flags
    ++ beBytes 4 d.take

/-- The table's 256 bytes before the directory. -/
def tableHead (fmt entries seq cartridge stream cont fill : Nat) (iv : Bytes) (macId : Nat) (tag : Bytes) (time initCount gen num count : Nat) :
    Bytes :=
  beBytes 4 0x53524631 ++ beBytes 1 fmt ++ beBytes 1 1 ++ beBytes 2 entries ++ beBytes 4 seq ++ beBytes 4 0 ++ beBytes 8 cartridge
    ++ beBytes 8 stream ++ beBytes 4 cont ++ beBytes 4 fill ++ fitBytes 12 iv ++ beBytes 2 macId ++ beBytes 2 0 ++ fitBytes 16 tag
    ++ beBytes 8 time ++ beBytes 2 initCount ++ beBytes 2 0 ++ beBytes 4 gen ++ beBytes 2 num ++ beBytes 2 count ++ zeroBytes 164

/-- The whole table of a data DS. -/
def dsTable (d : OpenDs) (seq cartridge stream : Nat) (iv : Bytes) (macId : Nat) (tag : Bytes) (time initCount : Nat) : Bytes :=
  tableHead 0x11 d.dir.length seq cartridge stream d.cont (d.fill.getD dsPayload) iv macId tag time initCount 0 0 0
    ++ fitBytes 65280 (d.dir.flatMap DirEntry.bytes)

/-- The whole table of index DS `num` of `count` of a generation; payload bytes from `fill` on are fill (R37, R38, R68, R95). -/
def indexTable (gen num count cartridge fill : Nat) (iv : Bytes) (macId : Nat) (tag : Bytes) (time initCount : Nat) : Bytes :=
  tableHead 0x12 0 (gen % 4096 * 4096 + num) cartridge 0 0 fill iv macId tag time initCount gen num count ++ zeroBytes 65280

/-- The message a DS tag authenticates: payload, then the table with its tag field zero (R41). -/
def gmacMessage (info : Bytes) : Bytes :=
  info.take dsPayload ++ (let t := info.drop dsPayload; t.take 0x38 ++ zeroBytes 16 ++ t.drop 0x48)

/-! ### Data set to rows (R43 to R45) -/

/-- Where information byte `b` goes: SDS, row, byte of the row's information. -/
def placeOf (b : Nat) : Nat × Nat × Nat := (b / 100352, b % 100352 / 896, b % 100352 % 896)

/-- The 896 information bytes of row `r` (below 112) of SDS `s`. -/
def infoRow (info : Bytes) (s r : Nat) : Bytes := fitBytes 896 (slice info (100352 * s + 896 * r) 896)

/-- Bytes as field elements and back. -/
def toNats (b : Bytes) : List Nat := b.map BitVec.toNat
/-- Field elements as bytes. -/
def ofNats (l : List Nat) : Bytes := l.map (BitVec.ofNat 8)

/-- Column `v` of an SDS: its 112 information symbols. -/
def sdsColumn (info : Bytes) (s v : Nat) : List Nat := (List.range 112).map (fun r => (info.getD (100352 * s + 896 * r + v) 0).toNat)

/-- Symbol of row `r` (0 to 127) in column `v`: information, then C2 parity (R44). -/
def sdsSymbol (info : Bytes) (s r v : Nat) : Nat := (rsEncode 16 (sdsColumn info s v)).getD r 0

/-- The 896 information bytes of any of the 128 rows of an SDS, parity rows included. -/
def sdsRow (info : Bytes) (s r : Nat) : Bytes :=
  if r < 112 then infoRow info s r else ofNats ((List.range 896).map (sdsSymbol info s r))

/-- The four C1 codewords' information symbols of a row: codeword `w` takes the bytes `v` with `v mod 4 = w` (R43). -/
def c1Info (row : Bytes) (w : Nat) : List Nat := (List.range 224).map (fun i => (row.getD (4 * i + w) 0).toNat)

/-- The 960 C1 bytes of a row: C1 byte `j` is symbol `j div 4` of codeword `j mod 4` (R45). -/
def c1Row (row : Bytes) : Bytes :=
  let cws := (List.range 4).map (fun w => rsEncode 16 (c1Info row w))
  (List.range 960).map (fun j => BitVec.ofNat 8 ((cws.getD (j % 4) []).getD (j / 4) 0))

/-! ### Row header (R46, R47) -/

/-- The 8 information bytes of a row header. -/
def rowHeaderInfo (seq s r : Nat) (rewrite : Bool) (wrap chan fmt : Nat) : Bytes :=
  beBytes 3 (seq % 2 ^ 24) ++ beBytes 1 (8 * s + s / 4) ++ beBytes 1 (2 * r + rewrite.toNat) ++ beBytes 1 wrap ++ beBytes 2 (128 * chan + fmt)

/-- The 12 bytes of a row header: information and RS(12,8) parity. -/
def rowHeader (seq s r : Nat) (rewrite : Bool) (wrap chan fmt : Nat) : Bytes :=
  ofNats (rsEncode 4 (toNats (rowHeaderInfo seq s r rewrite wrap chan fmt)))

/-- Format code of a copy (R47). -/
def fmtOf (k : DsKind) (m : Nat) : Nat :=
  match k with
  | .data => 0x11
  | .index => 0x12
  | .parity0 => 0x40 + m - 1
  | .parity1 => 0x60 + m - 1

/-- DS kind and group size a format code stands for; none for a code that is not listed (R47). -/
def fmtKind (f : Nat) : Option (DsKind × Nat) :=
  if f = 0x11 then some (.data, 0)
  else if f = 0x12 then some (.index, 0)
  else if 0x40 ≤ f && f ≤ 0x5D then some (.parity0, f - 0x40 + 1)
  else if 0x60 ≤ f && f ≤ 0x7D then some (.parity1, f - 0x60 + 1)
  else none

/-- Fields of a decoded row header. -/
structure RowHead where
  /-- Sequence field. -/
  seq : Nat
  /-- SDS index. -/
  sds : Nat
  /-- Slot. -/
  slot : Nat
  /-- Row index. -/
  row : Nat
  /-- Rewrite flag. -/
  rewrite : Bool
  /-- Wrap. -/
  wrap : Nat
  /-- Channel. -/
  chan : Nat
  /-- Format code. -/
  fmt : Nat
  deriving DecidableEq, Repr

/-- Read the fields of a row header. -/
def RowHead.of (h : Bytes) : RowHead :=
  { seq := beAt h 0 3, sds := beAt h 3 1 / 8, slot := beAt h 3 1 % 8, row := beAt h 4 1 / 2, rewrite := beAt h 4 1 % 2 = 1, wrap := beAt h 5 1,
    chan := beAt h 6 2 / 128, fmt := beAt h 6 2 % 128 }

/-! ### Interleave (R48) -/

/-- Channel of row `r` of SDS `s`. -/
def chanOf (s r : Nat) : Nat := 32 * ((r + s / 4) % 16) + 4 * (r / 16) + s % 4

/-- SDS and row that channel `c` carries in slot `k`. -/
def rowAt (c k : Nat) : Nat × Nat := (4 * k + c % 4, 16 * (c % 32 / 4) + (c / 32 + 16 - k % 16) % 16)

/-! ### Scrambler (R50, R51) -/

/-- Seed of a row. -/
def scrSeed (q n c : Nat) : Nat := (0x400000 + q * 2 ^ 21 + n * 2 ^ 9 + c) % 2 ^ 23

/-- Scrambled bits of a run of bits. -/
def scrBits : Nat → List Bool → List Bool
  | _, [] => []
  | s, d :: ds =>
    let f := (Nat.testBit s 22) ^^ (Nat.testBit s 4)
    (d ^^ f) :: scrBits ((2 * s + f.toNat) % 2 ^ 23) ds

/-- Bits of bytes, first byte first, most significant bit first (R6). -/
def bitsOfBytes (b : Bytes) : List Bool := b.flatMap (fun x => msbBits 8 x.toNat)

/-- Bytes of bits, eight at a time. -/
def bytesOfBits : Nat → List Bool → Bytes
  | 0, _ => []
  | n + 1, l => BitVec.ofNat 8 (ofMsbBits (l.take 8)) :: bytesOfBits n (l.drop 8)

/-- Scramble or descramble row bytes: the operation is its own inverse. -/
def scramble (seed : Nat) (b : Bytes) : Bytes := bytesOfBits b.length (scrBits seed (bitsOfBytes b))

/-! ### Channel patterns (R53, R54) -/

/-- Insert a 1 after every 32 bits, `n` being the bits already counted. -/
def insertOnes : Nat → List Bool → List Bool
  | _, [] => []
  | n, d :: ds => if n + 1 = 32 then d :: true :: insertOnes 0 ds else d :: insertOnes (n + 1) ds

/-- Remove the inserted ones again. -/
def removeOnes : Nat → List Bool → List Bool
  | _, [] => []
  | n, d :: ds => if n = 32 then removeOnes 0 ds else d :: removeOnes (n + 1) ds

/-- Preamble. -/
def patPreamble : List Bool := (List.range 120).map (fun i => i % 4 = 0)
/-- Sync mark. -/
def patSync : List Bool := msbBits 40 0x8000000009
/-- Resync mark. -/
def patResync : List Bool := msbBits 24 0x800005
/-- Pad. -/
def patPad : List Bool := msbBits 24 0x888888
/-- DS separator. -/
def patSeparator : List Bool := (List.range 480).map (fun i => i % 6 = 0)

/-- Channel bits of one row: preamble, sync, the coded bits with the resync mark after those of row byte 485, pad. -/
def rowChannel (seed : Nat) (row : Bytes) : List Bool :=
  let coded := insertOnes 0 (scrBits seed (bitsOfBytes row))
  patPreamble ++ patSync ++ coded.take 4009 ++ patResync ++ coded.drop 4009 ++ patPad

/-- Row bit `b` as the coded index, when it maps to one (R134). -/
def codedIndex (b : Nat) : Option Nat :=
  if 160 ≤ b && b ≤ 4168 then some (b - 160) else if 4193 ≤ b && b ≤ 8202 then some (b - 4193 + 4009) else none

/-- Row byte of a row bit (R134). -/
def rowByteOf (b : Nat) : Option Nat := (codedIndex b).map (fun u => (32 * (u / 33) + min (u % 33) 31) / 8)

/-! ### A copy on its channels -/

/-- The row bytes of SDS `s`, row `r` of a DS with information `info`: header, then C1 bytes (R45). -/
def dsRow (info : Bytes) (seq : Nat) (s r : Nat) (rewrite : Bool) (wrap fmt : Nat) : Bytes :=
  rowHeader seq s r rewrite wrap (chanOf s r) fmt ++ c1Row (sdsRow info s r)

/-- What channel `c` carries in slot `k` of a copy. -/
def slotBits (info : Bytes) (seq : Nat) (rewrite : Bool) (wrap fmt c k : Nat) : List Bool :=
  let p := rowAt c k
  rowChannel (scrSeed (seq % 2) (128 * p.1 + p.2) c) (dsRow info seq p.1 p.2 rewrite wrap fmt)

/-- The 66,296 channel bits of a copy on channel `c` (R54). -/
def laneBits (info : Bytes) (seq : Nat) (rewrite : Bool) (wrap fmt c : Nat) : List Bool :=
  patSeparator ++ (List.range 8).flatMap (slotBits info seq rewrite wrap fmt c)

/-! ### C3 (R57) -/

/-- The two C3 parity bytes over the bytes at one place of the group's data DS, first DS first. -/
def c3Parity (col : List Nat) : Nat × Nat :=
  let p := rsParity 2 col
  (p.getD 0 0, p.getD 1 0)

/-- Information bytes of parity DS 0 or 1 of a group, from those of its data DS: C3 is applied byte by byte (R54 note, R57). -/
def c3Info (ds : List Bytes) (second : Bool) : Bytes :=
  (List.range dsInfo).map (fun b =>
    let p := c3Parity (ds.map (fun d => (d.getD b 0).toNat))
    BitVec.ofNat 8 (if second then p.2 else p.1))

/-! ### Positions on tape (R66, R67); distances in nm from TPN 0 -/

/-- One DS slot, 66,296 channel bits of 15 nm. -/
abbrev slotNm : Nat := 994440

/-- Forward wraps are the even ones (R64). -/
def wrapForward (w : Nat) : Bool := w % 2 = 0

/-- Data slot of a position (R66). -/
def slotOf (wrap pos : Nat) : Nat := if wrapForward wrap then pos else wrapPositions - 1 - pos

/-- Leading edge of a data position: the edge of its slot met first in the direction of travel. -/
def posNm (wrap pos : Nat) : Nat :=
  if wrapForward wrap then 8608000000 + slotNm * pos else 8608000000 + slotNm * (wrapPositions - pos)

/-- Leading edge of an index position (R67). -/
def indexNm (wrap pos : Nat) : Nat :=
  if wrapForward wrap then 512000000 + slotNm * pos else 512000000 + slotNm * (indexPositions - pos)

/-- Lower edge of servo band `i`, in units of 0.1 µm from the tape edge next to S0: above the edge guard (R63). -/
def servoBandEdge (i : Nat) : Nat := 2128 + 15504 * i
/-- Width of a servo band, 0.1 µm (R63). -/
abbrev servoBandWidth : Nat := 1680
/-- Width of an edge guard, 0.1 µm (R63). -/
abbrev edgeGuard : Nat := 2128
/-- Lower edge of data band `m`, 0.1 µm (R63). -/
def dataBandEdge (m : Nat) : Nat := 3808 + 15504 * m
/-- Width of a data band, 0.1 µm (R63). -/
abbrev dataBandWidth : Nat := 13824
/-- Lower edge of the sub-band of channel `c`, 0.1 µm (R63). -/
def subBandEdge (c : Nat) : Nat := dataBandEdge (c / 32) + 432 * (c % 32)
/-- Lower edge of the track of wrap `w` in the sub-band of channel `c`, 0.1 µm: a pitch of 0.90 µm, written 0.84 µm wide (R63). -/
def trackEdge (c w : Nat) : Nat := subBandEdge c + 9 * w

/-- Servo bands that the two readers of module `m` read (R63). -/
def servoBandsOf (m : Nat) : Nat × Nat := (m, m + 1)

/-- Track centre of channel `c` on wrap `w`, in units of 50 nm from the reference edge (R64). -/
def trackCentre (c w : Nat) : Nat := 7616 + 31008 * (c / 32) + 864 * (c % 32) + 18 * w + 9

/-- Position of data DS `q` on a cartridge recorded without rewrites and appends: wrap and position (R66). -/
def idealPosition (q : Nat) : Nat × Nat := (q / 720000, 32 * (q % 720000 / 30) + q % 30)

end Sys2Proof.Machine
end

