-- ==== Sys2Proof/Config.lean ====
section
/-! DEFINITION. What one part fixes and the manual does not: constants without a body, so that nothing can be proved of their
values. A free value is one of these applied to the counter `State.freeCtr`, which every draw advances (log 2). -/

namespace Sys2Proof

/-- Byte `j` of draw `n` of the true random number generator (R281). Nothing is known of it. -/
opaque Config.trng : Nat → Nat → Byte

/-- The device root key K_root, 32 bytes of fuses (R258). -/
opaque Config.rootKey : Nat → Byte

/-- The device identity in the fuses (R260). -/
opaque Config.fuseId : Nat

/-- The Irurys public key that signs kernel images and patch packages: the uncompressed point's 96 bytes (R363, R441). -/
opaque Config.signKey : Nat → Byte

/-- The version of the ROM firmware, against which a patch package is checked (R441). -/
opaque Config.romVersion : Nat

/-- Byte `i` of the image of ROM kernel `n` (R379). -/
opaque Config.romKernel : Nat → Nat → Byte

/-- Serial number, model number and firmware revision as Identify reports them: byte `i` (R352; the manual states none of them). -/
opaque Config.identity : Nat → Byte

/-- Byte `i` of Identify structure `cns` for `nsid` where the manual states no value (R352). -/
opaque Config.identifyRest : Nat → Nat → Nat → Byte

/-- Byte `i` of log page `lid` where the manual states no value: the NVM Express pages 03h and 05h and the reserved bytes of the
others (R356). -/
opaque Config.logRest : Nat → Nat → Byte

/-- The model estimate of loop L2 or L5 at a step: the manual says what it is computed from, not how (R193). The arguments are the slot, the
constants of CTL_MDL it uses (R436), and the readings with the previous estimate in front. -/
opaque Config.modelStep : Nat → List Nat → List Int → Int

/-- The common term of the radius probe's open-loop currents, mA: it moves the tape in the direction of the second argument; the manual says no more
of it (R206). The first argument is the list of CTL_MDL constants. -/
opaque Config.probeTerm : List Nat → Int → Int

/-- Which of several equally short length-limited codes an engine builds for a histogram of the 17 classes (R239 asks for a least coded
size and does not say which code reaches it). -/
opaque Config.codeChoice : List Nat → List Nat

/-- Byte `i` of the first counter block of a service pool CTR request whose word 3 is the first argument (R276, R277: word 3 is
"operation-specific" and the manual does not say how). -/
opaque Config.ctrBlock : Nat → Nat → Byte

/-- Phase error of a bit sample in 1/64 of a bit, from the equaliser's output and its ideal level at the bit before and at this one (R119 asks for a
second-order loop and does not name its phase detector). -/
opaque Config.phaseError : Int → Int → Int → Int → Int

/-- Gains of the timing loop: what 1/64 of a bit of phase error adds to the next interval, in 1/65,536 of a sample, and to the residual, in 1/2^20 of the
period. The argument is the gain set, 0 acquisition, 1 preamble, 2 tracking (R119 names the sets and gives no gains). -/
opaque Config.loopGains : Nat → Int × Int

/-- A value that the manual leaves open, by what it is for and the count of draws so far. -/
opaque Config.free : Nat → Nat → Nat

end Sys2Proof
end

