-- ==== Sys2Proof/Machine/Flags.lean ====
section
/-! DEFINITION. Statuses of completions with their Do Not Retry bits (R514), and the numbers by which the manual reports the magazine
state, the transport sub-state, the zone states and the contexts. -/

namespace Sys2Proof.Machine

/-- A status: code type, code and Do Not Retry bit. -/
structure Status where
  /-- Status code type. -/
  sct : Nat
  /-- Status code. -/
  sc : Nat
  /-- Do Not Retry. -/
  dnr : Bool
  deriving DecidableEq, Repr

/-- Successful Completion. -/
def stOk : Status := ⟨0, 0x00, false⟩
/-- Invalid Command Opcode (R352). -/
def stOpcode : Status := ⟨0, 0x01, true⟩
/-- Invalid Field in Command. -/
def stField : Status := ⟨0, 0x02, true⟩
/-- Data Transfer Error (R332). -/
def stTransfer : Status := ⟨0, 0x04, false⟩
/-- Internal Error (R283, R511). -/
def stInternal : Status := ⟨0, 0x06, false⟩
/-- Command Abort Requested (R367). -/
def stAborted : Status := ⟨0, 0x07, false⟩
/-- Command Aborted due to SQ Deletion (R349). -/
def stSqDeleted : Status := ⟨0, 0x08, false⟩
/-- Invalid Namespace or Format. -/
def stNamespace : Status := ⟨0, 0x0B, true⟩
/-- Command Sequence Error. -/
def stSequence : Status := ⟨0, 0x0C, false⟩
/-- Namespace is Write Protected. -/
def stProtected : Status := ⟨0, 0x20, true⟩
/-- LBA Out of Range. -/
def stRange : Status := ⟨0, 0x80, true⟩
/-- Capacity Exceeded. -/
def stCapacity : Status := ⟨0, 0x81, true⟩
/-- Namespace Not Ready, always with the Do Not Retry bit clear. -/
def stNotReady : Status := ⟨0, 0x82, false⟩
/-- Invalid Queue Identifier (R328). -/
def stQueueId : Status := ⟨1, 0x01, true⟩
/-- Invalid Queue Size (R328). -/
def stQueueSize : Status := ⟨1, 0x02, true⟩
/-- Abort Command Limit Exceeded (R348). -/
def stAbortLimit : Status := ⟨1, 0x03, false⟩
/-- Asynchronous Event Request Limit Exceeded, as NVM Express numbers it; the manual's list of statuses has no entry for it
(PRESUMED, log 34). -/
def stAerLimit : Status := ⟨1, 0x05, false⟩
/-- Invalid Firmware Slot (R350). -/
def stFwSlot : Status := ⟨1, 0x06, true⟩
/-- Invalid Firmware Image (R350). -/
def stFwImage : Status := ⟨1, 0x07, true⟩
/-- Invalid Interrupt Vector (R468). -/
def stVector : Status := ⟨1, 0x08, true⟩
/-- Invalid Log Page (R356). -/
def stLogPage : Status := ⟨1, 0x09, true⟩
/-- Invalid Format (R273, R341). -/
def stFormat : Status := ⟨1, 0x0A, true⟩
/-- Invalid Queue Deletion (R349). -/
def stQueueDelete : Status := ⟨1, 0x0C, true⟩
/-- Feature Identifier Not Saveable (R353). -/
def stNotSaveable : Status := ⟨1, 0x0D, true⟩
/-- Firmware Activation Requires Controller Level Reset (R351). -/
def stFwReset : Status := ⟨1, 0x11, false⟩
/-- Firmware Activation Prohibited (R351). -/
def stFwProhibited : Status := ⟨1, 0x13, false⟩
/-- Zone Boundary Error. -/
def stZoneBoundary : Status := ⟨1, 0xB8, true⟩
/-- Zone Is Full. -/
def stZoneFull : Status := ⟨1, 0xB9, true⟩
/-- Zone Is Offline. -/
def stZoneOffline : Status := ⟨1, 0xBB, true⟩
/-- Zone Invalid Write. -/
def stZoneWrite : Status := ⟨1, 0xBC, true⟩
/-- Too Many Active Zones. -/
def stZoneActive : Status := ⟨1, 0xBD, false⟩
/-- Too Many Open Zones. -/
def stZoneOpen : Status := ⟨1, 0xBE, false⟩
/-- Invalid Zone State Transition. -/
def stZoneTransition : Status := ⟨1, 0xBF, true⟩
/-- Kernel Image Rejected (R364). -/
def stKernelImage : Status := ⟨1, 0xC0, true⟩
/-- Kernel Instance Not Loaded (R367, R369). -/
def stKernelNone : Status := ⟨1, 0xC1, true⟩
/-- Kernel Instance Frozen (R369). -/
def stKernelFrozen : Status := ⟨1, 0xC2, true⟩
/-- Kernel Binding Invalid (R369). -/
def stKernelBinding : Status := ⟨1, 0xC6, true⟩
/-- Kernel Trap (R377). -/
def stKernelTrap : Status := ⟨1, 0xC3, false⟩
/-- Kernel Resources Unavailable (R364, R369). -/
def stKernelResources : Status := ⟨1, 0xC5, false⟩
/-- Kernel Time Limit Exceeded (R377). -/
def stKernelTime : Status := ⟨1, 0xC4, false⟩
/-- Parameter Unknown (R485). -/
def stParamUnknown : Status := ⟨1, 0xC8, true⟩
/-- Parameter Index Invalid (R485). -/
def stParamIndex : Status := ⟨1, 0xC9, true⟩
/-- Parameter Value Invalid (R485). -/
def stParamValue : Status := ⟨1, 0xCA, true⟩
/-- Parameter Busy (R485). -/
def stParamBusy : Status := ⟨1, 0xCB, false⟩
/-- Parameter Read Only (R485). -/
def stParamReadOnly : Status := ⟨1, 0xCC, true⟩
/-- Commit Group Inconsistent (R485). -/
def stParamGroup : Status := ⟨1, 0xCD, true⟩
/-- Unrecovered Read Error, with the Do Not Retry bit its rule gives (R167, R295, R310). -/
def stRead (dnr : Bool) : Status := ⟨2, 0x81, dnr⟩
/-- Access Denied. -/
def stDenied : Status := ⟨2, 0x86, false⟩

/-- Index of a magazine state in the table of R23: OFF is 0, DRAIN is 12 (R453). -/
def MagState.index : MagState → Nat
  | .off => 0 | .island => 1 | .boot => 2 | .safe => 3 | .ready => 4 | .tensioned => 5 | .spooling => 6 | .crawl => 7
  | .parked => 8 | .playback => 9 | .locating => 10 | .service => 11 | .drain => 12

/-- Code of a zone state in a zone descriptor, as the Zoned Namespace Command Set numbers them. -/
def ZState.code : ZState → Nat
  | .empty => 0x1 | .implicit => 0x2 | .explicit => 0x3 | .closed => 0x4 | .readOnly => 0xD | .full => 0xE | .offline => 0xF

/-- Value of C3h for a context (R355). -/
def Ctx.code : Ctx → Nat
  | .camera => 0 | .dock => 1 | .service => 2 | .none => 3

/-- The zone is open. -/
def ZState.isOpen (z : ZState) : Bool := z = .implicit || z = .explicit

/-- The zone counts as active: open or closed. -/
def ZState.isActive (z : ZState) : Bool := z.isOpen || z = .closed

end Sys2Proof.Machine
end

