-- ==== Sys2Proof/Machine/Queue.lean ====
section
/-! DEFINITION. One stream FIFO by itself (chapter "Stream FIFOs"): roles, the full condition, what a clock does with a pointer-check reset, a
retention operation, a read and a write (R103 to R111), and the packets the device's own blocks put in. A FIFO's words run from L to W; on every
FIFO but 66 a read frees its word, so L, M and P coincide. -/

namespace Sys2Proof.Machine

/-! ### Roles (R101) -/

/-- The device has FIFOs 0 to 95. -/
def fifoExists (n : Nat) : Bool := decide (n < 96)

/-- FIFOs 80 to 95 drop what they cannot hold; the others hold their producer back. -/
def fifoOverrun (n : Nat) : Bool := decide (80 ≤ n)

/-- The eight privileged FIFOs. -/
def fifoPrivileged (n : Nat) : Bool := [61, 62, 63, 71, 72, 73, 74, 75].contains n

/-- FIFOs whose body extends into the buffer. -/
def fifoExtended (n : Nat) : Bool := n = 64 || n = 66 || n = 68 || n = 76 || (80 ≤ n && n ≤ 87) || (92 ≤ n && n ≤ 95)

/-- Words of every packet of an overrun FIFO. -/
def fifoPacket (n : Nat) : Nat := if n ≤ 87 then 2 else if n ≤ 91 then 4 else 8

/-- Words stored, retained ones included. -/
def Fifo.fill (f : Fifo) : Nat := f.words.length

/-- End-marked words stored and not yet read (R103). -/
def Fifo.packets (f : Fifo) : Nat := (f.words.drop f.p).countP (fun w => w.last)

/-- A full body: no free word on a back-pressure FIFO, fewer free words than a packet on an overrun FIFO (R105, R106). -/
def fifoFull (n depth : Nat) (f : Fifo) : Bool :=
  if fifoOverrun n then decide (depth < f.fill + fifoPacket n) else decide (depth ≤ f.fill)

/-- A word is readable at the head: its packet's end mark is stored, or on a privileged FIFO the cut-through rule is met (R103, R107). -/
def fifoReadable (n : Nat) (f : Fifo) : Bool :=
  let w := f.words.drop f.p
  match w with
  | [] => false
  | _ => f.packets != 0 || (fifoPrivileged n && f.thr != 0 && (f.headRead != 0 || decide (f.thr ≤ w.length)))

/-- The word as its producer must form it: 256 bits in a data FIFO, 64 in a descriptor FIFO; a byte count only in an end-marked data
word (R101, R102). -/
def fifoWord (n payload : Nat) (last : Bool) (count : Nat) : FWord :=
  { payload := payload % 2 ^ (if n < 64 then 256 else 64), last, count := if n < 64 && last then count % 32 else 0 }

/-! ### Writing (R102, R105, R106) -/

/-- Store one word; the cut-through threshold is latched when it starts the packet at the head (R113). -/
def Fifo.store (f : Fifo) (thr : Nat) (w : FWord) : Fifo :=
  let f1 := { f with words := f.words ++ [w], thr := if f.words.length = f.p && f.headRead = 0 then thr else f.thr }
  { f1 with peak := max f1.peak f1.fill }

/-- The first word of a packet is about to arrive: the FIFO is empty or its newest word ended a packet. -/
def Fifo.atStart (f : Fifo) : Bool :=
  match f.words.getLast? with
  | some w => w.last
  | none => f.headRead = 0

/-- A word that a FIFO takes: stored, or on an overrun FIFO ignored with the rest of its packet when that arrived at a full body, which is counted
and sets the overrun bit. The second part says that the bit went from 0 to 1 (R106, R112). -/
def fifoAdmit (n depth thr : Nat) (f : Fifo) (w : FWord) : Fifo × Bool :=
  if f.dropping then ({ f with dropping := !w.last }, false)
  else if fifoOverrun n && f.atStart && fifoFull n depth f then
    ({ f with dropping := !w.last, drops := min 65535 (f.drops + 1), sticky := f.sticky ||| 1 }, f.sticky % 2 = 0)
  else (f.store thr w, false)

/-- The FIFO holds its producer back: halted, or a full back-pressure FIFO (R105, R111). -/
def fifoStalls (n depth : Nat) (f : Fifo) : Bool := f.halted || (!fifoOverrun n && fifoFull n depth f)

/-- The words a producer presents one after another, as far as the FIFO takes them; the first it does not take waits with those behind it, so that
no word is lost (R105). -/
def fifoFeed (n depth thr : Nat) : List FWord → Fifo → Fifo × Bool
  | [], f => ({ f with held := [] }, false)
  | w :: ws, f =>
    if fifoStalls n depth f then ({ f with held := w :: ws }, false)
    else
      let r := fifoAdmit n depth thr f w
      let q := fifoFeed n depth thr ws r.1
      (q.1, r.2 || q.2)

/-- What a write does: the word goes behind those the producer already holds, and they go in as far as there is room. -/
def fifoPut (n depth thr : Nat) (f : Fifo) (ws : List FWord) : Fifo × Bool := fifoFeed n depth thr (f.held ++ ws) f

/-! ### Reading (R104) -/

/-- A read: the head word, or a not-valid word that changes nothing. FIFO 66 keeps the word; every other FIFO frees it. -/
def fifoGet (n thr : Nat) (f : Fifo) : Fifo :=
  if !f.halted && fifoReadable n f then
    match f.words.drop f.p with
    | w :: _ =>
      let hr := if w.last then 0 else f.headRead + 1
      if n = 66 then { f with p := f.p + 1, out := some w, headRead := hr }
      else { f with words := f.words.drop 1, lp := f.lp + 1, out := some w, headRead := hr, thr := if w.last then thr else f.thr }
    | [] => { f with out := none }
  else { f with out := none }

/-! ### Retention on FIFO 66 (R108) -/

/-- The retention operations. -/
inductive RetOp where
  | advance | rewindMark | release (k : Nat) | rewindRelease
  deriving DecidableEq, Repr

/-- Words up to and including the `k`-th end mark of a list of words; none when there are fewer. -/
def packetWords : Nat → List FWord → Option Nat
  | 0, _ => some 0
  | _ + 1, [] => none
  | k + 1, w :: ws => if w.last then (packetWords k ws).map (· + 1) else (packetWords (k + 1) ws).map (· + 1)

/-- ADVANCE: M moves past the next end mark; refused when M = P. -/
def Fifo.advance (f : Fifo) : Option Fifo :=
  if f.m = f.p then none
  else
    match packetWords 1 ((f.words.drop f.m).take (f.p - f.m)) with
    | some j => some { f with m := f.m + j }
    | none => some { f with m := f.p }

/-- REWIND_MARK: P = M. -/
def Fifo.rewindMark (f : Fifo) : Fifo := { f with p := f.m, headRead := 0 }

/-- RELEASE k: L moves past k end marks; refused when this would move L past M, or k is not 1 to 64. -/
def Fifo.release (f : Fifo) (k : Nat) : Option Fifo :=
  if k = 0 || 64 < k then none
  else
    match packetWords k (f.words.take f.m) with
    | some j => some { f with words := f.words.drop j, lp := f.lp + j, m := f.m - j, p := f.p - j }
    | none => none

/-- REWIND_RELEASE: P = L and M = L. -/
def Fifo.rewindRelease (f : Fifo) : Fifo := { f with p := 0, m := 0, headRead := 0 }

/-- A retention operation: the new FIFO, none where it is refused. -/
def Fifo.retain (f : Fifo) : RetOp → Option Fifo
  | .advance => f.advance
  | .rewindMark => some f.rewindMark
  | .release k => f.release k
  | .rewindRelease => some f.rewindRelease

/-! ### Pointer faults (R111, R112) -/

/-- What a pointer mismatch resets: the contents and every pointer are gone, the overrun bit is cleared. The rest of a packet being ignored stays
ignored (R106), and what a stalled producer holds is not in the FIFO. -/
def Fifo.wiped (f : Fifo) : Fifo := { f with lp := 0, words := [], m := 0, p := 0, sticky := f.sticky &&& 14, headRead := 0, out := none }

/-- A FIFO reset by a pointer mismatch and not yet halted: its mismatch bit is set. -/
def Fifo.mismatch (f : Fifo) : Fifo := { f.wiped with sticky := f.wiped.sticky ||| 2 }

/-- A FIFO reset by a buffer access error on its extended body, not yet halted: its buffer error bit is set. -/
def Fifo.bufferError (f : Fifo) : Fifo := { f.wiped with sticky := f.wiped.sticky ||| 8 }

/-! ### One clock (R110) -/

/-- What one clock presents to a FIFO: a pointer-check reset, a retention operation, a read, and the words a producer presents from this clock on. -/
structure FifoClock where
  /-- The two copies of a pointer differ. -/
  reset : Bool
  /-- A retention operation. -/
  op : Option RetOp
  /-- A read. -/
  read : Bool
  /-- Words written. -/
  write : List FWord
  deriving DecidableEq, Repr

/-- What a clock of a FIFO answers. -/
structure FifoAnswer where
  /-- The FIFO after it. -/
  fifo : Fifo
  /-- The overrun bit went from 0 to 1. -/
  overrun : Bool
  /-- The retention operation was refused. -/
  refused : Bool
  deriving DecidableEq, Repr

/-- The first part of a clock: the pointer-check reset, which also halts the FIFO. -/
def Fifo.clockReset (f : Fifo) (reset : Bool) : Fifo := if reset then { f.mismatch with halted := true } else f

/-- The second part of a clock: a retention operation, beside which a read is refused with a not-valid word and nothing else; or a read. -/
def Fifo.clockRead (n thr : Nat) (f : Fifo) (op : Option RetOp) (read : Bool) : Fifo × Bool :=
  match op with
  | some o =>
    let f1 := if read then { f with out := none } else f
    match f1.retain o with
    | some g => (g, false)
    | none => ({ f1 with sticky := f1.sticky ||| 4 }, true)
  | none => (if read then fifoGet n thr f else f, false)

/-- One clock of a FIFO, in the order of R110: reset, then retention operation or read, then write. A write finds the room that this clock's read has
freed; a producer held before presents its word in every clock, so what it holds goes in here as well, and the words behind in the clocks after. -/
def fifoClock (n depth thr : Nat) (f : Fifo) (c : FifoClock) : FifoAnswer :=
  let r := (f.clockReset c.reset).clockRead n thr c.op c.read
  let w := fifoPut n depth thr r.1 c.write
  { fifo := w.1, overrun := w.2, refused := r.2 }

/-! ### Packets of the device's own blocks -/

/-- A packet of 64-bit words: the end mark on the last. -/
def descPacket : List Nat → List FWord
  | [] => []
  | [x] => [{ payload := x % 2 ^ 64, last := true, count := 0 }]
  | x :: xs => { payload := x % 2 ^ 64, last := false, count := 0 } :: descPacket xs

/-- Words of a byte string in a data FIFO, 32 bytes each, lowest byte first; `fuel` bounds their number. -/
def dataWords : Nat → Bytes → List FWord
  | 0, _ => []
  | _ + 1, [] => []
  | n + 1, bs =>
    if bs.length ≤ 32 then [{ payload := leNat bs, last := true, count := bs.length % 32 }]
    else { payload := leNat (bs.take 32), last := false, count := 0 } :: dataWords n (bs.drop 32)

/-- The packet of a byte string in a data FIFO (R102). -/
def dataPacket (bs : Bytes) : List FWord := dataWords (bs.length / 32 + 1) bs

/-- The bytes a packet of a data FIFO carries: 32 of each word but the end-marked one, whose count says. -/
def packetBytes (ws : List FWord) : Bytes :=
  ws.flatMap (fun w => leBytes (if w.last && w.count != 0 then w.count else 32) w.payload)

/-- The complete packets at the head of a list of words, and the words of an incomplete one behind them; `acc` is the packet being gathered. -/
def splitPackets : List FWord → List FWord → List (List FWord) × List FWord
  | acc, [] => ([], acc)
  | acc, w :: ws =>
    if w.last then
      let r := splitPackets [] ws
      ((acc ++ [w]) :: r.1, r.2)
    else splitPackets (acc ++ [w]) ws

/-- The consumer of a FIFO other than 66 reads every complete packet: the packets, in order, and the FIFO without them. A halted FIFO gives none. -/
def Fifo.takePackets (thr : Nat) (f : Fifo) : List (List FWord) × Fifo :=
  if f.halted then ([], f)
  else
    let r := splitPackets [] f.words
    if r.1.isEmpty then (r.1, f)
    else (r.1, { f with words := r.2, lp := f.lp + (f.words.length - r.2.length), headRead := 0, thr })

/-- A unit of `k` words passes from producer to consumer, which reads as soon as it can: the pointers move past it and past what stood before it, and
the fill reaches `high` words beside that. -/
def Fifo.passes (f : Fifo) (k high : Nat) : Fifo :=
  { f with lp := f.lp + f.words.length + f.held.length + k, words := [], held := [], headRead := 0, peak := max f.peak (f.words.length + high) }

/-! ### Event records (R467) -/

/-- The two words of an event record. -/
def eventPacket (evt cause : Nat) (data : Bytes) : List FWord :=
  let d := fitBytes 12 data
  descPacket [evt % 2048 + 2048 * (cause % 16) + 65536 * leNat (d.take 6), leNat (d.drop 6)]

/-- The record a packet carries: event, cause and the twelve data bytes. -/
def eventOf (ws : List FWord) : Nat × Nat × Bytes :=
  let w0 := (ws.headD { payload := 0, last := true, count := 0 }).payload
  let w1 := ((ws.drop 1).headD { payload := 0, last := true, count := 0 }).payload
  (bitsOf w0 10 0, bitsOf w0 14 11, leBytes 6 (bitsOf w0 63 16) ++ leBytes 6 (bitsOf w1 47 0))

/-! ### Spool queue (R109) -/

/-- Code of a copy in the first word of its packet: kind, group size and sequence number (the model's own layout, log 23). -/
def Copy.word (c : Copy) : Nat :=
  (match c.kind with | .data => 0 | .index => 1 | .parity0 => 2 | .parity1 => 3) + 4 * c.m + 256 * c.seq

/-- The copy a first word stands for. -/
def Copy.ofWord (w : Nat) : Copy :=
  { kind := match w % 4 with | 0 => .data | 1 => .index | 2 => .parity0 | _ => .parity1, seq := w / 256, m := w / 4 % 64 }

/-- The eight words of a copy's packet. -/
def Copy.packet (c : Copy) : List FWord :=
  { payload := c.word, last := false, count := 0 } :: (List.range 7).map (fun i => { payload := 0, last := i = 6, count := 0 })

/-- Copies whose packets a run of words holds, first words first. -/
def copiesOf : Nat → List FWord → List Copy
  | 0, _ => []
  | _ + 1, [] => []
  | k + 1, w :: ws => Copy.ofWord w.payload :: copiesOf k (ws.drop 7)

/-- Every copy of a run of packets. -/
def copiesIn (ws : List FWord) : List Copy := copiesOf (ws.length / 8) ws

end Sys2Proof.Machine
end

