-- ==== Sys2Proof/Machine/Ops.lean ====
section
/-! DEFINITION. The named operations every meaning is written in: updates of one part of the state, parameters in effect (R474 to
R479), draws of free values, the magazine state, events and their journal (R467 to R470), asynchronous events (R358), held commands
and their completions (R329, R352). -/

namespace Sys2Proof.Machine

/-! ### Updates of one part -/

/-- Change the magazine level. -/
def State.modMag (s : State) (f : Mag → Mag) : State := { s with mag := f s.mag }
/-- Change the host interface. -/
def State.modNv (s : State) (f : Nvme → Nvme) : State := { s with nv := f s.nv }
/-- Change the take path. -/
def State.modSp (s : State) (f : Spool → Spool) : State := { s with sp := f s.sp }
/-- Change the read path. -/
def State.modRc (s : State) (f : ReadCh → ReadCh) : State := { s with rc := f s.rc }
/-- Change the control engine and transport. -/
def State.modCtl (s : State) (f : Ctl → Ctl) : State := { s with ctl := f s.ctl }
/-- Change the keys. -/
def State.modKeys (s : State) (f : Keys → Keys) : State := { s with keys := f s.keys }
/-- Change the Carousel. -/
def State.modCar (s : State) (f : Car → Car) : State := { s with car := f s.car }
/-- Change the compute cluster. -/
def State.modComp (s : State) (f : Comp → Comp) : State := { s with comp := f s.comp }
/-- Change the cluster cache. -/
def State.modCache (s : State) (f : Cache → Cache) : State := { s with cache := f s.cache }
/-- Change the power state. -/
def State.modPw (s : State) (f : Power → Power) : State := { s with pw := f s.pw }
/-- Change the configuration NOR. -/
def State.modNor (s : State) (f : Nor → Nor) : State := { s with nor := f s.nor }
/-- Change the events. -/
def State.modEv (s : State) (f : Events → Events) : State := { s with ev := f s.ev }
/-- Change the FIFOs. -/
def State.modFifos (s : State) (f : NMap Fifo → NMap Fifo) : State := { s with fifos := f s.fifos }

/-- Do `f` when `c` holds. -/
def State.when (s : State) (c : Bool) (f : State → State) : State := if c then f s else s

/-- Change the entry listed at `k` of a map, when there is one. -/
def NMap.modify {α : Type} (m : NMap α) (k : Nat) (f : α → α) : NMap α :=
  match NMap.find? m k with
  | some v => NMap.put m k (f v)
  | none => m

/-- Add to a counter of a map of counters. -/
def NMap.bump (m : NMap Nat) (k n : Nat) : NMap Nat := NMap.upd 0 m k (· + n)

/-- Add to a counter that saturates at `cap`. -/
def NMap.bumpSat (cap : Nat) (m : NMap Nat) (k n : Nat) : NMap Nat := NMap.upd 0 m k (fun v => min cap (v + n))

/-! ### Parameters -/

/-- Reset value of an element, as an element value (R476); 0 for an unknown PID. -/
def resetElem (pid i : Nat) : Nat :=
  match pdesc? pid with
  | some d => d.toElem (d.resetAt i)
  | none => 0

/-- Profile preset of an element: the profile's or a record's value, else the reset value (R474). -/
def State.presetElem (s : State) (pid i : Nat) : Nat := (NMap.find? s.presets (pkey pid i)).getD (resetElem pid i)

/-- Element in effect (R478). -/
def State.elem (s : State) (pid i : Nat) : Nat := (NMap.find? s.params (pkey pid i)).getD (s.presetElem pid i)

/-- Number an element value stands for (R476). -/
def elemInt (pid e : Nat) : Int :=
  match pdesc? pid with
  | some d => (d.ofElem e).getD 0
  | none => 0

/-- Value in effect of element `i` as a number, signed where the parameter is. -/
def State.pv (s : State) (pid i : Nat) : Int := elemInt pid (s.elem pid i)

/-- Value in effect of element `i` of an unsigned parameter. -/
def State.pni (s : State) (pid i : Nat) : Nat := (s.pv pid i).toNat

/-- Value in effect of an unsigned scalar parameter. -/
def State.pn (s : State) (pid : Nat) : Nat := s.pni pid 0

/-- Make `e` the element in effect; an element equal to its preset is not listed. -/
def State.setElem (s : State) (pid i e : Nat) : State :=
  { s with params := if e = s.presetElem pid i then NMap.del s.params (pkey pid i) else NMap.put s.params (pkey pid i) e }

/-- Make the number `v` the value in effect of element `i` (R476). -/
def State.setPv (s : State) (pid i : Nat) (v : Int) : State :=
  match pdesc? pid with
  | some d => s.setElem pid i (d.toElem v)
  | none => s

/-- Pending elements that `p` chooses, by PID and index, take effect: their boundary has come (R481). -/
def State.applyPend (s : State) (p : Nat → Nat → Bool) : State :=
  let now := s.pend.filter (fun e => p (e.1 / 2 ^ 20) (e.1 % 2 ^ 20))
  if now.isEmpty then s
  else
    let t := now.foldl (fun t e => t.setElem (e.1 / 2 ^ 20) (e.1 % 2 ^ 20) e.2) s
    { t with pend := s.pend.filter (fun e => !p (e.1 / 2 ^ 20) (e.1 % 2 ^ 20)) }

/-- Add to a counter that a read-only parameter shows, saturating at its field (R478). -/
def State.bumpPv (s : State) (pid i n : Nat) : State :=
  match pdesc? pid with
  | some d => s.setElem pid i (min (2 ^ d.field - 1) (s.elem pid i + n))
  | none => s

/-- Values of consecutive elements. -/
def State.pvs (s : State) (pid first count : Nat) : List Int := (List.range count).map (fun j => s.pv pid (first + j))

/-! ### Free values -/

/-- Advance the counter of free values. -/
def State.drawn (s : State) (n : Nat) : State := { s with freeCtr := s.freeCtr + n }

/-- The next free value for a use; the counter is advanced by `drawn`. -/
def State.free (s : State) (use : Nat) : Nat := Config.free use s.freeCtr

/-- `n` fresh bytes of the TRNG (R281). -/
def State.trngBytes (s : State) (n : Nat) : Bytes := (List.range n).map (Config.trng s.freeCtr)

/-! ### Time -/

/-- Real-time clock seconds (R417). -/
def State.rtcSec (s : State) : Nat := s.pw.rtc / 32768

/-- Seconds as a recorded structure carries them: bit 31 set while the clock is invalid (R417). -/
def State.stamp (s : State) : Nat :=
  if s.pw.rtcOk then s.rtcSec else (s.mag.ticks / 32768) % 2 ^ 31 + 2 ^ 31

/-- Milliseconds since BOOT (R470). -/
def State.msSinceBoot (s : State) : Nat := s.mag.ticks * 1000 / 32768

/-! ### Magazine state -/

/-- The magazine state. -/
def State.st (s : State) : MagState := s.mag.st

/-- Enter a magazine state (R23). -/
def State.enter (s : State) (m : MagState) : State := s.modMag (fun g => { g with st := m })

/-- States from READY to SERVICE of R23. -/
def MagState.working : MagState → Bool
  | .ready | .tensioned | .spooling | .crawl | .parked | .playback | .locating | .service => true
  | _ => false

/-- Ringmaster runs: the MGT domain is powered in every state but OFF and ISLAND (R17). -/
def MagState.alive : MagState → Bool
  | .off | .island => false
  | _ => true

/-- The tape moves in the sense of R351. -/
def TSub.moves : TSub → Bool
  | .probing | .finding | .moving | .stopping | .dwell | .dynamic => true
  | _ => false

/-- Code of a transport sub-state (R201). -/
def TSub.code : TSub → Nat
  | .braked => 0 | .tensioning => 1 | .probing => 2 | .finding => 3 | .held => 4 | .moving => 5 | .stopping => 6 | .dwell => 7
  | .releasing => 8 | .dynamic => 9

/-- The tape moves (R351). -/
def State.moves (s : State) : Bool := s.ctl.tsub.moves

/-- Camera or dock context: the contexts in which staged data is recorded (R22). -/
def Ctx.records : Ctx → Bool
  | .camera | .dock => true
  | _ => false

/-! ### Stream FIFOs -/

/-- FIFO `n`. -/
def State.fifo (s : State) (n : Nat) : Fifo := NMap.get Fifo.empty s.fifos n

/-- Change FIFO `n`. -/
def State.modFifo (s : State) (n : Nat) (f : Fifo → Fifo) : State := s.modFifos (fun m => NMap.upd Fifo.empty m n f)

/-- Words the body holds: the extension where there is one, else the on-chip depth (R101; the recommendation of R113 counts 64 Mi words
for 8,388,608 packets, so the on-chip part of an extended body lies within the extension: DEDUCED, log 22). A geometry commit that makes a body
smaller than what it holds takes no word out of it: the FIFO is full until enough has been read (DESIGN CHOICE, log 79: the manual is silent). -/
def State.fifoDepth (s : State) (n : Nat) : Nat :=
  let e := s.pni pSFQ_EXT_SIZE n
  if fifoExtended n && e != 0 then e else s.pni pSFQ_DEPTH n

/-- The producer of FIFO `n` presents words; the second part says that the overrun bit went from 0 to 1 (R102, R105, R106). -/
def State.feed (s : State) (n : Nat) (ws : List FWord) : State × Bool :=
  let r := fifoPut n (s.fifoDepth n) (s.pni pSFQ_CT_THRESH n) (s.fifo n) ws
  (s.modFifo n (fun _ => r.1), r.2)

/-- FIFO `n` moves its words: it is not halted (R111). A stage whose FIFO is halted stands still until SFQ_RESTART. -/
def State.flows (s : State) (n : Nat) : Bool := !(s.fifo n).halted

/-- A unit of `k` words in packets of at most `high` passes through FIFO `n` from its producer to its consumer, which keeps pace (R101; log 59). -/
def State.pass (s : State) (n k high : Nat) : State := s.modFifo n (fun f => f.passes k (min k high))

/-- Words of a data FIFO that hold `b` bytes. -/
def wordsOf (b : Nat) : Nat := (b + 31) / 32

/-- `b` bytes pass through data FIFO `n` in packets of at most 32 words (log 59). -/
def State.passBytes (s : State) (n b : Nat) : State := s.pass n (wordsOf b) 32

/-! ### Completions and asynchronous events -/

/-- Room for one more entry in a completion queue: one slot stays empty, as NVM Express defines a full queue. -/
def Cq.room (c : Cq) : Bool := decide (c.entries.length + 1 < c.size)

/-- Post an entry in a completion queue and signal its vector. -/
def Nvme.postTo (n : Nvme) (q : Nat) (c : Cq) (e : Cqe) : Nvme :=
  { n with
    cqs := NMap.put n.cqs q { c with entries := c.entries ++ [e], tail := (c.tail + 1) % c.size }
    msix := if c.ien then NMap.bump n.msix c.vector 1 else n.msix }

/-- The held command with fetch number `seq`. -/
def Nvme.held? (n : Nvme) (seq : Nat) : Option Held := n.held.find? (fun h => h.seq == seq)

/-- Take a held command away. -/
def Nvme.unhold (n : Nvme) (seq : Nat) : Nvme :=
  { n with held := n.held.filter (fun h => h.seq != seq), writes := n.writes.filter (fun w => w.seq != seq) }

/-- Change what a held command waits for. -/
def Nvme.setWait (n : Nvme) (seq : Nat) (w : Wait) : Nvme :=
  { n with held := n.held.map (fun h => if h.seq = seq then { h with wait := w } else h) }

/-- The completion queue of a submission queue. -/
def Nvme.cqOf (n : Nvme) (sq : Nat) : Option (Nat × Cq) :=
  match NMap.find? n.sqs sq with
  | some q => (NMap.find? n.cqs q.cq).map (fun c => (q.cq, c))
  | none => none

/-- Post a built completion of held command `seq`, or keep it until its completion queue has room. A command whose queues are gone
leaves without one (R326). No completion is posted in DRAIN (R414). -/
def State.post (s : State) (seq : Nat) (e : Cqe) : State :=
  if s.mag.st = .drain then s
  else
    match s.nv.cqOf e.sq with
    | some (q, c) =>
      if c.room then s.modNv (fun n => (n.postTo q c e).unhold seq) else s.modNv (fun n => n.setWait seq (.posting e))
    | none => s.modNv (fun n => n.unhold seq)

/-- Complete held command `seq` with a status, the two result Dwords and the data transferred to the host (R352, R514). -/
def State.complete (s : State) (seq : Nat) (st : Status) (dw0 dw1 : Nat) (data : Bytes) : State :=
  match s.nv.held? seq with
  | some h => s.post seq { sq := h.sq, cid := h.cid.getD 0, sct := st.sct, sc := st.sc, dnr := st.dnr, dw0, dw1, data }
  | none => s

/-- Complete without result or data. -/
def State.done (s : State) (seq : Nat) (st : Status) : State := s.complete seq st 0 0 []

/-- Complete a list of held commands with one status, in order. -/
def State.doneAll (s : State) (seqs : List Nat) (st : Status) : State := seqs.foldl (fun t q => t.done q st) s

/-- Feature values by key: a feature, or a vector or sensor of one; the default is `d` (R353). -/
def Nvme.feature (n : Nvme) (d key : Nat) : Nat := NMap.get d n.features key

/-- Feature 0Bh enables an asynchronous event: bits [7:0] the SMART warnings, bits 8, 9 and 27 the notices, bits [19:16] the vendor
types. Error events have no enable (R358). -/
def Nvme.aerEnabled (n : Nvme) (ty info : Nat) : Bool :=
  let v := n.feature 0 0x0B
  match ty with
  | 0 => true
  | 1 => Nat.testBit v (if info = 0 then 2 else if info = 1 then 1 else 0)
  | 2 => if info = 0 then Nat.testBit v 8 else if info = 1 then Nat.testBit v 9 else Nat.testBit v 27
  | _ => Nat.testBit v (16 + info)

/-- The oldest outstanding Asynchronous Event Request. -/
def Nvme.firstAer (n : Nvme) : Option Held := n.held.find? (fun h => h.wait = .aer)

/-- Report an asynchronous event: dropped while its type is disabled, masked or already waiting; given to the oldest outstanding
request, or kept for the next one; the type is then masked until its log is read (R358). In L2 WAKE_N is asserted (R324). -/
def State.asyncEvent (s0 : State) (ty info log : Nat) : State :=
  let s := if s0.nv.aerEnabled ty info && s0.nv.linkPower = 4 then s0.modNv (fun n => { n with wake := true }) else s0
  let n := s.nv
  if !n.aerEnabled ty info || n.masked.contains (256 * ty + info) || n.asyncQ.contains (ty, info, log) then s
  else
    match n.firstAer with
    | some h =>
      (s.modNv (fun m => { m with masked := (256 * ty + info) :: m.masked })).complete h.seq stOk (ty + 256 * info + 65536 * log) 0 []
    | none => s.modNv (fun m => { m with asyncQ := m.asyncQ ++ [(ty, info, log)] })

/-! ### Events -/

/-- Sources that always journal (R468). -/
def evtForced (evt : Nat) : Bool :=
  (0x780 ≤ evt && evt ≤ 0x7FF) || (0x460 ≤ evt && evt ≤ 0x46F) || (0x700 ≤ evt && evt ≤ 0x70F)

/-- EVT_CTL of a source as it reads (R468). -/
def State.evtCtl (s : State) (evt : Nat) : Nat :=
  let v := s.pni pEVT_CTL evt
  if evtForced evt && v % 2 = 0 then v + 1 else v

/-- Append an entry to the event journal; the oldest is overwritten when it is full (R470). -/
def State.journal (s : State) (evt cause : Nat) (notice : Bool) (data : Bytes) : State :=
  let e : JEntry := { seq := s.ev.seq + 1, rtc := s.rtcSec % 2 ^ 32, evt := evt % 2048, notice, cause, st := s.mag.st.index,
                      ms := s.msSinceBoot % 2 ^ 32, data := fitBytes 12 data }
  let cap := s.pn pEVT_JNL_ENTRIES
  s.modEv (fun v => { v with seq := v.seq + 1, jnl := (e :: v.jnl).take cap, unsaved := v.unsaved ++ [e],
                             lostOld := if cap ≤ v.jnl.length then v.lostOld + 1 else v.lostOld })

/-- Ringmaster routes one record of an event source: counted, journalled within the rate, marked for host notice and signalled as EVT_CTL says
(R467 to R470). EVT 0x7F0 is marked for host notice whatever EVT_CTL says (R457). -/
def State.route (s : State) (evt cause : Nat) (data : Bytes) : State :=
  let ctl := s.evtCtl evt
  let jnl := ctl % 2 = 1
  let notice := Nat.testBit ctl 1 || evt = 0x7F0
  let within := NMap.get 0 s.ev.inSec evt < s.ev.rate
  let s1 := s.modEv (fun v => { v with count := NMap.bumpSat (2 ^ 32 - 1) v.count evt 1 })
  let s2 :=
    if jnl then
      if within then
        let t := (s1.modEv (fun v => { v with inSec := NMap.bump v.inSec evt 1 })).journal evt cause notice data
        if notice then t.asyncEvent 7 0 0xC2 else t
      else s1.modEv (fun v => { v with supp := NMap.bumpSat (2 ^ 32 - 1) v.supp evt 1, suppSec := NMap.bump v.suppSec evt 1 })
    else s1
  let vec := s.pn pEVT_MSIX_VEC
  if Nat.testBit ctl 2 && vec != 0 then s2.modNv (fun n => { n with msix := NMap.bump n.msix vec 1 }) else s2

/-- Ringmaster reads every complete packet of event FIFO `n` and routes the records, in order (R101, R467). -/
def State.routeFifo (s : State) (n : Nat) : State :=
  let r := (s.fifo n).takePackets (s.pni pSFQ_CT_THRESH n)
  r.1.foldl (fun t p => t.route (eventOf p).1 (eventOf p).2.1 (eventOf p).2.2) (s.modFifo n (fun _ => r.2))

/-- A FIFO's own event on a new overrun, through FIFO 84 (R112); the data bytes carry the fill (R467). -/
def State.overran (s : State) (n : Nat) : State :=
  ((s.feed 84 (eventPacket (0x400 + n) 1 (leBytes 4 (s.fifo n).fill))).1).routeFifo 84

/-- Raise an event: cause and data bytes 0 to 11 go as a packet into FIFO 80 + EVT div 256, which Ringmaster reads (R467). While that FIFO is halted
the source holds its packet until SFQ_RESTART (R111). -/
def State.raise (s : State) (evt cause : Nat) (data : Bytes) : State :=
  let n := 80 + evt % 2048 / 256
  let r := s.feed n (eventPacket evt cause data)
  ((r.1).when r.2 (fun t => t.overran n)).routeFifo n

/-- The fault class recognised last, with its time (R459, R472). -/
def State.noteFault (s : State) (cls : Nat) : State := s.modEv (fun v => { v with lastFault := (cls, s.rtcSec) })

/-- Record an entry in Chervil's event ring; the oldest is overwritten when all 512 are used, and counted when it had not been copied
(R420, R421, R425). -/
def State.ringAdd (s : State) (kind : Nat) (data : Bytes) : State :=
  let e : Ring := { rtc := s.rtcSec % 2 ^ 32, kind, st := s.mag.st.index, data := fitBytes 10 data, copied := false }
  s.modPw (fun p =>
    let full := 512 ≤ p.ring.length
    let old := p.ring.headD e
    { p with ring := (if full then p.ring.drop 1 else p.ring) ++ [e]
             ringLost := if full && !old.copied then min 65535 (p.ringLost + 1) else p.ringLost })

/-! ### Fetching a command -/

/-- Commands held (R329). -/
def State.heldCount (s : State) : Nat := s.nv.held.length

/-- Entries of a submission queue not yet fetched. -/
def Sq.waiting (q : Sq) : Nat := (q.tail + q.size - q.head) % q.size

/-- Weighted round robin is in force (R330). -/
def Nvme.wrrOn (n : Nvme) : Bool := n.ams = 1

/-- Class of a submission queue for arbitration: 0 for the admin queue and, under weighted round robin, the urgent queues; else 1
high, 2 medium, 3 low; all I/O queues alike under round robin (R329, R330). -/
def Nvme.clsOf (n : Nvme) (qid : Nat) (q : Sq) : Nat := if qid = 0 then 0 else if n.wrrOn then q.cls else 2

/-- Commands may be fetched from this queue now: ready and not shut down, the queue not frozen and not empty, and the limits on held
commands (R325, R327, R329, R332, R351, R414). -/
def State.fetchable (s : State) (qid : Nat) (q : Sq) : Bool :=
  s.nv.rdy && s.nv.shst = 0 && !s.nv.pp && s.mag.st.alive && s.mag.st != .drain && s.mag.st != .boot && !q.frozen && q.waiting != 0
    && decide (s.heldCount < 8192)
    && (s.nv.clsOf qid q = 0 || decide (s.heldCount + s.pn pHIF_PRIO_RESERVE < 8192))

/-- Fetch one entry of a submission queue: it becomes a held command (R329). -/
def State.fetchFrom (s : State) (qid : Nat) (q : Sq) : State :=
  s.modNv (fun n =>
    { n with
      sqs := NMap.put n.sqs qid { q with head := (q.head + 1) % q.size }
      held := n.held ++ [{ seq := n.fetchSeq, sq := qid, cid := none, cls := n.clsOf qid q, wait := .fetched }]
      fetchSeq := n.fetchSeq + 1 })

/-- The oldest fetched command of a submission queue whose content has not been given yet. -/
def Nvme.unbound (n : Nvme) (sq : Nat) : Option Held := n.held.find? (fun h => h.sq = sq && h.wait = .fetched && h.cid = none)

/-- A host command begins: it takes the oldest fetched entry of its queue, or is fetched now; none when nothing can be fetched. The
result is its fetch number. -/
def State.begin (s : State) (h : Hdr) : Option (Nat × State) :=
  let bind (t : State) (x : Held) : Nat × State :=
    (x.seq, t.modNv (fun n => { n with held := n.held.map (fun y =>
      if y.seq = x.seq then { y with cid := some h.cid, wait := .running } else y) }))
  match s.nv.unbound h.sq with
  | some x => if s.nv.rdy && s.mag.st.alive && s.mag.st != .drain then some (bind s x) else none
  | none =>
    match NMap.find? s.nv.sqs h.sq with
    | some q =>
      if s.fetchable h.sq q then
        let t := s.fetchFrom h.sq q
        (t.nv.unbound h.sq).map (bind t)
      else none
    | none => none

/-- An admin command: sent to the admin queue, and in SAFE only the commands of R325. `safe` says that this one is among them. -/
def State.adminCmd (s : State) (h : Hdr) (safe : Bool) (body : Nat → State → State) : State :=
  match s.begin h with
  | some (q, t) =>
    if h.sq != 0 then t.done q stOpcode
    else if t.mag.st = .safe && !safe then t.done q stSequence
    else body q t
  | none => s

/-- An I/O command: sent to an I/O queue; fetched before its queue's deletion it gets the aborted status (R349); in SAFE it completes with
Namespace Not Ready (R325). -/
def State.ioCmd (s : State) (h : Hdr) (body : Nat → State → State) : State :=
  match s.begin h with
  | some (q, t) =>
    if h.sq = 0 then t.done q stOpcode
    else if t.nv.held.any (fun x => x.wait = .deleteSq h.sq) then t.done q stSqDeleted
    else if t.mag.st = .safe then t.done q stNotReady
    else body q t
  | none => s

/-! ### NOR writes -/

/-- The NOR area's event cause of R471, by area number: 0 profile, 1 key, 2 root, 3 calibration, 4 health, 5 patch set. -/
def norCause : Nat → Nat
  | 1 => 1 | 2 => 2 | 3 => 3 | 4 => 4 | _ => 5

/-- The copy a write goes to first: the older one (R260). -/
def Copies.older (c : Copies) : Nat := if c.newer = some 0 then 1 else 0

/-- Start a write of a record into both copies of a NOR area, older copy first. None is started in DRAIN (R414) or with the NOR failed
(R506). -/
def State.norWrite (s : State) (area : Nat) (data : Bytes) (act : NorAct) : State :=
  if s.mag.st = .drain || s.nor.dead then s
  else
    s.modNor (fun n =>
      let c := NMap.get { c0 := none, c1 := none, newer := none } n.areas area
      { n with ops := n.ops ++ [{ area, data, first := c.older, r0 := none, act }] })

end Sys2Proof.Machine
end

