-- ==== Sys2Proof/Machine/CtlOps.lean ====
section
/-! DEFINITION. Operations of the control engine: number format and sections (R176, R177), cascades and outputs (R178 to R180), reel speed
and radius (R181, R182), regions (R183), friction and cogging (R185), the limiter (R188, R189, R204), shuttle mapping (R190), slot
states and faults (R191 to R195), trace nodes (R196). Signals carry 12 fractional bits. -/

namespace Sys2Proof.Machine

/-- An encoder input at power-up. -/
def Encoder.zero : Encoder :=
  { a := false, b := false, i := false, count := 0, index := none, lastIndex := none, edges := [], cycle := 0, idle := 0,
    invalid := 0, evtAt := none }

/-- Slot `n`. -/
def State.slot (s : State) (n : Nat) : Slot := NMap.get Slot.zero s.ctl.slots n
/-- Change slot `n`. -/
def State.modSlot (s : State) (n : Nat) (f : Slot → Slot) : State := s.modCtl (fun c => { c with slots := NMap.upd Slot.zero c.slots n f })
/-- Link `k`: 0 MDRV0, 1 MDRV1, 2 TNS_, 3 VCM_. -/
def State.link (s : State) (k : Nat) : Link := NMap.get Link.zero s.ctl.links k
/-- Change link `k`. -/
def State.modLink (s : State) (k : Nat) (f : Link → Link) : State := s.modCtl (fun c => { c with links := NMap.upd Link.zero c.links k f })
/-- Encoder of reel `r`: 0 supply, 1 take-up. -/
def State.encoder (s : State) (r : Nat) : Encoder := NMap.get Encoder.zero s.ctl.enc r
/-- Change the encoder of reel `r`. -/
def State.modEnc (s : State) (r : Nat) (f : Encoder → Encoder) : State := s.modCtl (fun c => { c with enc := NMap.upd Encoder.zero c.enc r f })

/-! ### Number format (R176, R177) -/

/-- Saturate a signal at 40 bits: the value, and whether it saturated. -/
def sat40 (x : Int) : Int × Bool :=
  if x < -(2 ^ 39) then (-(2 ^ 39), true) else if 2 ^ 39 - 1 < x then (2 ^ 39 - 1, true) else (x, false)

/-- Round a sum at scale 2^48 to the signal scale, ties towards plus infinity, and saturate. -/
def round48 (x : Int) : Int × Bool := sat40 ((x + 2 ^ 47) / 2 ^ 48)

/-- The five mantissas and the exponent of one section. -/
structure Section where
  /-- b0, b1, b2, a1, a2. -/
  m : List Int
  /-- Exponent. -/
  e : Nat
  deriving DecidableEq, Repr

/-- A product of coefficient `j` with a signal, at scale 2^48 over the signal scale. -/
def Section.mul (c : Section) (j : Nat) (x : Int) : Int := c.m.getD j 0 * x * 2 ^ c.e

/-- One section, transposed direct form II: output, new states and the number of saturations. -/
def Section.run (c : Section) (x : Int) (st : Int × Int) : Int × (Int × Int) × Nat :=
  let y := round48 (c.mul 0 x + st.1 * 2 ^ 48)
  let s1 := round48 (c.mul 1 x - c.mul 3 y.1 + st.2 * 2 ^ 48)
  let s2 := round48 (c.mul 2 x - c.mul 4 y.1)
  (y.1, (s1.1, s2.1), y.2.toNat + s1.2.toNat + s2.2.toNat)

/-- A cascade: output, states, section outputs, saturations (R178). -/
def cascade : List Section → List (Int × Int) → Int → Int × List (Int × Int) × List Int × Nat
  | [], _, x => (x, [], [], 0)
  | c :: cs, sts, x =>
    let r := c.run x (sts.headD (0, 0))
    let q := cascade cs (sts.drop 1) r.1
    (q.1, r.2.1 :: q.2.1, r.1 :: q.2.2.1, r.2.2 + q.2.2.2)

/-- Section `k` of a slot's bank in a region (R200). -/
def State.section (s : State) (n g k : Nat) : Section :=
  { m := (List.range 5).map (fun j => s.pv pCTL_COEF (640 * n + 40 * g + 5 * k + j)), e := s.pni pCTL_EXP (128 * n + 8 * g + k) }

/-- The sections of a slot's bank in a region. -/
def State.bank (s : State) (n g : Nat) : List Section := (List.range (min 8 (s.pni pCTL_SEC_CNT (16 * n + g)))).map (s.section n g)

/-- Auxiliary slot `k` (0 for L6, 1 for L7) is inserted in slot `n` in a mode (R180). -/
def State.auxIn (s : State) (k n mode : Nat) : Bool :=
  let v := s.pni pCTL_AUX_INS k
  mode != 0 && v % 16 = mode && v / 16 = n

/-- Host slot of auxiliary slot `k`, none while it is unused (R180). -/
def State.auxHost (s : State) (k : Nat) : Option Nat :=
  let v := s.pni pCTL_AUX_INS k
  if v % 16 = 0 then none else some (v / 16)

/-- State, substitution and cause of slot `n` as seen from outside: an auxiliary slot shares the state of its host (R180). -/
def State.slotSeen (s : State) (n : Nat) : Slot :=
  if n < 6 then s.slot n
  else
    match s.auxHost (n - 6) with
    | some h => let z := s.slot h; { s.slot n with st := z.st, subst := z.subst, cause := z.cause }
    | none => s.slot n

/-- Section states after a run: those of the sections that ran, and unchanged those beyond them (R183). -/
def carryStates (new old : List (Int × Int)) : List (Int × Int) := new ++ old.drop new.length

/-- Run the auxiliary slots inserted in slot `n` in `mode` on a signal: the signal after them. Their states and outputs are kept. -/
def State.runAux (s : State) (n mode : Nat) (x : Int) : Int × State :=
  (List.range 2).foldl (fun (a : Int × State) k =>
    if a.2.auxIn k n mode then
      let r := cascade (a.2.bank (6 + k) 0) (a.2.slot (6 + k)).sec a.1
      (r.1, (a.2.modSlot (6 + k) (fun z => { z with sec := r.2.1, secOut := r.2.2.1, fb := a.1, out := r.1 })).bumpPv pCTL_SAT_CNT (6 + k) r.2.2.2)
    else a) (x, s)

/-! ### Reels (R181, R182, R185) -/

/-- π at 15 decimals, as a numerator over 10^15 (the model's resolution, log 37). -/
def piNum : Int := 3141592653589793

/-- Edges seen in the last 8 L0 periods: those kept, less what has aged since the last edge. -/
def Encoder.recent (e : Encoder) : List (Nat × Int) := e.edges.filter (fun x => decide (e.cycle + 20000 * e.idle ≤ x.1 + 160000))

/-- Counts between the first and the last edge of the window, and the engine cycles between them; (0, 0) with fewer than two edges. -/
def Encoder.rate (e : Encoder) : Int × Nat :=
  match e.recent.head?, e.recent.getLast? with
  | some a, some b => (a.2 - b.2, a.1 - b.1)
  | _, _ => (0, 0)

/-- Radius estimate of a reel, µm. -/
def State.radius (s : State) (r : Nat) : Nat := if r = 0 then s.ctl.radius.1 else s.ctl.radius.2

/-- Surface speed of a reel in µm/s with 12 fractional bits: angular speed times radius; 0 with fewer than two edges. -/
def State.surface (s : State) (r : Nat) : Int :=
  let q := (s.encoder r).rate
  if q.2 = 0 then 0
  else 2 * piNum * s.radius r * q.1 * 400000000 * 4096 / ((10 : Int) ^ 15 * s.pn pCTL_ENC_CPR * q.2)

/-- Mean reel surface speed in µm/s (R181, R449). -/
def State.meanSurface (s : State) : Int := (s.surface 0 + s.surface 1) / 2 / 4096

/-- Radius a reel's motion gives at the measured speed, µm (R182); none while the reel shows no motion. -/
def State.radiusNow (s : State) (r : Nat) : Option Nat :=
  let q := (s.encoder r).rate
  if q.2 = 0 || q.1 = 0 then none
  else some (s.rc.speed.natAbs * 10 ^ 15 * s.pn pCTL_ENC_CPR * q.2 / (2 * piNum.toNat * q.1.natAbs * 400000000))

/-- Entry of the friction and cogging table at the current angle (R185). -/
def State.angleIndex (s : State) (r : Nat) : Nat :=
  let e := s.encoder r
  ((e.count - e.index.getD 0) * 1024 / s.pn pCTL_ENC_CPR % 1024).toNat

/-- The friction and cogging term of a reel, mA with 12 fractional bits; none until its index has been seen (R185). -/
def State.fcTerm (s : State) (r : Nat) : Int :=
  if (s.encoder r).index.isNone then 0
  else
    let e := s.pni pCTL_FC_TAB (1024 * r + s.angleIndex r)
    let en := s.pn pCTL_FC_EN
    let cog : Int := let c := e % 65536; if c < 32768 then c else (c : Int) - 65536
    let fric : Int := e / 65536
    let d : Int := s.pn pCTL_FRIC_VDB * 1000 * 4096
    let w := max (-d) (min d (s.surface r))
    (if en % 2 = 1 then cog * 4096 else 0) + (if en / 2 % 2 = 1 then fric * 4096 * w / d else 0)

/-- The acceleration feed-forward of a reel in a region, mA with 12 fractional bits: a_lim times CTL_AFF (R178). -/
def State.affTerm (s : State) (r g : Nat) : Int := (s.ctl.alim * s.pni pCTL_AFF (16 * r + g) * 4096 + 25000000) / 50000000

/-! ### Regions (R183, R187, R81) -/

/-- Region of a radius without hysteresis. -/
def State.rawRegion (s : State) (r : Int) : Nat :=
  let lo : Int := s.pn pCTL_RAD_MIN
  let w : Int := s.pn pCTL_RAD_MAX - lo
  if w ≤ 0 then 0 else (max 0 (min 15 (16 * (r - lo) / w))).toNat

/-- The region a reel moves to from region `g`: it must pass an edge by CTL_RGN_HYST. -/
def State.nextRegion (s : State) (g reel : Nat) : Nat :=
  let h : Int := s.pn pCTL_RGN_HYST
  let up := s.rawRegion (s.radius reel - h)
  let down := s.rawRegion (s.radius reel + h)
  if g < up then up else if down < g then down else g

/-- One step of the speed zone from zone `z` at a speed in µm/s: up when the speed reaches the next zone's lower edge plus the
hysteresis, down when it falls below its own minus the hysteresis (R81, R124, R187). -/
def State.nextZone (s : State) (z : Nat) (v : Int) : Nat :=
  let h : Int := s.pn pTFM_ZONE_HYST
  let edge (k : Nat) : Int := s.pni pTRC_ZEDGE k
  let a := if v < 0 then -v else v
  if z < 15 && decide (1000 * (edge (z + 1) + h) ≤ a) then z + 1
  else if z != 0 && decide (a < 1000 * (edge z - h)) then z - 1
  else z

/-- The zone of a speed, from zone `z`: as many steps as the speed asks for. -/
def State.zoneOfSpeed (s : State) (z : Nat) (v : Int) : Nat := (List.range 16).foldl (fun g _ => s.nextZone g v) z

/-- Zone of the copy recorded now, or else of the oldest copy whose result is outstanding (R81, R187). -/
def State.copyZone (s : State) : Option Nat :=
  if s.ctl.writing then some s.sp.zone else (s.sp.started.find? (fun x => x.result.isNone)).map (fun x => x.zone)

/-- Zone that selects the Trapeze region, from region `g` (R187): that of the copy recorded or verified, in PLAYBACK the one selected at the last DS
separator of a lane, else the zone of the measured speed. -/
def State.tapeZone (s : State) (g : Nat) : Nat :=
  let own := s.zoneOfSpeed g s.rc.speed
  match s.copyZone with
  | some z => z
  | none => if s.mag.st = .playback then (s.rc.lanes.findSome? (fun e => e.2.zone)).getD own else own

/-- Region of slot `n` at its next sample instant (R183, R187). -/
def State.slotRegion (s : State) (n : Nat) : Nat :=
  let g := (s.slot n).region
  if n = 1 then s.nextRegion g 1 else if n < 4 then s.nextRegion g 0 else if n < 6 then s.tapeZone g else 0

/-! ### Set-points, feedback and outputs -/

/-- v_lim in µm/s with 12 fractional bits. -/
def State.vlimSig (s : State) : Int := (s.ctl.vlim * 4096 + 12500) / 25000

/-- Set-point of slot `n` with 12 fractional bits, held to the signal range (R172, R174, R177); L5 follows the sweep of a find position (R207). -/
def State.setPoint (s : State) (n : Nat) : Int :=
  let u2 := (s.slot 2).out
  let u3 := (s.slot 3).out
  (sat40 (
    if n = 0 then s.vlimSig + u3 * 4096 - u2 * 2048
    else if n = 1 then s.vlimSig + u3 * 4096 + u2 * 2048
    else if n = 2 then (s.pn pCTL_TENSION : Int) * 4096
    else if n = 3 then s.vlimSig
    else if n = 5 then (s.ctl.sweep.getD (s.slot 4).out) * 4096
    else 0)).1

/-- Feedback of slot `n` with 12 fractional bits, held to the signal range, as it stands now (R172, R177). -/
def State.feedback (s : State) (n : Nat) : Int :=
  (sat40 (
    if n = 0 then s.surface 0
    else if n = 1 then s.surface 1
    else if n = 2 then (s.link 2).a * 4096
    else if n = 3 then s.rc.speed * 4096
    else if n = 4 then s.rc.lateral * 4096
    else if n = 5 then (s.link 3).b * 4096
    else 0)).1

/-! ### Model constants (R436) -/

/-- Constant `i` of CTL_MDL: 0 and 1 torque constants of the supply and take-up motors, 2 and 3 inertias with an empty hub, 4 the tape pack
coefficient, 5 the hub radius, 6 to 8 natural frequency, damping ratio and DC gain of the actuator. -/
def State.mdl (s : State) (i : Nat) : Nat := s.pni pCTL_MDL i

/-- The constants the estimate of a slot uses: torque and inertia for the tension, the actuator's for L5 (R193, R436). -/
def State.mdlOf (s : State) (n : Nat) : List Nat := if n = 5 then [s.mdl 6, s.mdl 7, s.mdl 8] else (List.range 6).map s.mdl

/-- Readings of the torque balance: the estimate before, the motor current readbacks, the reel surface speeds and the radii (R193). -/
def State.torqueInputs (s : State) : List Int :=
  [(s.slot 2).est, (s.link 0).a, (s.link 1).a, s.surface 0, s.surface 1, s.ctl.radius.1, s.ctl.radius.2]

/-- Open-loop current of reel `r` in the radius probe, mA: the torque of the nominal tension at mid radius over the torque constant, against the
tape's pull on either reel, and the common term (R206; DEDUCED from the units of R436, log 25). -/
def State.probeAmps (s : State) (r : Nat) : Int :=
  let mid := (s.pn pCTL_RAD_MIN + s.pn pCTL_RAD_MAX) / 2
  let hold : Int := (s.pn pCTL_TENSION * mid / (1000 * max 1 (s.mdl r)) : Nat)
  (if r = 0 then -hold else hold) + Config.probeTerm ((List.range 9).map s.mdl) s.ctl.dir

/-- The link a slot reads (R500). -/
def linkOf (n : Nat) : Option Nat := if n = 0 then some 0 else if n = 1 then some 1 else if n = 2 then some 2 else if n = 5 then some 3 else none

/-- The slot that reads a link. -/
def slotOfLink (k : Nat) : Nat := if k = 3 then 5 else k

/-- The sample of slot `n` in this feedback period is valid (R192). -/
def State.sampleValid (s : State) (n : Nat) : Bool :=
  if n < 2 then (s.encoder n).invalid = 0 && (s.link n).fresh
  else if n = 2 then (s.link 2).fresh && decide (0 ≤ (s.link 2).a) && decide ((s.link 2).a ≤ 2000000)
  else if n = 3 then s.rc.speedOk
  else if n = 4 then s.rc.lateralOk
  else if n = 5 then (s.link 3).fresh
  else false

/-- The model estimate of slot `n`, none when its inputs are not valid (R193, R177). -/
def State.estimate (s : State) (n : Nat) : Option Int :=
  let ok (k : Nat) : Bool := (s.slot k).valid
  if n = 0 then (if s.rc.speedOk then some (s.feedback 3) else if ok 1 then some (s.surface 1) else none)
  else if n = 1 then (if s.rc.speedOk then some (s.feedback 3) else if ok 0 then some (s.surface 0) else none)
  else if n = 2 then (if ok 0 && ok 1 then some (sat40 (Config.modelStep 2 (s.mdlOf 2) s.torqueInputs)).1 else none)
  else if n = 3 then (if ok 0 && ok 1 then some ((s.surface 0 + s.surface 1) / 2) else none)
  else if n = 4 then (if ok 5 then some (sat40 ((s.slot 4).base.1 - ((s.link 3).b * 4096 - (s.slot 4).base.2))).1 else none)
  else if n = 5 then (if (s.link 3).fresh then some (sat40 (Config.modelStep 5 (s.mdlOf 5) [(s.slot 5).est, (s.link 3).a])).1 else none)
  else none

/-- Round a signal to the destination unit, ties towards plus infinity (R178). -/
def toUnit (x : Int) : Int := (x + 2048) / 4096

/-- Write a slot's output: its destination, and the command value of the link that carries it (R500). -/
def State.putOut (s : State) (n : Nat) (u : Int) : State :=
  let t := s.modSlot n (fun z => { z with out := u })
  if n = 0 || n = 1 then t.modLink n (fun k => { k with cmd := u })
  else if n = 5 then t.modLink 3 (fun k => { k with cmd := u })
  else t

/-- The tape is still: the limiter and the measured speed are 0. -/
def State.still (s : State) : Bool := s.ctl.vlim = 0 && s.ctl.alim = 0 && (!s.rc.speedOk || s.rc.speed = 0)

/-- The hold law of slot `n` (R194). -/
def State.holdOut (s : State) (n : Nat) : State :=
  if n < 2 then
    s.putOut n (if s.still then 0 else
      toUnit (max (s.pv pCTL_OUT_MIN n * 4096) (min (s.pv pCTL_OUT_MAX n * 4096) (s.affTerm n (s.slot n).region + s.fcTerm n))))
  else if n = 3 || n = 5 then s.putOut n 0
  else s

/-- A trace trigger condition has occurred (R197): bit of the source. -/
def State.traceHit (s : State) (bit : Nat) : State :=
  s.modCtl (fun c => { c with trace := { c.trace with pending := c.trace.pending ||| 2 ^ bit } })

/-- The cascade of an armed slot on its latched error, its output terms, clipping and conditional integration (R178 to R180). -/
def State.runSlot (s : State) (n : Nat) : State :=
  let z := s.slot n
  let pre := s.runAux n 1 z.fb
  let e := (sat40 (z.sp - pre.1)).1
  let r := cascade (pre.2.bank n z.region) z.sec e
  let post := (pre.2.bumpPv pCTL_SAT_CNT n r.2.2.2).runAux n 2 r.1
  let c := if n < 2 then post.1 + post.2.affTerm n z.region + post.2.fcTerm n else post.1
  let lo := s.pv pCTL_OUT_MIN n * 4096
  let hi := s.pv pCTL_OUT_MAX n * 4096
  let stuck := (decide (hi < c) && decide (0 < e)) || (decide (c < lo) && decide (e < 0))
  let t := post.2.modSlot n (fun y => { y with err := e, sec := if stuck then y.sec else carryStates r.2.1 y.sec, secOut := r.2.2.1 })
  let t2 := if stuck then t.bumpPv pCTL_CLIP_CNT n 1 else t
  t2.putOut n (toUnit (max lo (min hi c)))

/-! ### Slot states and faults (R191 to R195) -/

/-- Arm a slot with every section state at 0, those of its auxiliary slots too; a velocity term left from before is no output (R180, R184, R191). -/
def State.arm (s : State) (n : Nat) : State :=
  (List.range 2).foldl (fun t k => if t.auxHost k = some n then t.modSlot (6 + k) (fun z => { z with sec := [], secOut := [] }) else t)
    (s.modSlot n (fun z =>
      { z with st := .armed, subst := false, sec := [], secOut := [], loss := 0, freeze := 0, resid := 0, closed := false
               out := if n = 2 || n = 3 then 0 else z.out }))

/-- Arm a slot that is not in HOLD: a slot leaves HOLD only by a re-arm (R191). -/
def State.armUnlessHeld (s : State) (n : Nat) : State := if (s.slot n).st = .hold then s else s.arm n

/-- Set a slot OFF: it writes no output, and L2 and L3 present none (R184, R191). -/
def State.slotOff (s : State) (n : Nat) : State :=
  s.modSlot n (fun z => { z with st := .off, subst := false, closed := false, out := if n = 2 || n = 3 then 0 else z.out })

/-- A slot enters HOLD, with its event (R194, R199). -/
def State.toHold (s : State) (n cause : Nat) : State :=
  ((s.modSlot n (fun z => { z with st := .hold, subst := false, cause })).holdOut n).raise (0x460 + n) cause (leBytes 1 n)

/-- The copy being recorded ends: it fails, and the write current goes off (R86, R194, R213). -/
def State.endCopy (s : State) : State :=
  if s.ctl.writing then
    (s.modSp (fun p =>
      { p with started := match p.started.getLast? with
                          | some x => p.started.dropLast ++ [{ x with cut := true }]
                          | none => p.started })).modCtl (fun c => { c with writing := false })
  else s

/-- The tape is to stop: the limiter's target becomes 0, at the fast limits for a supervisor stop, LID_SW or DRAIN (R188, R203). A dwell ends at
zero (R189). A supervisor stop with the tape still is one too: it is complete as soon as it is looked at (R195); one while tension is being
released changes nothing, for the release goes on. -/
def State.stopTape (s : State) (after : AfterStop) (fast : Bool) : State :=
  let c := s.ctl
  if c.tsub = .releasing || c.tsub = .braked then s
  else
    s.modCtl (fun c =>
      { c with
        target := 0, fast := c.fast || fast, after := some after, shuttle := false, turn := false, dwell := false, reversing := false, sweep := none
        tsub := if c.tsub.moves || after = .supervisor then .stopping else c.tsub })

/-- Declare a supervisor fault on slot `n` (R194, R195): substitution while there is an estimate, else HOLD at once; the first fault
starts the supervisor stop, a later one is part of it. -/
def State.declare (s : State) (n cause : Nat) : State :=
  if (s.slot n).st != .armed || (s.slot n).subst then s
  else
    let t := (s.traceHit 0).noteFault 0x0B
    let u :=
      match s.estimate n with
      | some e => t.modSlot n (fun z => { z with subst := true, cause, est := e })
      | none => t.toHold n cause
    if u.ctl.supStop then u.modCtl (fun c => { c with fast := true })
    else
      let v := (u.endCopy.raise 0x468 1 (leBytes 1 n)).modCtl (fun c => { c with supStop := true })
      if v.mag.st = .drain then v else v.stopTape .supervisor true

/-- The tape has moved in the last 100 ms, by the encoders or the measured speed (R191): 3,277 ticks of 1/32,768 s. -/
def State.movedLately (s : State) : Bool := !s.still || decide (s.mag.ticks < s.ctl.movedAt + 3277)

/-- The tape moves now: note when (R191). -/
def State.noteMotion (s : State) : State := s.modCtl (fun c => { c with movedAt := s.mag.ticks })

/-- Ringmaster's re-arm request for a slot in HOLD: armed, or refused with its event (R191). `open_` leaves out the feedback condition,
for L4. The result says whether it was accepted. -/
def State.rearm (s : State) (n : Nat) (open_ : Bool) : Bool × State :=
  let z := s.slot n
  if z.st != .hold then (true, s)
  else if s.movedLately || !(open_ || (decide (16 ≤ z.hist.length) && (z.hist.take 16).all id)) then
    (false, (s.modSlot n (fun y => { y with cause := 5 })).raise (0x460 + n) 5 (leBytes 1 n))
  else (true, s.arm n)

/-! ### The limiter (R188, R189, R204) -/

/-- Acceleration limit in mm/s² and jerk limit in mm/s³ in force. -/
def State.limits (s : State) : Nat × Nat := if s.ctl.fast then (8000, 400000) else (s.pn pCTL_AMAX, s.pn pCTL_JMAX)

/-- The tape records or verifies now: it moves on the wrap, not to an approach point. -/
def State.recording (s : State) : Bool :=
  s.ctl.tsub.moves && s.ctl.aim.isNone && !s.ctl.shuttle && (s.mag.st = .spooling || s.mag.st = .crawl || s.sp.gen.isSome)

/-- Wrap being recorded: the index wrap of a generation, else the append wrap. -/
def State.recWrap (s : State) : Nat := match s.sp.gen with | some g => g.wrap | none => s.sp.wrap

/-- Velocity limit V, mm/s, by the magazine state; where the manual names none, that of locating moves (R188). -/
def State.vmax (s : State) : Nat :=
  match s.mag.st with
  | .spooling | .crawl => s.pn pTFM_VMAX_REC
  | .playback => 6000
  | _ => s.pn pCTL_VMAX_SHTL

/-- Distance to the stop point in a direction, 1/100 mm: the wrap stop point while recording or verifying and in a turnaround, else the travel limit
(R204, R210). -/
def State.stopDistance (s : State) (fwd : Bool) : Nat :=
  let x : Int := s.rc.pos10 * 10
  let m : Int := s.pn pCTL_END_MARGIN * 100
  let rec_ := s.recording || s.ctl.turn
  let ix := s.sp.gen.isSome || (s.ctl.turn && s.rc.pass.elim false (fun p => p.kind = 2))
  let w := if s.recording then s.recWrap else s.rc.wrap
  let d : Int :=
    if fwd then (if rec_ && w % 2 = 0 then (if ix then 846752 else 77233792) + m else 77272800) - x
    else x - (if rec_ && w % 2 = 1 then max 12800 ((if ix then 51200 else 860800) - m) else 12800)
  d.toNat

/-- The largest speed, in 1/25,000,000 mm/s, from which the tape stops within a distance of `d` hundredths of a mm (R204). -/
def capSpeed (a j d : Nat) : Nat :=
  let k := 25000000
  (Nat.sqrt (k ^ 2 * (a ^ 4 + 8 * a * j ^ 2 * d / 100)) - k * a ^ 2) / (2 * max 1 j)

/-- Position is valid: it has been confirmed (R204, R207). -/
def State.posValid (s : State) : Bool := s.ctl.held.isSome

/-- Position is held: the retention RAM has a confirmed position, and both reels stand within 16 counts of where they were then (R205). -/
def State.positionKept (s : State) : Option (Nat × Int × Int) :=
  match s.pw.retPos with
  | some (p, a, b) =>
    if ((s.encoder 0).count - a).natAbs ≤ 16 && ((s.encoder 1).count - b).natAbs ≤ 16 then some (p, a, b) else none
  | none => none

/-- The target of the shuttle mapping, 1/25,000,000 mm/s (R190). -/
def State.shuttleTarget (s : State) : Int :=
  let d : Int := (s.ctl.shCode : Int) - s.pn pCTL_SHTL_CTR
  let db := s.pn pCTL_SHTL_DB
  let fs := max 1 (s.pn pCTL_SHTL_FS)
  if d.natAbs ≤ db then 0
  else
    let m : Int := (s.pn pCTL_VMAX_SHTL * min (d.natAbs - db) fs * 25000000 / fs : Nat)
    if decide (d < 0) != decide (s.pn pCTL_SHTL_POL = 1) then -m else m

/-! ### Where a move goes (R208, R211) -/

/-- Distance in nm that a ramp from still to `v` mm/s takes at the normal limits: v·(v/A + A/J)/2 (R208). -/
def State.runUpNm (s : State) (v : Nat) : Nat :=
  let a := max 1 (s.pn pCTL_AMAX)
  let j := max 1 (s.pn pCTL_JMAX)
  1000000 * v * (v * j + a * a) / (2 * a * j)

/-- Approach point of a leading edge at `x` nm on a wrap: the run-up and CTL_SETTLE_MM before it (R208). -/
def State.approachNm (s : State) (fwd : Bool) (x : Nat) : Int :=
  let d := s.runUpNm 500 + 1000000 * s.pn pCTL_SETTLE_MM
  if fwd then (x : Int) - d else (x : Int) + d

/-- The point a target stands for, nm from TPN 0 (R211). -/
def State.aimNm (s : State) (t : Target) : Int :=
  match t with
  | .position w p => s.approachNm (wrapForward w) (posNm w p)
  | .index w => s.approachNm (wrapForward w) (indexNm w 0)
  | .tpn _ n => 8000000 * n

/-- TRC_POS in nm. -/
def State.tapeNm (s : State) : Int := 100000 * s.rc.pos10

/-- The tape stands within 2 mm of a target's point (R211). -/
def State.atAim (s : State) (t : Target) : Bool := decide ((s.aimNm t - s.tapeNm).natAbs ≤ 2000000)

/-- Target of a move towards a point: CTL_VMAX_SHTL, no more than the speed from which the tape stops at the point, and 0 within 2 mm of it
(R211). -/
def State.towards (s : State) (t : Target) : Int :=
  let d := s.aimNm t - s.tapeNm
  let l := s.limits
  if s.atAim t then 0 else (if d < 0 then -1 else 1) * (min (s.pn pCTL_VMAX_SHTL * 25000000) (capSpeed l.1 l.2 (d.natAbs / 10000)) : Nat)

/-- The target presented to the limiter, 1/25,000,000 mm/s, by state and sequence. -/
def State.presented (s : State) : Int :=
  let c := s.ctl
  if c.tsub = .stopping || s.mag.st = .drain then 0
  else if c.shuttle then c.shTarget
  else if c.tsub.moves && c.aim.isSome && s.posValid then c.aim.elim 0 s.towards
  else if s.recording && c.target = 0 then c.dir * max 500 s.sp.vreq * 25000000
  else if c.tsub.moves then c.target * 25000000
  else 0

/-- The target after clipping to ±V and to the travel limits (R188, R204). -/
def State.clipped (s : State) : Int :=
  let v : Int := s.vmax * 25000000
  let t := max (-v) (min v s.presented)
  if s.posValid then
    let l := s.limits
    if 0 < t then min t (capSpeed l.1 l.2 (s.stopDistance true)) else if t < 0 then max t (-(capSpeed l.1 l.2 (s.stopDistance false) : Int)) else t
  else t

/-- One step of the limiter towards a constant target: new v_lim and a_lim (R188). -/
def limStep (a j : Nat) (target v al : Int) : Int × Int :=
  let dv := target - v
  if dv.natAbs ≤ j && al.natAbs ≤ j then (target, 0)
  else
    let am : Int := a * 5000
    let up := decide (0 < 2 * (j : Int) * dv - al * al.natAbs)
    let goal := if up then am else -am
    let al1 := al + max (-(j : Int)) (min j (goal - al))
    let al2 := max (-am) (min am al1)
    (v + al2, al2)

/-- Sign of a speed. -/
def sgn (x : Int) : Int := if 0 < x then 1 else if x < 0 then -1 else 0

/-- Begin the still period between opposite moves: DWELL (R189, R203). `turned` says that it ends a reversal, and counts. -/
def Ctl.beginDwell (c : Ctl) (turned : Bool) : Ctl :=
  { c with dwell := true, reversing := turned, hit := false, tsub := if c.tsub.moves then .dwell else c.tsub }

/-- One super-frame of the limiter with reversals and dwells (R188, R189, R203): v_lim stays 0 in a dwell; a target whose sign differs from that of
the motion is replaced by 0 until v_lim and a_lim are both 0; a move from still opposite to the last one first waits out the rest of 20 ms. -/
def State.limiter (s : State) : State :=
  let c := s.ctl
  let t := s.clipped
  let still := c.vlim = 0 && c.alim = 0
  if c.dwell then s.modCtl (fun k => { k with hit := false, stillFor := min 100 (k.stillFor + 1) })
  else
    let opp := sgn t != 0 && (if c.reversing then sgn t != c.lastDir else sgn c.vlim != 0 && sgn t != sgn c.vlim)
    let wait := still && sgn t != 0 && c.lastDir != 0 && sgn t != c.lastDir && decide (c.stillFor < 100)
    if wait then s.modCtl (fun k => { k.beginDwell false with stillFor := k.stillFor + 1 })
    else
      let goal := if opp then 0 else t
      let l := s.limits
      let r := limStep l.1 l.2 goal c.vlim c.alim
      let rest := r.1 = 0 && r.2 = 0
      let hit := decide ((r.2 - c.alim).natAbs = l.2) || (decide (r.2.natAbs = l.1 * 5000))
      let u := s.modCtl (fun k =>
        { k with
          vlim := r.1, alim := r.2, reversing := opp, hit, lastDir := if r.1 = 0 || opp then k.lastDir else sgn r.1
          stillFor := if still && rest then min 100 (k.stillFor + 1) else 0 })
      let w := if r.1 = 0 && r.2 = 0 then u else u.noteMotion
      if hit && !c.hit then (w.bumpPv pCTL_LIM_HITS 0 1).traceHit 1 else w

/-! ### Trace nodes (R196) -/

/-- Value of a node with 12 fractional bits. The manual names no unit for the limiter's nodes: v_lim and its target are traced in mm/s and a_lim in
mm/s², as CTL_SP_NOW and CTL_ACC_NOW show them (DESIGN CHOICE, log 37). -/
def State.node (s : State) (code : Nat) : Int :=
  let n := code / 16
  let k := code % 16
  if n < 8 then
    let z := s.slotSeen n
    if k = 0 then z.sp else if k = 1 then z.fb else if k = 2 then z.err
    else if k ≤ 10 then z.secOut.getD (k - 3) 0
    else if k = 11 then (if n < 6 then z.out * 4096 else z.out)
    else if k = 12 then z.est
    else if k = 13 then z.fb - z.est
    else if k = 14 then z.region * 4096
    else (match z.st with | .off => 0 | .armed => 4096 | .hold => 8192)
  else if n = 8 then
    if k = 0 then (s.ctl.vlim * 4096 + 12500000) / 25000000
    else if k = 1 then (s.ctl.alim * 4096 + 2500) / 5000
    else if k = 2 then s.presented * 4096 / 25000000
    else if k = 3 then s.ctl.radius.1 * 4096
    else if k = 4 then s.ctl.radius.2 * 4096
    else if k = 5 then s.angleIndex 0 * 4096
    else if k = 6 then s.angleIndex 1 * 4096
    else if k = 7 then s.ctl.shCode * 4096
    else 0
  else 0

/-- A node's value as the trace records it: 4 fractional bits, saturated to 32 bits. -/
def traceValue (x : Int) : Int := max (-(2 ^ 31)) (min (2 ^ 31 - 1) ((x + 128) / 256))

/-- One trace word (R198): value, sample index, node code, HOLD, estimate and trigger flags. -/
def State.traceWord (s : State) (code index : Nat) (trig : Bool) : Nat :=
  let z := s.slotSeen (code / 16)
  (traceValue (s.node code) % 2 ^ 32).toNat + 2 ^ 32 * (index % 65536) + 2 ^ 48 * code
    + (if code < 128 && z.st = .hold then 2 ^ 56 else 0) + (if code < 128 && z.subst then 2 ^ 57 else 0) + (if trig then 2 ^ 58 else 0)

/-- Arm the trace under a trigger mask, with the other parameters in force: the buffer is cleared and recording starts (R197). -/
def State.traceArmWith (s : State) (mask : Nat) : State :=
  s.modCtl (fun c =>
    { c with trace :=
      { c.trace with
        st := 1, samples := [], left := none, trig := 0, trigAt := 0, index := 0, pre := s.pn pCTL_TRC_PRE, div := s.pn pCTL_TRC_DIV,
        mask, level := s.pv pCTL_TRC_LEVEL 0, sel := (List.range 8).map (fun i => s.pni pCTL_TRC_SEL i), pending := 0 } })

/-- Arm the trace with the parameters in force (R197). -/
def State.traceArm (s : State) : State := s.traceArmWith (s.pn pCTL_TRC_TRIG)

end Sys2Proof.Machine
end

