-- ==== Sys2Proof/Machine/Aes.lean ====
section
/-! DEFINITION. AES-256 and the modes the cipher chapter names (R251 to R258, R266, R276): XTS, GMAC and GCM, CMAC, CTR and key wrap.
The chapter cites FIPS 197, IEEE 1619, NIST SP 800-38D, NIST SP 800-38B and RFC 3394 for them; the round functions and constants
below are those standards' (PRESUMED, log entry 10). -/

namespace Sys2Proof.Machine

/-- Doubling in the AES field, polynomial 0x11B. -/
def aesX2 (a : Nat) : Nat := if a * 2 < 256 then a * 2 else (a * 2) ^^^ 0x11B

/-- Product in the AES field. -/
def aesMulGo : Nat → Nat → Nat → Nat
  | 0, _, _ => 0
  | n + 1, a, b => (if b % 2 = 1 then a else 0) ^^^ aesMulGo n (aesX2 a) (b / 2)

/-- Product in the AES field. -/
def aesMul (a b : Nat) : Nat := aesMulGo 8 a b

/-- Inverse in the AES field, 0 for 0. -/
def aesInv (a : Nat) : Nat :=
  let a2 := aesMul a a
  let a4 := aesMul a2 a2
  let a8 := aesMul a4 a4
  let a16 := aesMul a8 a8
  let a32 := aesMul a16 a16
  let a64 := aesMul a32 a32
  let a128 := aesMul a64 a64
  aesMul a128 (aesMul a64 (aesMul a32 (aesMul a16 (aesMul a8 (aesMul a4 a2)))))

/-- Rotate an 8-bit value left. -/
def rotl8 (x n : Nat) : Nat := (x * 2 ^ n ||| x / 2 ^ (8 - n)) % 256

/-- The substitution box. -/
def aesSbox (a : Nat) : Nat :=
  let i := aesInv a
  i ^^^ rotl8 i 1 ^^^ rotl8 i 2 ^^^ rotl8 i 3 ^^^ rotl8 i 4 ^^^ 0x63

/-- The inverse substitution box. -/
def aesInvSbox (a : Nat) : Nat := aesInv (rotl8 a 1 ^^^ rotl8 a 3 ^^^ rotl8 a 6 ^^^ 0x05)

/-- Next words of the AES-256 key schedule; `w` is the schedule so far, newest word first, `i` the index of the next word. -/
def aesExpandGo : Nat → Nat → List (List Nat) → List (List Nat)
  | 0, _, w => w
  | n + 1, i, w =>
    let prev := w.getD 0 []
    let back := w.getD 7 []
    let t :=
      if i % 8 = 0 then
        let rot := prev.tail ++ prev.take 1
        let s := rot.map aesSbox
        (s.headD 0 ^^^ (Nat.repeat aesX2 (i / 8 - 1) 1)) :: s.tail
      else if i % 8 = 4 then prev.map aesSbox
      else prev
    aesExpandGo n (i + 1) (List.zipWith (· ^^^ ·) back t :: w)

/-- Groups of `k` consecutive elements. -/
def chunksGo {α : Type} (k : Nat) : Nat → List α → List (List α)
  | 0, _ => []
  | n + 1, l => match l with
    | [] => []
    | _ => l.take k :: chunksGo k n (l.drop k)

/-- Groups of `k` consecutive elements, the last one short where the list ends. -/
def chunksOf {α : Type} (k : Nat) (l : List α) : List (List α) := chunksGo k l.length l

/-- The fifteen 16-byte round keys of a 32-byte key. -/
def aesKeys (key : Bytes) : List (List Nat) :=
  let w := chunksOf 4 (key.map BitVec.toNat)
  chunksOf 16 ((aesExpandGo 52 8 w.reverse).reverse.flatten)

/-- Row shift: byte at column c, row r comes from column c + r. -/
def aesShiftRows (s : List Nat) : List Nat :=
  (List.range 16).map (fun i => s.getD ((i + 4 * (i % 4)) % 16) 0)

/-- Inverse row shift. -/
def aesInvShiftRows (s : List Nat) : List Nat :=
  (List.range 16).map (fun i => s.getD ((i + 12 * (i % 4)) % 16) 0)

/-- Column mix with the given first row of the circulant matrix. -/
def aesMix (m : List Nat) (s : List Nat) : List Nat :=
  (List.range 16).map (fun i =>
    ((List.range 4).map (fun j => aesMul (m.getD ((j + 4 - i % 4) % 4) 0) (s.getD (i / 4 * 4 + j) 0))).foldl (· ^^^ ·) 0)

/-- Encryption of one block of 16 bytes under expanded keys. -/
def aesEncGo : List (List Nat) → List Nat → List Nat
  | [], s => s
  | [k], s => List.zipWith (· ^^^ ·) (aesShiftRows (s.map aesSbox)) k
  | k :: ks, s => aesEncGo ks (List.zipWith (· ^^^ ·) (aesMix [2, 3, 1, 1] (aesShiftRows (s.map aesSbox))) k)

/-- Decryption of one block under expanded keys, last round key first. -/
def aesDecGo : List (List Nat) → List Nat → List Nat
  | [], s => s
  | [k], s => List.zipWith (· ^^^ ·) ((aesInvShiftRows s).map aesInvSbox) k
  | k :: ks, s => aesDecGo ks (aesMix [14, 11, 13, 9] (List.zipWith (· ^^^ ·) ((aesInvShiftRows s).map aesInvSbox) k))

/-- AES-256 of one 16-byte block. -/
def aesEnc (key blk : Bytes) : Bytes :=
  match aesKeys key with
  | [] => blk
  | k :: ks => (aesEncGo ks (List.zipWith (· ^^^ ·) ((fitBytes 16 blk).map BitVec.toNat) k)).map (BitVec.ofNat 8)

/-- Inverse of AES-256 of one 16-byte block. -/
def aesDec (key blk : Bytes) : Bytes :=
  match (aesKeys key).reverse with
  | [] => blk
  | k :: ks => (aesDecGo ks (List.zipWith (· ^^^ ·) ((fitBytes 16 blk).map BitVec.toNat) k)).map (BitVec.ofNat 8)

/-- The XTS tweak times alpha: a little-endian left shift with feedback 0x87. -/
def xtsNext (t : Bytes) : Bytes :=
  let x := leNat t * 2
  leBytes 16 (if x < 2 ^ 128 then x else (x - 2 ^ 128) ^^^ 0x87)

/-- The blocks of one data unit, each under the running tweak. -/
def xtsGo (f : Bytes → Bytes) : Bytes → List Bytes → Bytes
  | _, [] => []
  | t, b :: bs => xorBytes (f (xorBytes b t)) t ++ xtsGo f (xtsNext t) bs

/-- XTS-AES-256 of one data unit of a multiple of 16 bytes: Key1 is the upper half of the 64-byte key (R252), the data unit number is
encoded little-endian. The key is held as 64 bytes, Key1 first. -/
def xtsEncrypt (key : Bytes) (dun : Nat) (data : Bytes) : Bytes :=
  xtsGo (aesEnc (key.take 32)) (aesEnc (key.drop 32) (leBytes 16 dun)) (chunksOf 16 data)

/-- The inverse of `xtsEncrypt`. -/
def xtsDecrypt (key : Bytes) (dun : Nat) (data : Bytes) : Bytes :=
  xtsGo (aesDec (key.take 32)) (aesEnc (key.drop 32) (leBytes 16 dun)) (chunksOf 16 data)

/-- Product in the GHASH field: bits of `y` from the most significant; `v` is the running multiple. -/
def ghashMulGo : Nat → Nat → Nat → Nat → Nat
  | 0, _, _, z => z
  | n + 1, y, v, z =>
    ghashMulGo n y (if v % 2 = 1 then (v / 2) ^^^ (0xE1 * 2 ^ 120) else v / 2) (if y / 2 ^ n % 2 = 1 then z ^^^ v else z)

/-- GHASH over blocks of 16 bytes, the last padded with zeros. -/
def ghash (h : Nat) (y : Nat) (data : Bytes) : Nat :=
  (chunksOf 16 data).foldl (fun acc b => ghashMulGo 128 (acc ^^^ beNat (fitBytes 16 b)) h 0) y

/-- The 16-byte tag of GCM over additional data and ciphertext, 96-bit IV. J0 is the IV followed by 0x0000_0001 (R253). -/
def gcmTag (key iv aad ct : Bytes) : Bytes :=
  let h := beNat (aesEnc key (zeroBytes 16))
  let s := ghash h (ghash h (ghash h 0 aad) ct) (beBytes 8 (8 * aad.length) ++ beBytes 8 (8 * ct.length))
  xorBytes (beBytes 16 s) (aesEnc key (iv ++ beBytes 4 1))

/-- GMAC (R253): the whole message is additional data, there is no plaintext. -/
def gmac (key iv msg : Bytes) : Bytes := gcmTag key iv msg []

/-- Counter mode from a 16-byte counter block, low 32 bits counting. -/
def ctrGo (key ctr : Bytes) : Nat → List Bytes → Bytes
  | _, [] => []
  | i, b :: bs =>
    let c := ctr.take 12 ++ beBytes 4 ((beNat (ctr.drop 12) + i) % 2 ^ 32)
    xorBytes b (aesEnc key c) ++ ctrGo key ctr (i + 1) bs

/-- Counter mode over a byte string. -/
def ctrCrypt (key ctr data : Bytes) : Bytes := ctrGo key ctr 0 (chunksOf 16 data)

/-- The payload of GCM under a 96-bit IV: counter mode from J0 + 1. -/
def gcmCrypt (key iv data : Bytes) : Bytes := ctrCrypt key (iv ++ beBytes 4 2) data

/-- Doubling of a CMAC subkey. -/
def cmacDbl (x : Nat) : Nat := if x * 2 < 2 ^ 128 then x * 2 else (x * 2 - 2 ^ 128) ^^^ 0x87

/-- The chained blocks of CMAC: the last one carries subkey and padding. -/
def cmacGo (key : Bytes) (k1 k2 : Nat) : Bytes → List Bytes → Bytes
  | x, [] => aesEnc key (xorBytes x (xorBytes (fitBytes 16 [0x80]) (beBytes 16 k2)))
  | x, [b] =>
    if b.length = 16 then aesEnc key (xorBytes x (xorBytes b (beBytes 16 k1)))
    else aesEnc key (xorBytes x (xorBytes (fitBytes 16 (b ++ [0x80])) (beBytes 16 k2)))
  | x, b :: bs => cmacGo key k1 k2 (aesEnc key (xorBytes x b)) bs

/-- AES-CMAC with a 256-bit key. -/
def cmac (key msg : Bytes) : Bytes :=
  let k1 := cmacDbl (beNat (aesEnc key (zeroBytes 16)))
  cmacGo key k1 (cmacDbl k1) (zeroBytes 16) (chunksOf 16 msg)

/-- One pass over the registers of AES-KW; `t` is the step counter. -/
def kwPass (key : Bytes) : Nat → Bytes → List Bytes → List Bytes → Bytes × List Bytes
  | _, a, done, [] => (a, done.reverse)
  | t, a, done, r :: rs =>
    let b := aesEnc key (a ++ r)
    kwPass key (t + 1) (xorBytes (b.take 8) (beBytes 8 t)) (b.drop 8 :: done) rs

/-- `n` passes of AES-KW. -/
def kwPasses (key : Bytes) : Nat → Nat → Bytes → List Bytes → Bytes × List Bytes
  | 0, _, a, rs => (a, rs)
  | n + 1, t, a, rs => let p := kwPass key t a [] rs
    kwPasses key n (t + rs.length) p.1 p.2

/-- AES-KW with the default initial value (R258): 8 bytes more than the input. -/
def kwWrap (key data : Bytes) : Bytes :=
  let p := kwPasses key 6 1 (List.replicate 8 0xA6) (chunksOf 8 data)
  p.1 ++ p.2.flatten

/-- One backward pass of AES-KW, registers last first. -/
def kwUnpass (key : Bytes) : Nat → Bytes → List Bytes → List Bytes → Bytes × List Bytes
  | _, a, done, [] => (a, done)
  | t, a, done, r :: rs =>
    let b := aesDec key (xorBytes a (beBytes 8 t) ++ r)
    kwUnpass key (t - 1) (b.take 8) (b.drop 8 :: done) rs

/-- `n` backward passes of AES-KW. -/
def kwUnpasses (key : Bytes) : Nat → Nat → Bytes → List Bytes → Bytes × List Bytes
  | 0, _, a, rs => (a, rs)
  | n + 1, t, a, rs => let p := kwUnpass key t a [] rs.reverse
    kwUnpasses key n (t - rs.length) p.1 p.2

/-- Unwrap: none where the integrity check fails (R258). -/
def kwUnwrap (key data : Bytes) : Option Bytes :=
  let rs := chunksOf 8 (data.drop 8)
  let p := kwUnpasses key 6 (6 * rs.length) (data.take 8) rs
  if p.1 = List.replicate 8 0xA6 then some p.2.flatten else none

end Sys2Proof.Machine
end

