-- ==== Sys2Proof/Machine/KeyOps.lean ====
section
/-! DEFINITION. Operations on keys: the key record and its copies (R258 to R260), key slots and their replacement (R255 to R257), wraps
(R258, R262), IVs and their ceiling (R253, R254), media and cartridge MAC keys (R261), key and escrow blocks (R262, R263). -/

namespace Sys2Proof.Machine

/-- The ASCII bytes of a string. -/
def ascii (s : String) : Bytes := s.toList.map (fun c => BitVec.ofNat 8 c.toNat)

/-- `n` bytes of the device root key (R258). -/
def rootKeyBytes : Bytes := (List.range 32).map Config.rootKey

/-- K_wrap: two AES-256 encryptions under the device root key (R258). -/
def kWrap : Bytes := aesEnc rootKeyBytes (ascii "UHLAY-KWRAP-0001") ++ aesEnc rootKeyBytes (ascii "UHLAY-KWRAP-0002")

/-! ### The key record (R260) -/

/-- Bytes 0x00 to 0xDB of the key record. -/
def KeyRec.body (k : KeyRec) : Bytes :=
  leBytes 4 0x55484B52 ++ leBytes 2 1 ++ leBytes 2 0 ++ leBytes 4 k.inst ++ leBytes 4 k.gen ++ fitBytes 48 k.cur ++ fitBytes 48 k.prev
    ++ fitBytes 40 k.owner ++ fitBytes 48 k.escrow ++ leBytes 8 k.ceiling ++ leBytes 2 k.fails ++ leBytes 2 0 ++ leBytes 4 k.lockLen
    ++ leBytes 4 k.seq

/-- The 224 bytes of the key record with its CRC. -/
def KeyRec.bytes (k : KeyRec) : Bytes := k.body ++ leBytes 4 (crc32c k.body)

/-- The key record a copy holds. -/
def KeyRec.read (b : Bytes) : KeyRec :=
  { inst := leAt b 0x08 4, gen := leAt b 0x0C 4, cur := slice b 0x10 48, prev := slice b 0x40 48, owner := slice b 0x70 40,
    escrow := slice b 0x98 48, ceiling := leAt b 0xC8 8, fails := leAt b 0xD0 2, lockLen := leAt b 0xD4 4, seq := leAt b 0xD8 4 }

/-- Every byte is zero. -/
def allZero (b : Bytes) : Bool := b.all (fun x => x = 0)

/-- The key of a wrapped master key entry: instance number, generation and key (R260). -/
def unwrapMaster (kek w : Bytes) : Option Bytes := (kwUnwrap kek w).map (fun b => b.drop 8)

/-- A copy of the key record as written: its identifier, version and CRC are right (R260). -/
def keyCopyWhole (b : Bytes) : Bool := b.length = 224 && leAt b 0 4 = 0x55484B52 && leAt b 4 2 = 1 && leAt b 0xDC 4 = crc32c (b.take 0xDC)

/-- The wrapped fields of a copy unwrap (R260). -/
def keyCopyUnwraps (b : Bytes) : Bool :=
  let k := KeyRec.read b
  (kwUnwrap kWrap k.cur).isSome && (allZero k.prev || (kwUnwrap kWrap k.prev).isSome)
    && (allZero k.owner || (kwUnwrap kWrap k.owner).isSome) && (allZero k.escrow || (kwUnwrap kWrap k.escrow).isSome)

/-- A copy is valid: it is whole and its wrapped fields unwrap (R260). -/
def keyCopyValid (b : Bytes) : Bool := keyCopyWhole b && keyCopyUnwraps b

/-- The record in force among the two copies: the valid one with the higher sequence, copy 0 of two alike (R260). -/
def keyRecOf (c : Copies) : Option KeyRec :=
  let v (x : Option Bytes) : Option KeyRec := x.bind (fun b => if keyCopyValid b then some (KeyRec.read b) else none)
  match v c.c0, v c.c1 with
  | some a, some b => if a.seq < b.seq then some b else some a
  | some a, none => some a
  | none, b => b

/-- Write the key record with the next record sequence (R260). -/
def State.writeKeyRec (s : State) (k : KeyRec) (act : NorAct) : State := s.norWrite 1 ({ k with seq := (k.seq + 1) % 2 ^ 32 }).bytes act

/-- The key record in force, a record of zeros before commissioning. -/
def State.krec (s : State) : KeyRec :=
  s.keys.krec.getD { inst := 0, gen := 0, cur := [], prev := [], owner := [], escrow := [], ceiling := 0, fails := 0, lockLen := 0,
                     seq := 0 }

/-- Magazine instance number (R259). -/
def State.instNo (s : State) : Nat := s.krec.inst

/-- The magazine is claimed: an owner key is held (R259, R270). -/
def State.claimed (s : State) : Bool := !allZero s.krec.owner

/-! ### Key slots (R255 to R257) -/

/-- Key of slot `i`, none when not loaded. -/
def State.slotKey (s : State) (i : Nat) : Option Bytes := (NMap.find? s.keys.slots i).map (fun k => k.key)

/-- Load slot `i`. -/
def State.loadSlot (s : State) (i : Nat) (key : Bytes) (id : Nat) : State :=
  s.modKeys (fun k => { k with slots := NMap.put k.slots i { key, id, used := k.clock }, clock := k.clock + 1 })

/-- Clear slot `i`. -/
def State.clearSlot (s : State) (i : Nat) : State := s.modKeys (fun k => { k with slots := NMap.del k.slots i })

/-- Clear every slot (R256). -/
def State.clearSlots (s : State) : State := s.modKeys (fun k => { k with slots := [] })

/-- Load a slot with an unwrapped key, or clear it when the wrapped field is zero; a failing unwrap loads nothing and raises EVT 0x7C3
(R258). -/
def State.loadWrapped (s : State) (i : Nat) (kek w : Bytes) (skip cause : Nat) : State :=
  if allZero w then s.clearSlot i
  else
    match kwUnwrap kek w with
    | some b => s.loadSlot i (b.drop skip) 0
    | none => s.raise 0x7C3 cause []

/-- Load K_wrap, the master key, the owner key and the escrow key from the record in force (R255, R256). -/
def State.loadRecordSlots (s : State) : State :=
  let k := s.krec
  (((s.loadSlot 256 kWrap 0).loadWrapped 257 kWrap k.cur 8 1).loadWrapped 258 kWrap k.owner 0 1).loadWrapped 259 kWrap k.escrow 8 1

/-- Magazine master key. -/
def State.masterKey (s : State) : Bytes := (s.slotKey 257).getD []

/-- Owner key. -/
def State.ownerKey (s : State) : Bytes := (s.slotKey 258).getD []

/-- The XTS slot that holds a media key. -/
def State.slotOf (s : State) (keyId : Nat) : Option Nat :=
  (List.find? (fun (e : Nat × KeySlot) => decide (e.1 < 256) && e.2.id == keyId) s.keys.slots).map Prod.fst

/-- Slots that a change of cartridge or of its keys leaves alone: those of the magazine's own keys and those bound to kernel instances (R255). -/
def keptSlot (i : Nat) : Bool := (decide (256 ≤ i) && decide (i ≤ 259)) || decide (272 ≤ i)

/-- Media key identifier of a take, 0 when it has none. -/
def State.takeKey (s : State) (t : Nat) : Nat := ((NMap.find? s.sp.takes t).map (fun x => x.keyId)).getD 0

/-- A slot may not be reloaded: a bound stream context or a record queued for decryption names its key (R257). -/
def State.slotBound (s : State) (id : Nat) : Bool :=
  s.sp.ctxs.any (fun e => e.2.zone.isSome && s.takeKey e.2.take == id) || s.sp.recs.any (fun r => r.keyId == id && !r.done)
    || s.rc.recs.any (fun r => beAt r.header 0x1E 2 == id && !(r.decoded && decide (r.span ≤ r.parts)))

/-- The slot a media key goes into: a free one, else the least recently used that may be reloaded; none when there is none (R257). -/
def State.freeXts (s : State) : Option Nat :=
  match (List.range 256).find? (fun i => (NMap.find? s.keys.slots i).isNone) with
  | some i => some i
  | none =>
    let c := s.keys.slots.filter (fun e => decide (e.1 < 256) && !s.slotBound e.2.id)
    (c.foldl (fun (a : Option (Nat × Nat)) e =>
        match a with
        | some (i, u) => if e.2.used < u then some (e.1, e.2.used) else some (i, u)
        | none => some (e.1, e.2.used)) none).map Prod.fst

/-! ### Entries of the index journal, key block and escrow block (R261, R262) -/

/-- First 8 bytes of a MAC key entry. -/
def macHead (id inst : Nat) : Bytes := beBytes 2 id ++ beBytes 2 0 ++ beBytes 4 inst

/-- First 8 bytes of a media key entry. -/
def mediaHead (id take : Nat) : Bytes := beBytes 2 id ++ beBytes 2 0 ++ beBytes 4 take

/-- An entry's key: its unwrap passes and gives back the clear head (R262). -/
def entryKey (kek head wrapped : Bytes) : Option Bytes :=
  match kwUnwrap kek wrapped with
  | some b => if b.take 8 = head then some (b.drop 8) else none
  | none => none

/-- A MAC key of the mounted cartridge in clear, under the master key. -/
def State.macKey (s : State) (id : Nat) : Option Bytes :=
  (NMap.find? s.keys.macs id).bind (fun m => entryKey s.masterKey (macHead id m.inst) m.wrapped)

/-- A media key of the mounted cartridge in clear, under the master key. -/
def State.mediaKey (s : State) (id : Nat) : Option Bytes :=
  (NMap.find? s.keys.medias id).bind (fun m => entryKey s.masterKey (mediaHead id m.take) m.wrapped)

/-- Load a media key into an XTS slot: touched when loaded already; otherwise unwrapped into a free or the least recently used slot; an
entry that fails its unwrap loads nothing and raises EVT 0x7C3; with no slot free nothing happens yet (R257, R258). -/
def State.keySlotLoad (s : State) (keyId : Nat) : State :=
  match s.slotOf keyId with
  | some i => s.modKeys (fun k => { k with slots := NMap.modify k.slots i (fun x => { x with used := k.clock }), clock := k.clock + 1 })
  | none =>
    match NMap.find? s.keys.medias keyId with
    | none => s
    | some _ =>
      match s.freeXts with
      | none => s
      | some i =>
        match s.mediaKey keyId with
        | some key => s.loadSlot i key keyId
        | none => s.raise 0x7C3 2 []

/-- The key with this identifier as it stands in its XTS slot; none while it is in no slot. -/
def State.xtsKey (s : State) (keyId : Nat) : Option Bytes := (s.slotOf keyId).bind s.slotKey

/-- A key block (under the master key) or an escrow block (under the escrow key) for the next index generation (R262). -/
def State.keyBlock (s : State) (escrow : Bool) : Bytes :=
  let k := s.krec
  let kek := if escrow then (s.slotKey 259).getD [] else s.masterKey
  let label := if escrow then ((kwUnwrap kWrap k.escrow).getD []).take 8 else zeroBytes 8
  let erased (id : Nat) : Bool := s.sp.takes.any (fun t => t.2.erased && t.2.keyId == id)
  let medias := s.keys.medias.filter (fun e => !erased e.1)
  let macE (e : Nat × MacKey) : Bytes :=
    let h := macHead e.1 e.2.inst
    h ++ (if escrow then kwWrap kek (h ++ (s.macKey e.1).getD []) else fitBytes 48 e.2.wrapped)
  let mediaE (e : Nat × MediaKey) : Bytes :=
    let h := mediaHead e.1 e.2.take
    h ++ (if escrow then kwWrap kek (h ++ (s.mediaKey e.1).getD []) else fitBytes 80 e.2.wrapped)
  beBytes 4 (if escrow then 0x53524553 else 0x53524B42) ++ beBytes 2 1 ++ beBytes 2 s.keys.macs.length ++ beBytes 4 medias.length
    ++ beBytes 4 k.inst ++ beBytes 4 k.gen ++ fitBytes 8 label ++ beBytes 4 0 ++ s.keys.macs.flatMap macE ++ medias.flatMap mediaE

/-- The MAC keys of a block, by identifier, with their clear keys under `kek`: none when an entry fails (R262, R263). -/
def blockMacs (kek b : Bytes) : Option (List (Nat × Nat × Bytes)) :=
  (List.range (beAt b 6 2)).mapM (fun i =>
    let o := 0x20 + 56 * i
    (entryKey kek (slice b o 8) (slice b (o + 8) 48)).map (fun key => (beAt b o 2, beAt b (o + 4) 4, key)))

/-- The media keys of a block, by identifier, with their takes and clear keys. -/
def blockMedias (kek b : Bytes) : Option (List (Nat × Nat × Bytes)) :=
  let base := 0x20 + 56 * beAt b 6 2
  (List.range (beAt b 8 4)).mapM (fun i =>
    let o := base + 88 * i
    (entryKey kek (slice b o 8) (slice b (o + 8) 80)).map (fun key => (beAt b o 2, beAt b (o + 4) 4, key)))

/-! ### IVs (R253, R254) -/

/-- The next IV, most significant byte first: the instance number and the counter. -/
def State.ivBytes (s : State) : Bytes := beBytes 4 s.instNo ++ beBytes 8 s.keys.iv

/-- An IV can be issued: a ceiling has verified in NOR, the counter has not reached it, and no ceiling write has failed in both copies. -/
def State.ivReady (s : State) : Bool :=
  match s.keys.ceiling with
  | some c => decide (s.keys.iv < c) && !s.keys.ivDead
  | none => false

/-- Issue an IV: none while it must wait or no more are issued. -/
def State.takeIv (s : State) : Option (Bytes × State) :=
  if s.ivReady then some (s.ivBytes, s.modKeys (fun k => { k with iv := k.iv + 1 })) else none

/-! ### New keys (R261, R281) -/

/-- A media key for a take: the next identifier, wrapped under the master key and loaded into a slot. The caller has checked the TRNG, the
65,535 identifiers and journals the entry. -/
def State.newMediaKey (s : State) (take : Nat) : Nat × State :=
  let id := s.keys.mediaNext + 1
  let key := s.trngBytes 64
  let h := mediaHead id take
  let t := (s.drawn 1).modKeys (fun k =>
    { k with mediaNext := id, medias := NMap.put k.medias id { take, wrapped := kwWrap s.masterKey (h ++ key) } })
  (id, t.keySlotLoad id)

/-- A cartridge MAC key of this magazine: the next identifier, loaded into its MAC slot. -/
def State.newMacKey (s : State) : State :=
  let id := (s.keys.macs.foldl (fun m e => max m e.1) 0) + 1
  let key := s.trngBytes 32
  let h := macHead id s.instNo
  ((s.drawn 1).modKeys (fun k =>
    { k with macs := NMap.put k.macs id { inst := s.instNo, wrapped := kwWrap s.masterKey (h ++ key) }, macCur := some id })).loadSlot
      (259 + id) key id

/-- Load every MAC key of the mounted cartridge into MAC slots 4 to 15 (R255, R261). -/
def State.loadMacSlots (s : State) : State :=
  s.keys.macs.foldl (fun t e =>
    match s.macKey e.1 with
    | some key => t.loadSlot (259 + e.1) key e.1
    | none => t.raise 0x7C3 2 []) s

/-- Bytes of the next block of a record: a whole block, or what is left of a closed record; 0 while the block is not complete (R223, R224). -/
def PackRec.nextBlock (r : PackRec) : Nat :=
  let left := r.data.length - r.at_
  if 1024 * r.block ≤ left then 1024 * r.block else if r.closed.isSome then left else 0

end Sys2Proof.Machine
end

