-- ==== Sys2Proof/Machine/CarOps.lean ====
section
/-! DEFINITION. Operations of the Carousel: geometry (R285, R287, R313, R318), dies, blocks and units (R291, R305), retirement (R306, R316),
journals and what they hold persistently (R298, R302), the take log (R292), flush extents (R296, R297), sidecar extents and
deallocation (R293 to R295, R312), the age clock (R307 to R309). -/

namespace Sys2Proof.Machine

/-- Code of a unit kind in a page tag. -/
def UKind.code : UKind → Nat
  | .image => 1 | .flush => 2 | .large => 3 | .fine => 4 | .indexJ => 5 | .mapJ => 6 | .checkpoint => 7

/-- Pages of a unit (R291). -/
def UKind.pages : UKind → Nat
  | .image | .flush | .large => 64
  | _ => 1

/-- Units of sidecar data. -/
def UKind.sidecar : UKind → Bool
  | .large | .fine => true
  | _ => false

/-! ### Geometry (R285, R287, R313, R318) -/

/-- Dies on each channel of a configuration. -/
def diesOf (cfg : Nat) : Nat := if cfg = 2 then 3 else if cfg = 4 then 6 else if cfg = 8 then 12 else if cfg = 16 then 24 else 0

/-- SLC-mode capacity, bytes: 2, 4, 8 or 16 TB. -/
def State.slcBytes (s : State) : Nat := s.pn pCSL_CONFIG * 10 ^ 12

/-- Pages of a die block: those of every plane. -/
def State.blockPages (s : State) : Nat := s.pn pCSL_PLANES * s.pn pCSL_PAGES_BLK

/-- Bytes of a die block. -/
def State.blockBytes (s : State) : Nat := 16384 * s.blockPages

/-- Dies populated. -/
def State.dieCount (s : State) : Nat := 16 * s.car.perChan

/-- A die is populated. -/
def State.dieThere (s : State) (d : Nat) : Bool := decide (d < 384) && decide (d % 24 < s.car.perChan)

/-- A die. -/
def State.die (s : State) (d : Nat) : Die := NMap.get { retired := false, fails := 0, offset := 0, retiredBlocks := 0 } s.car.dies d

/-- Every populated die in the order of its number. -/
def State.dieList (s : State) : List Nat := (List.range 384).filter s.dieThere

/-- A die block nobody has used. -/
def Block.zero : Block := { erases := 0, use := 0, space := 0, next := 0, age := 0, temp := 0, rtc := 0 }

/-- Key of a die block. -/
def blockKey (d b : Nat) : Nat := 65536 * d + b

/-- A die block. -/
def State.block (s : State) (d b : Nat) : Block := NMap.get Block.zero s.car.blocks (blockKey d b)

/-- Change a die block. -/
def State.modBlock (s : State) (d b : Nat) (f : Block → Block) : State :=
  s.modCar (fun c => { c with blocks := NMap.upd Block.zero c.blocks (blockKey d b) f })

/-- Change a die. -/
def State.modDie (s : State) (d : Nat) (f : Die → Die) : State :=
  s.modCar (fun c => { c with dies := NMap.upd { retired := false, fails := 0, offset := 0, retiredBlocks := 0 } c.dies d f })

/-- LBAs of the sidecar namespace (R318). -/
def State.sideLbas (s : State) : Nat := s.slcBytes * s.pn pCSL_SC_PCT / 100 / 4096 / 256 * 256

/-- The cap of C16 without host memory buffer: 4 % of the capacity, in whole extents (R318). -/
def State.sideCap (s : State) : Nat := s.slcBytes * 4 / 100 / 4096 / 256 * 256

/-- The cap of R318 applies: C16, and the map is not in the host memory buffer nor on its way there. -/
def State.capOn (s : State) : Bool := s.pn pCSL_CONFIG = 16 && s.car.hmb != 2 && s.car.hmb != 1

/-- Bytes of the fine-unit map rounded up to 4 KiB, plus 128 MiB, in 4 KiB units; 0 except in C16 (R319). -/
def State.hmPre (s : State) : Nat :=
  if s.pn pCSL_CONFIG = 16 then (s.sideLbas / 4 * 16 + 4095) / 4096 + 32768 else 0

/-- HMMIN (R319). -/
def State.hmMin (s : State) : Nat := if 4 < s.pn pCSL_SC_PCT then s.hmPre else 0

/-- The sidecar reservation in bytes (R313). -/
def State.sideReserve (s : State) : Nat := s.sideLbas * 4096 * (100 + s.pn pCSL_SC_OP) / 100

/-- Die blocks of the sidecar reservation left after wear (R313, R316). -/
def State.sideBlocks (s : State) : Nat := (s.sideReserve + s.blockBytes - 1) / s.blockBytes - s.car.lostSide

/-- Take staging space, bytes: the rest of the SLC-mode capacity (R313), less what wear took (R316). -/
def State.stageTotal (s : State) : Nat :=
  s.slcBytes - s.sideReserve - 2 * s.pn pCSL_CKPT_MIB * 4 * 2 ^ 20 - 4 * s.dieCount * s.blockBytes - s.car.lostStage * s.blockBytes

/-- Bytes of DS images and flush extents held (R322). -/
def State.stageUsed (s : State) : Nat :=
  s.sp.images.length * dsInfo + (s.car.units.filter (fun e => e.2.kind = .flush && e.2.mapped)).length * 2 ^ 20

/-- Take staging bytes free. -/
def State.stageFree (s : State) : Nat := s.stageTotal - s.stageUsed

/-- The staging space can hold `n` more bytes, and two C3 groups in all (R315, R317). -/
def State.stageRoom (s : State) (n : Nat) : Bool := decide (s.stageUsed + n ≤ s.stageTotal) && decide (192675840 ≤ s.stageTotal)

/-! ### Allocation (R305) -/

/-- Pages of program work queued on a die. -/
def State.dieWork (s : State) (d : Nat) : Nat := s.car.units.foldl (fun n e => if e.2.die = d then n + e.2.left else n) 0

/-- Page statuses of a whole unit: one for each multi-plane page of a large unit (R291, R301). -/
def State.unitStatuses (s : State) (k : UKind) : Nat := if k.pages = 64 then 64 / max 1 (s.pn pCSL_PLANES) else 1

/-- The open block of a space on a die that has room for `n` pages: its number. -/
def State.openBlock (s : State) (d space n : Nat) : Option Nat :=
  (List.find? (fun (e : Nat × Block) =>
      e.1 / 65536 = d && e.2.use = 1 && e.2.space = space && decide (e.2.next + n ≤ s.blockPages)) s.car.blocks).map
    (fun e => e.1 % 65536)

/-- The free die block on a die with the lowest erase count, the lowest number among equals. -/
def State.freeBlock (s : State) (d : Nat) : Option Nat :=
  ((List.range s.car.blocksPerDie).foldl (fun (a : Option (Nat × Nat)) b =>
      let k := s.block d b
      if k.use != 0 then a
      else
        match a with
        | some (_, e) => if k.erases < e then some (b, k.erases) else a
        | none => some (b, k.erases)) none).map Prod.fst

/-- Die blocks in use for sidecar data. -/
def State.sideUsed (s : State) : Nat :=
  (s.car.blocks.filter (fun e => (e.2.use = 1 || e.2.use = 2) && (e.2.space = 3 || e.2.space = 4))).length

/-- Where a unit of a kind goes on a die: the block and the first page, with whether the block is taken from the free pool. A sidecar unit
takes no new block beyond its reservation when no spare is left (R317). -/
def State.place (s : State) (d : Nat) (k : UKind) : Option (Nat × Nat × Bool) :=
  match s.openBlock d k.code k.pages with
  | some b => some (b, (s.block d b).next, false)
  | none =>
    if k.sidecar && s.car.spares = 0 && decide (s.sideBlocks ≤ s.sideUsed) then none else (s.freeBlock d).map (fun b => (b, 0, true))

/-- The best die for a unit among `ds`: the one with the least program work queued, the lowest number among equals, that has room. -/
def State.bestDie (s : State) (ds : List Nat) (k : UKind) : Option Nat :=
  (ds.foldl (fun (a : Option (Nat × Nat)) d =>
      if (s.die d).retired || (s.place d k).isNone then a
      else
        let w := s.dieWork d
        match a with
        | some (_, v) => if w < v then some (d, w) else a
        | none => some (d, w)) none).map Prod.fst

/-- Program sequences may be used: the root record's ceiling has been written and is not reached (R428). -/
def State.seqRoom (s : State) : Bool :=
  match s.car.pceil with
  | some c => decide (s.car.pseq < c)
  | none => false

/-- A unit may be programmed: program sequences may be used, and the write area can be read (R460). -/
def State.seqReady (s : State) : Bool := s.seqRoom && !s.car.bufBad && s.flows 18 && s.flows 68

/-- Take a place for a unit and note it in the block record: a block from the free pool is erased first, and the age clock, temperature
and clock are recorded with its first page (R302, R305, R308). -/
def State.takePlace (s : State) (d b p n : Nat) (fresh : Bool) (space : Nat) : State :=
  s.modBlock d b (fun k =>
    let k1 := if fresh then { k with erases := k.erases + 1, use := 1, space, next := 0 } else k
    let k2 := if p = 0 then { k1 with age := s.car.age, temp := s.pw.temp, rtc := s.rtcSec } else k1
    { k2 with next := p + n, use := if p + n < s.blockPages then 1 else 2 })

/-- What the page tag takes from the moment of the program: boot count, clock and the erase count of the die block. -/
def State.stampOf (s : State) (d b : Nat) : Nat × Nat × Nat := (s.car.boots, s.rtcSec % 2 ^ 32, (s.block d b).erases)

/-- Program a new unit: none when no die has room, or no program sequence may be used. The result is its number. -/
def State.newUnit (s : State) (k : UKind) (laddr : Nat) (data : Bytes) (lbas : List Nat) : Option (Nat × State) :=
  if s.seqReady then
    match s.bestDie s.dieList k with
    | some d =>
      (s.place d k).map (fun (b, p, fresh) =>
        let id := s.car.nextUnit
        let t := (s.pass 68 1 1).takePlace d b p k.pages fresh k.code
        (id, t.modCar (fun c =>
          { c with
            units := NMap.put c.units id
              { kind := k, laddr, die := d, block := b, page := p, seq := c.pseq, stamp := t.stampOf d b, left := s.unitStatuses k, data, persisted := false,
                journalled := false, mapped := true, lbas, bad := [] }
            nextUnit := id + 1
            pseq := c.pseq + 1 })))
    | none => none
  else none

/-- Program a unit again elsewhere: from its buffer copy (R301), or, once it has persisted, with the sectors it lost still lost (R306, R310);
nothing when there is no room. -/
def State.reprogram (s : State) (id : Nat) : State :=
  match NMap.find? s.car.units id with
  | some u =>
    if s.seqReady then
      match s.bestDie s.dieList u.kind with
      | some d =>
        match s.place d u.kind with
        | some (b, p, fresh) =>
          let t := s.takePlace d b p u.kind.pages fresh u.kind.code
          t.modCar (fun c =>
            { c with
              units := NMap.put c.units id
                { u with die := d, block := b, page := p, seq := c.pseq, stamp := t.stampOf d b, left := s.unitStatuses u.kind, persisted := false
                         bad := if u.persisted then u.bad else [] }
              pseq := c.pseq + 1 })
        | none => s
      | none => s
    else s
  | none => s

/-! ### Journals (R298, R300, R302) -/

/-- Append a commit to one of the journals; a sealed map journal takes no further record until the next BOOT (R300). Each commit programs a fresh page in both mirrors. -/
def State.commitTo (s : State) (index : Bool) (recs : List JRec) (after : List Nat) : State :=
  if s.car.sealed && !index then s
  else
    s.modCar (fun c =>
      { c with journal := c.journal ++ [{ index, recs, after }], sinceCkpt := if index then c.sinceCkpt else c.sinceCkpt + 16384 })

/-- Append to the map journal. -/
def State.mapCommit (s : State) (recs : List JRec) (after : List Nat) : State := s.commitTo false recs after

/-- Append to the index journal. -/
def State.indexCommit (s : State) (recs : List JRec) : State := s.commitTo true recs []

/-- At least `k` blocks of zone `z` are spool-committed. -/
def raiseFloor (f : NMap Nat) (z k : Nat) : NMap Nat := NMap.upd 0 f z (fun x => max x k)

/-- What one persisted record changes in the persistent map. -/
def NvMap.apply (n : NvMap) (r : JRec) : NvMap :=
  let m := { n with sealed := none }
  match r with
  | .unit id => { m with units := if n.units.contains id then n.units else id :: n.units }
  | .release id => { m with units := n.units.filter (fun x => x != id) }
  | .extent e (some v) => { m with exts := NMap.put n.exts e v }
  | .extent e none => { m with exts := NMap.del n.exts e }
  | .block d b v => { m with blocks := NMap.put n.blocks (blockKey d b) v }
  | .die d v => { m with dies := NMap.put n.dies d v }
  | .tail t => { m with tail := t }
  | .image q (some v) => { m with images := NMap.put n.images q v }
  | .image q none => { m with images := NMap.del n.images q }
  | .zone z (some v) => { m with zones := NMap.put n.zones z v }
  | .zone z none => { m with zones := NMap.del n.zones z, floors := NMap.del n.floors z }
  | .take t v => { m with takes := NMap.put n.takes t v }
  | .counters lastTake current nextSeq stream mediaNext initCount cartridge nz =>
    { m with lastTake, current, nextSeq, stream, mediaNext, initCount, cartridge, nz }
  | .next q x => { m with nextSeq := q, stream := x }
  | .mac id (some v) cur => { m with macs := NMap.put n.macs id v, macCur := if cur then some id else n.macCur }
  | .mac id none _ => { m with macs := NMap.del n.macs id, macCur := if n.macCur = some id then none else n.macCur }
  | .media id (some v) => { m with medias := NMap.put n.medias id v }
  | .media id none => { m with medias := NMap.del n.medias id }
  | .loc l => { m with locs := n.locs ++ [l] }
  | .append w p => { m with append := (w, p) }
  | .commit g k =>
    let gone := n.images.filter (fun e => decide (g ≤ e.1) && decide (e.1 < g + k))
    { m with
      images := n.images.filter (fun e => decide (e.1 < g) || decide (g + k ≤ e.1))
      groups := NMap.del n.groups g
      floors := gone.foldl (fun (f : NMap Nat) (e : Nat × DsImage) =>
        e.2.lbas.foldl (fun (f : NMap Nat) (r : Nat × Nat) => raiseFloor f (r.1 / 65536) (r.1 % 65536 + r.2)) f) n.floors }
  | .group f k => { m with groups := NMap.put n.groups f k }
  | .floor z k => { m with floors := raiseFloor n.floors z k }
  | .gen newest last due since => { m with newest, lastGen := last, genDue := due, sinceGen := since }
  | .sectors c t x => { m with sectors := NMap.put n.sectors (65536 * t + c) x }
  | .event e => { m with events := e :: n.events }
  | .wear spares readOnly => { m with spares, readOnly }
  | .wipe =>
    { NvMap.zero with exts := n.exts, units := n.units, blocks := n.blocks, dies := n.dies, events := n.events, spares := n.spares,
                      readOnly := n.readOnly, tail := n.tail, ckAge := n.ckAge }
  | .sealRec age rtc credit => { m with sealed := some (age, rtc, credit) }

/-- Payload stream offset of the next DS to be assembled. -/
def State.filledStream (s : State) : Nat := s.sp.stream - dsPayload * s.sp.filled.length

/-- Records that carry the counters of the take state (R92, R442). -/
def State.counterRec (s : State) : JRec :=
  .counters s.sp.lastTake s.sp.current s.sp.nextSeq s.filledStream s.keys.mediaNext s.sp.initCount s.sp.cartridge s.sp.nz

/-! ### The take log (R292) -/

/-- Pages of a unit whose status has passed. -/
def State.passed (s : State) (u : CUnit) : Nat := 64 - u.left * max 1 (s.pn pCSL_PLANES)

/-- Take log unit `k`. -/
def State.logUnit (s : State) (k : Nat) : Option (Nat × CUnit) :=
  List.find? (fun (e : Nat × CUnit) => e.2.kind = .image && e.2.laddr == k && e.2.mapped) s.car.units

/-- Pages of take log unit `k` that hold images. -/
def State.logFilled (s : State) (k : Nat) : Nat := min 64 (s.car.tail / 16384 - 64 * k)

/-- The take log units an image lies in, each with the last of its pages the image uses plus 1. -/
def imageUnits (off : Nat) : List (Nat × Nat) :=
  let a := off / 16384
  let b := a + 196
  (List.range (b / 64 + 1 - a / 64)).filterMap (fun i =>
    let k := a / 64 + i
    if 64 * k < b then some (k, min 64 (b - 64 * k)) else none)

/-- Every page of an image has been programmed. -/
def State.imageProgrammed (s : State) (off : Nat) : Bool :=
  (imageUnits off).all (fun (k, p) =>
    match s.logUnit k with
    | some (_, u) => decide (p ≤ s.passed u)
    | none => false)

/-- Append an image to the take log: units whose first byte it reaches are allocated; its record follows in the map journal. None when a
unit cannot be allocated (R292, R298). -/
def State.appendImage (s : State) (q : Nat) (img : DsImage) : Option State :=
  let off := s.car.tail
  let new := (imageUnits off).filter (fun (k, _) => decide (off ≤ 2 ^ 20 * k))
  (new.foldl (fun (t : Option State) (k, _) =>
      t.bind (fun u => (u.newUnit .image k [] []).map (fun (id, v) => v.mapCommit [.unit id] []))) (some s)).map (fun t =>
    let v := { img with logOff := off }
    ((t.modCar (fun c => { c with tail := off + dsInfo })).modSp (fun p => { p with images := NMap.put p.images q v })).mapCommit
      [.tail (off + dsInfo), .image q (some { v with persisted := true }), .next t.sp.nextSeq t.filledStream] [])

/-- A record that makes take data persistent: of a DS image or of a flush extent. -/
def State.takeDataRec (s : State) : JRec → Bool
  | .image _ (some _) => true
  | .unit id => (NMap.find? s.car.units id).elim false (fun u => u.kind = .flush)
  | _ => false

/-- A commit on its way carries a media key. -/
def State.mediaWaits (s : State) : Bool :=
  s.car.journal.any (fun c => c.recs.any (fun r => match r with | .media _ (some _) => true | _ => false))

/-- A commit may be written: every unit it points at has persisted, every image it names has been programmed (R302), and no media key is
still on its way when it makes data of the take persistent (R261). -/
def State.commitReady (s : State) (c : JCommit) : Bool :=
  !(!c.index && c.recs.any s.takeDataRec && s.mediaWaits) && c.after.all (fun id => ((NMap.find? s.car.units id).map (fun u => u.persisted)).getD true)
    && c.recs.all (fun r =>
      match r with
      | .image _ (some v) => s.imageProgrammed v.logOff
      | _ => true)

/-- Take log units with no image left in them are unmapped (R314). -/
def State.trimLog (s : State) : State :=
  let live (k : Nat) : Bool := s.sp.images.any (fun e => (imageUnits e.2.logOff).any (fun x => x.1 == k)) || decide (s.car.tail < 2 ^ 20 * (k + 1))
  let dead := s.car.units.filter (fun e => e.2.kind = .image && e.2.mapped && !live e.2.laddr)
  if dead.isEmpty then s
  else
    (s.modCar (fun c => { c with units := dead.foldl (fun m e => NMap.put m e.1 { e.2 with mapped := false }) c.units })).mapCommit
      (dead.map (fun e => .release e.1)) []

/-! ### Flush extents (R296, R297) -/

/-- The 4,096 header bytes of a flush extent. -/
def flushHeader (take keyId count zone start num crc : Nat) : Bytes :=
  let b := leBytes 4 0x53464C58 ++ leBytes 4 take ++ leBytes 2 keyId ++ leBytes 2 count ++ leBytes 4 zone ++ leBytes 8 start
    ++ leBytes 8 num ++ leBytes 4 crc ++ zeroBytes 4056
  b ++ leBytes 4 (crc32c b)

/-- The LBAs of a flush extent as programmed: each one XTS data unit numbered 2^127 + F·2^8 + i (R297). -/
def flushBody (key : Bytes) (num : Nat) (blocks : List Bytes) : Bytes :=
  (blocks.zipIdx.flatMap (fun (b, i) => xtsEncrypt key (2 ^ 127 + num * 256 + i) b))

/-- A flush unit holds this LBA. -/
def State.inFlush (s : State) (lba : Nat) : Bool :=
  s.car.units.any (fun e => e.2.kind = .flush && e.2.mapped && decide (e.2.lbas.getD 0 0 ≤ lba) && decide (lba < e.2.lbas.getD 0 0 + e.2.lbas.getD 1 0))

/-- Write a run of consecutive LBAs of one zone as one flush extent; nothing when there is no room for it or its key is not known. -/
def State.flushRun (s : State) (start : Nat) (blocks : List Bytes) : State :=
  let z := zoneOf start
  let take := (NMap.find? s.sp.zones z).elim 0 (fun x => x.take)
  let keyId := s.takeKey take
  let num := s.car.flushNo
  match s.mediaKey keyId with
  | some key =>
    let data := fitBytes (2 ^ 20) (flushHeader take keyId blocks.length z start num (crc32c blocks.flatten) ++ flushBody key num blocks)
    if s.stageRoom (2 ^ 20) then
      match s.newUnit .flush num data [start, blocks.length] with
      | some (id, t) => (t.modCar (fun c => { c with flushNo := num + 1 })).mapCommit [.unit id] [id]
      | none => s
    else s
  | none => s

/-- Cut a rising list of LBAs with their blocks into runs of consecutive LBAs of one zone, at most 255 long. -/
def lbaRuns : List (Nat × Bytes) → List (Nat × List Bytes)
  | [] => []
  | (l, b) :: rest =>
    match lbaRuns rest with
    | (k, bs) :: more =>
      if k = l + 1 && zoneOf k = zoneOf l && decide (bs.length < 255) then (l, b :: bs) :: more else (l, [b]) :: (k, bs) :: more
    | [] => [(l, [b])]

/-- Program as flush extents every LBA of the write area chosen by `p` that has not persisted, lies in no DS and in no flush extent. -/
def State.flushWhere (s : State) (p : Nat → WLba → Bool) : State :=
  let l := (s.sp.wbuf.filter (fun e => p e.1 e.2 && !e.2.persisted && e.2.ds.isNone && !s.inFlush e.1)).map (fun e => (e.1, e.2.data))
  (lbaRuns l).foldl (fun t (k, bs) => t.flushRun k bs) s

/-- Flush extents whose LBAs all lie in persisted DS images are released, which the map journal records (R297). -/
def State.releaseFlush (s : State) : State :=
  let covered (l : Nat) : Bool := s.sp.images.any (fun e => e.2.persisted && e.2.lbas.any (fun r => decide (r.1 ≤ l) && decide (l < r.1 + r.2)))
    || (NMap.find? s.sp.wbuf l).isNone
  let dead := s.car.units.filter (fun e => e.2.kind = .flush && e.2.mapped && e.2.journalled
    && (List.range (e.2.lbas.getD 1 0)).all (fun i => covered (e.2.lbas.getD 0 0 + i)))
  if dead.isEmpty then s
  else
    (s.modCar (fun c => { c with units := dead.foldl (fun m e => NMap.put m e.1 { e.2 with mapped := false }) c.units })).mapCommit
      (dead.map (fun e => .release e.1)) []

/-! ### Sidecar extents (R293 to R295) -/

/-- What a sidecar LBA reads as. -/
inductive SideRead where
  | data (b : Bytes)
  | zero
  | unreadable
  deriving DecidableEq, Repr

/-- LBA `i` of a page of a unit: its data, unless a sector of it is uncorrectable. -/
def CUnit.lba (u : CUnit) (page i : Nat) : SideRead :=
  if u.bad.contains (8 * page + 2 * i) || u.bad.contains (8 * page + 2 * i + 1) then .unreadable
  else .data (fitBytes 4096 (slice u.data (16384 * page + 4096 * i) 4096))

/-- Entry `j` of a fine-mapped extent: what its LBA `i` reads as. -/
def State.fineLba (s : State) (f : Fine) (j i : Nat) : SideRead :=
  match f.unit with
  | none => .zero
  | some id =>
    if Nat.testBit f.zero i then .zero
    else if Nat.testBit f.unread i then .unreadable
    else
      match NMap.find? s.car.units id with
      | some u => u.lba (if f.inLarge then j else 0) i
      | none => .zero

/-- Entries of an extent as fine units: a large-mapped one is split into 64 entries that point into its unit. -/
def Ext.split : Ext → NMap Fine
  | .large u => (List.range 64).map (fun j => (j, { unit := some u, inLarge := true, zero := 0, unread := 0 }))
  | .fine m _ => m

/-- What a sidecar LBA reads as (R295). -/
def State.sideRead (s : State) (lba : Nat) : SideRead :=
  match NMap.find? s.car.exts (lba / 256) with
  | none => .zero
  | some (.large id) =>
    match NMap.find? s.car.units id with
    | some u => u.lba (lba % 256 / 4) (lba % 4)
    | none => .zero
  | some (.fine m _) =>
    match NMap.find? m (lba % 256 / 4) with
    | some f => s.fineLba f (lba % 256 / 4) (lba % 4)
    | none => .zero

/-- Units an extent points at. -/
def Ext.units : Ext → List Nat
  | .large u => [u]
  | .fine m _ => (m.filterMap (fun e => e.2.unit)).eraseDups

/-- Put a new map of an extent in force: units it no longer points at are unmapped, and the map journal records the change once the new
units have persisted (R298, R302). -/
def State.setExtent (s : State) (e : Nat) (v : Option Ext) (new : List Nat) : State :=
  let before := ((NMap.find? s.car.exts e).map Ext.units).getD []
  let now := (v.map Ext.units).getD []
  let gone := before.filter (fun u => !now.contains u)
  (s.modCar (fun c =>
    { c with
      exts := match v with | some x => NMap.put c.exts e x | none => NMap.del c.exts e
      units := gone.foldl (fun m u => NMap.modify m u (fun x => { x with mapped := false })) c.units })).mapCommit
    (new.map .unit ++ [.extent e v] ++ gone.map .release) new

/-- The namespace becomes read-only: its reservation has no free block and no spare is left (R317). -/
def State.sideWorn (s : State) : State :=
  if s.car.readOnly then s
  else ((s.modCar (fun c => { c with readOnly := true })).mapCommit [.wear s.car.spares true] []).raise 0x5D2 1 []

/-- Write fine unit `j` of an extent: LBAs `i` for which `new i` gives a block are replaced; the others are merged from what is there. None
when the unit cannot be programmed. -/
def State.writeFine (s : State) (e j app : Nat) (m : NMap Fine) (new : Nat → Option Bytes) : Option (NMap Fine × Nat × State) :=
  let f := (NMap.find? m j).getD { unit := none, inLarge := false, zero := 0, unread := 0 }
  let old (i : Nat) : SideRead := s.fineLba f j i
  let blk (i : Nat) : Bytes :=
    match new i with
    | some b => fitBytes 4096 b
    | none => match old i with | .data b => b | _ => zeroBytes 4096
  let mask (p : Nat → Bool) : Nat := (List.range 4).foldl (fun a i => if p i then a + 2 ^ i else a) 0
  let zeros := mask (fun i => (new i).isNone && f.unit.isSome && Nat.testBit f.zero i)
  let unread := mask (fun i => (new i).isNone && decide (old i = .unreadable))
  (s.newUnit .fine (e * 64 + j) ((List.range 4).flatMap blk) [256 * e + 4 * j, 4, app]).map (fun (id, t) =>
    (NMap.put m j { unit := some id, inLarge := false, zero := zeros, unread }, id, t))

/-- Write the LBAs of one extent: `new k` is the block of LBA `k` of the extent, if written. A whole extent becomes one large unit; any
other write goes per fine unit (R293). A write that finds no block makes the namespace read-only (R317). -/
def State.writeExtent (s : State) (e app : Nat) (new : Nat → Option Bytes) : State :=
  if (List.range 256).all (fun k => (new k).isSome) then
    match s.newUnit .large e ((List.range 256).flatMap (fun k => fitBytes 4096 ((new k).getD []))) [256 * e, 256, app] with
    | some (id, t) => t.setExtent e (some (.large id)) [id]
    | none => if s.seqReady then s.sideWorn else s
  else
    let m0 := ((NMap.find? s.car.exts e).map Ext.split).getD []
    let js := (List.range 64).filter (fun j => (List.range 4).any (fun i => (new (4 * j + i)).isSome))
    let r := js.foldl (fun (a : Option (NMap Fine × List Nat × State)) j =>
      a.bind (fun (m, ids, t) => (t.writeFine e j app m (fun i => new (4 * j + i))).map (fun (m', id, t') => (m', ids ++ [id], t'))))
      (some (m0, [], s))
    match r with
    | some (m, ids, t) => t.setExtent e (some (.fine m s.rtcSec)) ids
    | none => if s.seqReady then s.sideWorn else s

/-- Extents a run of LBAs touches. -/
def extentsOf (slba n : Nat) : List Nat := if n = 0 then [] else (List.range ((slba + n - 1) / 256 + 1 - slba / 256)).map (· + slba / 256)

/-- Write consecutive sidecar LBAs. -/
def State.sideWrite (s : State) (slba app : Nat) (blocks : List Bytes) : State :=
  (extentsOf slba blocks.length).foldl (fun t e =>
    t.writeExtent e app (fun k => if slba ≤ 256 * e + k then blocks[256 * e + k - slba]? else none)) s

/-- Deallocate the LBAs of one extent chosen by `hit`: whole extents and whole fine units are unmapped, the others get their zero bit; no
flash is programmed (R312). -/
def State.dropExtent (s : State) (e : Nat) (hit : Nat → Bool) : State :=
  match NMap.find? s.car.exts e with
  | none => s
  | some x =>
    if (List.range 256).all hit then s.setExtent e none []
    else if (List.range 256).any hit then
      let m := (List.range 64).foldl (fun (m : NMap Fine) j =>
        if (List.range 4).all (fun i => hit (4 * j + i)) then NMap.del m j
        else
          NMap.modify m j (fun f =>
            { f with zero := (List.range 4).foldl (fun a i => if hit (4 * j + i) && !Nat.testBit a i then a + 2 ^ i else a) f.zero })) x.split
      s.setExtent e (if m.isEmpty then none else some (.fine m s.rtcSec)) []
    else s

/-- Deallocate consecutive sidecar LBAs; a write not yet persisted there counts no more (R312). -/
def State.sideDrop (s : State) (slba n : Nat) : State :=
  let t := (extentsOf slba n).foldl (fun t e => t.dropExtent e (fun k => decide (slba ≤ 256 * e + k) && decide (256 * e + k < slba + n))) s
  t.modCar (fun c => { c with sbuf := c.sbuf.filter (fun x => decide (x.1 < slba) || decide (slba + n ≤ x.1)) })

/-! ### Wear (R306, R316, R317) -/

/-- Event number of a die (R321). -/
def dieEvt (d : Nat) : Nat := 0x500 + 12 * (d / 24) + d % 24 / 2

/-- Event data of a die operation: die, block, page (the model's own order of the items the manual names, log 35). -/
def dieData (d b p : Nat) : Bytes := leBytes 2 d ++ leBytes 4 b ++ leBytes 2 p

/-- Available Spare, percent (R316). -/
def State.spare (s : State) : Nat := if s.car.spares0 = 0 then 100 else 100 * s.car.spares / s.car.spares0

/-- A retired block takes one spare into use, or shrinks a pool (R306, R316). -/
def State.useSpare (s : State) : State :=
  if s.car.spares = 0 then
    let t := s.modCar (fun c =>
      if s.pn pCSL_STAGE_MIN * 2 ^ 30 + s.blockBytes ≤ s.stageTotal then { c with lostStage := c.lostStage + 1 }
      else if s.sideBlocks != 0 then { c with lostSide := c.lostSide + 1 }
      else { c with lostStage := c.lostStage + 1 })
    t.raise 0x5D1 1 []
  else
    let t := s.modCar (fun c => { c with spares := c.spares - 1 })
    if decide (10 ≤ s.spare) && decide (t.spare < 10) then (t.raise 0x5D0 1 []).asyncEvent 1 2 2 else t

/-- Retire a die block (R306). -/
def State.retireBlock (s : State) (d b : Nat) : State :=
  if (s.block d b).use = 3 then s
  else
    let t := ((s.modBlock d b (fun k => { k with use := 3 })).modDie d (fun x => { x with retiredBlocks := x.retiredBlocks + 1 })).useSpare
    (t.mapCommit [.block d b (t.block d b), .wear t.car.spares t.car.readOnly] []).raise (dieEvt d) 5 (dieData d b 0)

/-- Units mapped on a die. -/
def State.unitsOn (s : State) (p : CUnit → Bool) : List Nat := (s.car.units.filter (fun e => e.2.mapped && p e.2)).map Prod.fst

/-- Retire a die: its mapped units are relocated, the retirement is journalled, and SMART/Health reports degraded reliability (R306). -/
def State.retireDie (s : State) (d : Nat) : State :=
  if (s.die d).retired then s
  else
    let t := ((s.modDie d (fun x => { x with retired := true })).noteFault 7).raise (dieEvt d) 6 (dieData d 0 0)
    let ids := t.unitsOn (fun u => u.die = d)
    let v := ids.foldl (fun w id => w.reprogram id) t
    (v.mapCommit (.die d (v.die d) :: ids.map .unit) ids).asyncEvent 1 0 2

/-- A failed operation on a die: counted, and the die is retired at CSL_DIE_RETIRE in a row (R306). -/
def State.dieFailed (s : State) (d : Nat) : State :=
  let t := s.modDie d (fun x => { x with fails := x.fails + 1 })
  if s.pn pCSL_DIE_RETIRE ≤ (t.die d).fails then t.retireDie d else t

/-! ### The age clock and read thresholds (R307 to R309) -/

/-- Terms of the series of exp at scale 2^128, from term `k` on. -/
def expTerms (y : Nat) : Nat → Nat → Nat → Nat
  | 0, _, _ => 0
  | n + 1, k, t => t + expTerms y n (k + 1) (t * y / 2 ^ 128 / (k + 1))

/-- exp of n/d at scale 2^128, for n/d at least 0. -/
def expUp (n d : Nat) : Nat := expTerms (n * 2 ^ 128 / d) 160 0 (2 ^ 128)

/-- AF(T) of R307 at scale 2^32, T in whole degrees, for an activation energy in meV. The resolution is the model's (log 36). -/
def ageFactor (ea : Nat) (t : Int) : Nat :=
  let dt := 100 * t - 4000
  let d := 8617 * 31315 * (100 * t + 27315).toNat
  let n := ea * 10 ^ 7 * dt.natAbs
  if 0 ≤ dt then expUp n d / 2 ^ 96 else 2 ^ 160 / expUp n d

/-- Magazine temperature of the age clock in whole degrees: 70 while it is unread (R307, R419). -/
def State.ageTemp (s : State) : Int := if s.pw.tempOk then s.pw.temp / 10 else 70

/-- Equivalent age of a die block (R308). -/
def State.blockAge (s : State) (k : Block) : Nat := s.car.age - k.age

/-- Age class (R309). -/
def ageClass (a : Nat) : Nat :=
  if a < 3600 then 0 else if a < 86400 then 1 else if a < 7 * 86400 then 2 else if a < 30 * 86400 then 3
  else if a < 90 * 86400 then 4 else if a < 365 * 86400 then 5 else if a < 1095 * 86400 then 6 else 7

/-- Temperature class of a shift in tenths of a degree (R309). -/
def tempClass (d : Int) : Nat := if d ≤ -100 then 1 else if d < 100 then 0 else if d < 300 then 2 else 3

/-- The read-threshold offset of a die block (R309). -/
def State.readOffset (s : State) (k : Block) : Int :=
  s.pv pCSL_RT_TAB (4 * ageClass (s.blockAge k) + tempClass (s.pw.temp - k.temp))

/-- Offset steps of the read ladder: 0, +1, -1, +2, -2 and so on (R310). -/
def ladderStep (r : Nat) : Int := if r = 0 then 0 else if r % 2 = 1 then ((r + 1) / 2 : Nat) else -((r / 2 : Nat) : Int)

end Sys2Proof.Machine
end

