-- ==== Sys2Proof/Machine/Compress.lean ====
section
/-! DEFINITION. The lossless picture code (chapter "Lossless compression"): geometry descriptors, the split of a block into literal
bytes and sample groups, prediction, prefix codes, block coding with its fallbacks, and decompression with every structural check. -/

namespace Sys2Proof.Machine

/-! ### Geometry descriptors (R227, R228) -/

/-- A descriptor's fields. -/
structure Geom where
  /-- Bytes at the start of each frame. -/
  frameHdr : Nat
  /-- Bytes after each line. -/
  linePad : Nat
  /-- N - 8. -/
  depth : Nat
  /-- Packing. -/
  packing : Nat
  /-- Counted from the start of each zone. -/
  align : Bool
  /-- In use. -/
  valid : Bool
  /-- Samples per line. -/
  width : Nat
  /-- Lines per frame. -/
  height : Nat
  /-- Code of the period across. -/
  px : Nat
  /-- Code of the period down. -/
  py : Nat
  /-- Colours C. -/
  colours : Nat
  /-- Predictor, 7 for automatic choice. -/
  pred : Nat
  /-- Colour map. -/
  cmap : Nat
  /-- Byte offset of the first frame. -/
  origin : Nat
  /-- Reserved bits. -/
  reserved : Nat
  deriving DecidableEq, Repr

/-- Read a descriptor from its eight words (R227). -/
def Geom.of (w : List Nat) : Geom :=
  let g := fun i => w.getD i 0
  { frameHdr := bitsOf (g 0) 31 16, linePad := bitsOf (g 0) 15 8, depth := bitsOf (g 0) 7 4, packing := bitsOf (g 0) 3 2,
    align := bitsOf (g 0) 1 1 = 1, valid := bitsOf (g 0) 0 0 = 1, width := bitsOf (g 1) 31 16, height := bitsOf (g 1) 15 0,
    px := bitsOf (g 2) 31 30, py := bitsOf (g 2) 29 28, colours := bitsOf (g 2) 27 26 + 1, pred := bitsOf (g 2) 25 23, cmap := g 3,
    origin := g 4, reserved := bitsOf (g 2) 22 0 + g 5 + g 6 + g 7 }

/-- Sample depth N. -/
def Geom.n (g : Geom) : Nat := g.depth + 8
/-- Samples of a group. -/
def Geom.g (g : Geom) : Nat := if g.packing = 1 then 1 else 8 / Nat.gcd g.n 8
/-- Bytes of a group. -/
def Geom.gb (g : Geom) : Nat := if g.packing = 1 then 2 else g.g * g.n / 8
/-- Sample bytes of a line. -/
def Geom.lb (g : Geom) : Nat := if g.packing = 1 then 2 * g.width else g.width * g.n / 8
/-- Length of a frame. -/
def Geom.f (g : Geom) : Nat := g.frameHdr + g.height * (g.lb + g.linePad)
/-- Period across. -/
def Geom.perX (g : Geom) : Nat := 2 ^ g.px
/-- Period down. -/
def Geom.perY (g : Geom) : Nat := 2 ^ g.py
/-- Colour of sample (x, y): the map's entry of its phase (R231). -/
def Geom.colour (g : Geom) (x y : Nat) : Nat :=
  let i := 4 * (y % g.perY) + x % g.perX
  bitsOf g.cmap (2 * i + 1) (2 * i)

/-- The conditions of R228 on a descriptor in use; one that is not in use meets them whatever its other fields hold. A width or a
height of 0 lies outside the field's range (R227). -/
def Geom.ok (g : Geom) : Bool :=
  !g.valid ||
    (g.depth ≤ 8 && g.packing ≤ 2 && g.px ≤ 2 && g.py ≤ 2 && g.pred != 6 && g.width != 0 && g.height != 0
      && g.width % g.g = 0 && g.width % g.perX = 0 && g.height % g.perY = 0
      && (List.range g.perX).all (fun x => (List.range g.perY).all (fun y => decide (g.colour x y < g.colours)))
      && decide (g.f ≤ 4294967295) && g.reserved = 0)

/-! ### Bytes, groups and samples (R230, R231) -/

/-- What a byte of a block is: literal, or byte `off` of the group that starts with sample `x` of line `y`. -/
inductive ByteKind where
  | lit
  | smp (x y off : Nat)
  deriving DecidableEq, Repr

/-- Class of the byte at frame offset `o` (R230). -/
def Geom.byteKind (g : Geom) (o : Nat) : ByteKind :=
  if o < g.frameHdr then .lit
  else
    let y := (o - g.frameHdr) / (g.lb + g.linePad)
    let p := (o - g.frameHdr) % (g.lb + g.linePad)
    if g.lb ≤ p then .lit else .smp (g.g * (p / g.gb)) y (p % g.gb)

/-- Class of byte `i` of a block of `u` bytes with `p` leading bytes before ORIGIN and frame offset `o` at byte `p`: a group counts only
when all of its bytes lie in the block. -/
def Geom.blockKind (g : Geom) (u p o i : Nat) : ByteKind :=
  if i < p then .lit
  else
    match g.byteKind ((o + (i - p)) % g.f) with
    | .lit => .lit
    | .smp x y off => if p + off ≤ i && i - off + g.gb ≤ u then .smp x y off else .lit

/-- The samples of a group from its bytes (R231). -/
def Geom.samples (g : Geom) (b : Bytes) : List Nat :=
  match g.packing with
  | 1 => [leNat b]
  | 2 => (List.range g.g).map (fun i => leNat b / 2 ^ (g.n * i) % 2 ^ g.n)
  | _ => (List.range g.g).map (fun i => beNat b / 2 ^ (g.n * (g.g - 1 - i)) % 2 ^ g.n)

/-- The bytes of a group from its samples. -/
def Geom.groupBytes (g : Geom) (v : List Nat) : Bytes :=
  match g.packing with
  | 1 => leBytes 2 (v.headD 0)
  | 2 => leBytes g.gb ((v.mapIdx (fun i x => x * 2 ^ (g.n * i))).sum)
  | _ => beBytes g.gb ((v.mapIdx (fun i x => x * 2 ^ (g.n * (g.g - 1 - i)))).sum)

/-! ### Prediction (R232, R233) -/

/-- Samples coded so far in the block, newest first: ((x, y), value). -/
abbrev Hist := List ((Nat × Nat) × Nat)

/-- The sample at (x, y), when it has been coded. -/
def Hist.at? : Hist → Nat → Nat → Option Nat
  | [], _, _ => none
  | (p, v) :: h, x, y => if p = (x, y) then some v else Hist.at? h x y

/-- The neighbour `dx` to the left (or to the right, when negative) and `dy` above. -/
def Hist.near (h : Hist) (x y : Nat) (dx : Int) (dy : Nat) : Option Nat :=
  if y < dy || (x : Int) - dx < 0 then none else h.at? ((x : Int) - dx).toNat (y - dy)

/-- a, b and c after the replacements of R232. -/
def Geom.abc (g : Geom) (h : Hist) (x y : Nat) : Nat × Nat × Nat :=
  let a := h.near x y g.perX 0
  let b := h.near x y 0 g.perY
  let c := h.near x y g.perX g.perY
  let m := 2 ^ (g.n - 1)
  match a, b with
  | none, none => (m, m, m)
  | none, some b => (b, b, c.getD b)
  | some a, none => (a, a, c.getD a)
  | some a, some b => (a, b, c.getD b)

/-- med(a, b, c) of predictor P3. -/
def med3 (a b c : Nat) : Nat := if max a b ≤ c then min a b else if c ≤ min a b then max a b else a + b - c

/-- Prediction of sample (x, y) by predictor `p` (R233). -/
def Geom.predict (g : Geom) (p : Nat) (h : Hist) (x y : Nat) : Nat :=
  let (a, b, c) := g.abc h x y
  match p with
  | 0 => 2 ^ (g.n - 1)
  | 1 => a
  | 2 => b
  | 3 => med3 a b c
  | 4 => (a + b + 1) / 2
  | _ =>
    match h.near x y 1 1, h.near x y (-1) 1 with
    | some e, some f =>
      if g.colour (x - 1) (y - 1) = g.colour x y && g.colour (x + 1) (y - 1) = g.colour x y then (e + f + 1) / 2 else med3 a b c
    | _, _ => med3 a b c

/-- Activity context of a sample (R236). -/
def Geom.activity (g : Geom) (h : Hist) (x y : Nat) : Nat :=
  let (a, b, c) := g.abc h x y
  let d := fun (u v : Nat) => (u - v) + (v - u)
  let s := d a c + d b c
  let t1 := max 1 (2 ^ g.n / 2 ^ 10)
  let t2 := max 2 (2 ^ g.n / 2 ^ 8)
  let t3 := max 4 (2 ^ g.n / 2 ^ 6)
  if s < t1 then 0 else if s < t2 then 1 else if s < t3 then 2 else 3

/-- Mapped residue m of sample value `v` against its prediction (R235). -/
def mapResidue (n v pred : Nat) : Nat :=
  let r := (v + 2 ^ n - pred) % 2 ^ n
  if r < 2 ^ (n - 1) then 2 * r else 2 * (2 ^ n - r) - 1

/-- Sample value from its prediction and m (R235). -/
def unmapResidue (n m pred : Nat) : Nat := if m % 2 = 0 then (pred + m / 2) % 2 ^ n else (pred + 2 ^ n - (m + 1) / 2 % 2 ^ n) % 2 ^ n

/-- Magnitude class: the bit length of m. -/
def magClass (m : Nat) : Nat := if m = 0 then 0 else Nat.log2 m + 1

/-! ### Tokens of a block -/

/-- What a block's bit string is made of. -/
inductive Tok where
  | lit (b : Byte)
  | smp (ctx q k m : Nat)
  deriving DecidableEq, Repr

/-- Tokens of the samples of one group, with the history after them. -/
def Geom.groupToks (g : Geom) (p y : Nat) : Nat → List Nat → Hist → List Tok × Hist
  | _, [], h => ([], h)
  | x, v :: vs, h =>
    let q := g.activity h x y
    let m := mapResidue g.n v (g.predict p h x y)
    let (ts, h') := Geom.groupToks g p y (x + 1) vs (((x, y), v) :: h)
    (.smp (4 * g.colour x y + q) q (magClass m) m :: ts, h')

/-- Tokens of a block from byte `i` on. -/
def Geom.toksGo (g : Geom) (p u pp o : Nat) : Nat → Nat → Bytes → Hist → List Tok
  | 0, _, _, _ => []
  | _ + 1, _, [], _ => []
  | n + 1, i, b :: bs, h =>
    match g.blockKind u pp o i with
    | .smp x y 0 =>
      let (ts, h') := g.groupToks p y x (g.samples ((b :: bs).take g.gb)) h
      ts ++ Geom.toksGo g p u pp o n (i + g.gb) ((b :: bs).drop g.gb) h'
    | _ => .lit b :: Geom.toksGo g p u pp o n (i + 1) bs h

/-- Tokens of a block under predictor `p`. -/
def Geom.toks (g : Geom) (p pp o : Nat) (b : Bytes) : List Tok := g.toksGo p b.length pp o b.length 0 b []

/-- A 16-bit container holds a value that N bits cannot (R231). -/
def Geom.oversized (g : Geom) (pp o : Nat) (b : Bytes) : Bool :=
  g.packing = 1 && (List.range b.length).any (fun i =>
    match g.blockKind b.length pp o i with
    | .smp _ _ 0 => decide (2 ^ g.n ≤ leNat (slice b i 2))
    | _ => false)

/-! ### Prefix codes (R237, R238) -/

/-- Canonical codes of a table: (class, length, code). -/
def canonGo (lens : List Nat) : Nat → Nat → Nat → List (Nat × Nat × Nat)
  | 0, _, _ => []
  | n + 1, len, code =>
    let ks := (List.range 17).filter (fun k => lens.getD k 0 = len)
    ks.mapIdx (fun i k => (k, len, code + i)) ++ canonGo lens n (len + 1) (2 * (code + ks.length))

/-- The codes of a table (R237). -/
def canon (lens : List Nat) : List (Nat × Nat × Nat) := canonGo lens 15 1 0

/-- The static tables by activity context (R238). -/
def staticLens (q : Nat) : List Nat :=
  match q with
  | 0 => [2, 2, 2, 3, 4, 5, 6, 7, 8, 9, 10, 11, 12, 13, 14, 15, 15]
  | 1 => [3, 2, 2, 2, 4, 5, 6, 7, 8, 9, 10, 11, 12, 13, 14, 15, 15]
  | 2 => [5, 3, 3, 2, 2, 3, 4, 6, 7, 8, 9, 10, 11, 12, 13, 14, 14]
  | _ => [7, 6, 5, 4, 3, 2, 2, 3, 4, 5, 6, 7, 7, 8, 9, 10, 10]

/-- A dynamic table is valid: its Kraft sum does not exceed 1, and a single present class has length 1 (R237). -/
def lensValid (lens : List Nat) : Bool :=
  let p := lens.filter (· != 0)
  decide ((p.map (fun l => 2 ^ (15 - l))).sum ≤ 2 ^ 15) && p.all (· ≤ 15) && (p.length != 1 || p = [1])

/-! ### Length-limited codes (R239) -/

/-- Insert by weight. -/
def insertW (x : Nat × List Nat) : List (Nat × List Nat) → List (Nat × List Nat)
  | [] => [x]
  | y :: ys => if x.1 ≤ y.1 then x :: y :: ys else y :: insertW x ys

/-- Join neighbours in pairs. -/
def pairW : List (Nat × List Nat) → List (Nat × List Nat)
  | x :: y :: zs => (x.1 + y.1, x.2 ++ y.2) :: pairW zs
  | _ => []

/-- The coin lists of package and merge, `n` levels. -/
def packageMerge (coins : List (Nat × List Nat)) : Nat → List (Nat × List Nat)
  | 0 => []
  | n + 1 => (pairW (packageMerge coins n)).foldr insertW coins

/-- One least-size length-limited code for a histogram: package and merge over 15 levels; a single class gets length 1. -/
def leastLens (hist : List Nat) : List Nat :=
  let present := (List.range 17).filter (fun k => hist.getD k 0 != 0)
  match present with
  | [] => List.replicate 17 0
  | [k] => (List.range 17).map (fun j => if j = k then 1 else 0)
  | _ =>
    let coins := (present.map (fun k => (hist.getD k 0, [k]))).foldr insertW []
    let chosen := ((packageMerge coins 15).take (2 * present.length - 2)).flatMap Prod.snd
    (List.range 17).map (fun k => chosen.count k)

/-- Bits a table needs for a histogram, suffix bits excluded; none when it lacks a class that occurs. -/
def lensCost (lens hist : List Nat) : Option Nat :=
  if (List.range 17).any (fun k => hist.getD k 0 != 0 && lens.getD k 0 = 0) then none
  else some (((List.range 17).map (fun k => hist.getD k 0 * lens.getD k 0)).sum)

/-- The code an engine builds for a histogram: one of least size (R239); which one is open. -/
def dynLens (hist : List Nat) : List Nat :=
  let least := leastLens hist
  let c := Config.codeChoice hist
  if c.length = 17 && lensValid c && lensCost c hist = lensCost least hist
      && (List.range 17).all (fun k => (c.getD k 0 = 0) = (hist.getD k 0 = 0)) then c
  else least

/-- Class histogram of context `ctx`. -/
def tokHist (ts : List Tok) (ctx : Nat) : List Nat :=
  (List.range 17).map (fun k => ts.countP (fun t => match t with | .smp c _ j _ => c = ctx && j = k | .lit _ => false))

/-! ### Bit strings -/

/-- Bits of a token under a choice of table; none when the table lacks its class. -/
def Tok.bits (tab : Nat → Nat → List Nat) : Tok → Option (List Bool)
  | .lit b => some (msbBits 8 b.toNat)
  | .smp ctx q k m =>
    match (canon (tab ctx q)).find? (fun e => e.1 = k) with
    | some (_, len, code) => some (msbBits len code ++ msbBits (k - 1) (m % 2 ^ (k - 1)))
    | none => none

/-- Bits of a token list. -/
def toksBits (tab : Nat → Nat → List Nat) : List Tok → Option (List Bool)
  | [] => some []
  | t :: ts =>
    match t.bits tab, toksBits tab ts with
    | some a, some b => some (a ++ b)
    | _, _ => none

/-- A bit string padded with zero bits to whole bytes. -/
def packBits (l : List Bool) : Bytes :=
  let n := (l.length + 7) / 8
  (List.range n).map (fun i => BitVec.ofNat 8 (ofMsbBits (((l.drop (8 * i)).take 8 ++ List.replicate 8 false).take 8)))

/-! ### Block coding (R242 to R246) -/

/-- A block header (R242). -/
def blockHeader (ty pred u l p o : Nat) : Bytes :=
  beBytes 1 (64 * ty + 8 * pred) ++ beBytes 3 (u - 1) ++ beBytes 4 l ++ beBytes 4 p ++ beBytes 4 o

/-- New tables as they are recorded (R243). -/
def tablesBytes (tabs : List (List Nat)) : Bytes := packBits (tabs.flatMap (fun t => (List.range 17).flatMap (fun k => msbBits 4 (t.getD k 0))))

/-- P and O of a block that starts at stream offset `t0` (R242). -/
def Geom.po (g : Geom) (t0 u : Nat) : Nat × Nat :=
  let p := min u (g.origin - t0)
  (p, if p = u then 0 else (t0 + p - g.origin) % g.f)

/-- Result of coding a block: its bytes, the predictor used, literal or not, the tables carried on. -/
structure BlockOut where
  /-- Header, tables and payload. -/
  bytes : Bytes
  /-- Predictor. -/
  pred : Nat
  /-- Coded as a literal block. -/
  literal : Bool
  /-- Tables carried to the next block of the record. -/
  carried : Option (List (List Nat))
  deriving DecidableEq, Repr

/-- Bits under the static tables. -/
def staticBits (ts : List Tok) : List Bool := (toksBits (fun _ q => staticLens q) ts).getD []

/-- Predictor of a block: the descriptor's, or with PRED 7 the one with the fewest payload bits under the static tables (R234). -/
def Geom.choosePred (g : Geom) (p o : Nat) (b : Bytes) : Nat :=
  if g.pred = 7 then
    ((List.range 6).foldl (fun (best : Nat × Nat) k =>
      let n := (staticBits (g.toks k p o b)).length
      if n < best.2 then (k, n) else best) (0, (staticBits (g.toks 0 p o b)).length)).1
  else g.pred

/-- Code one block in mode 1, 2 or 3. `refresh` is CMP_REFRESH. -/
def codeBlock (g : Geom) (mode refresh t0 : Nat) (carried : Option (List (List Nat))) (b : Bytes) : BlockOut :=
  let u := b.length
  let (p, o) := g.po t0 u
  let lit : BlockOut := { bytes := blockHeader 3 0 u u p o ++ b, pred := 0, literal := true, carried }
  if g.oversized p o b then lit
  else
    let k := g.choosePred p o b
    let ts := g.toks k p o b
    let fin := fun (ty : Nat) (tabs payload : Bytes) (c : Option (List (List Nat))) =>
      if u ≤ tabs.length + payload.length then lit
      else ({ bytes := blockHeader ty k u payload.length p o ++ tabs ++ payload, pred := k, literal := false, carried := c } : BlockOut)
    if mode = 1 then fin 0 [] (packBits (staticBits ts)) carried
    else
      let tabs := (List.range (4 * g.colours)).map (fun c => dynLens (tokHist ts c))
      let tb := tablesBytes tabs
      let fresh := packBits ((toksBits (fun c _ => tabs.getD c []) ts).getD [])
      let old : Option Bytes := carried.bind (fun cs => (toksBits (fun c _ => cs.getD c []) ts).map packBits)
      match old with
      | some pl =>
        if mode = 3 && pl.length ≤ tb.length + fresh.length + refresh then fin 2 [] pl carried else fin 1 tb fresh (some tabs)
      | none => fin 1 tb fresh (some tabs)

/-- The prologue of a record: its descriptor, each word most significant byte first (R241). -/
def prologue (w : List Nat) : Bytes := (List.range 8).flatMap (fun i => beBytes 4 (w.getD i 0))

/-! ### Decompression (R247 to R249) -/

/-- Read one code: class and the rest of the bits. -/
def readCode (cs : List (Nat × Nat × Nat)) : Nat → Nat → Nat → List Bool → Option (Nat × List Bool)
  | 0, _, _, _ => none
  | _ + 1, _, _, [] => none
  | n + 1, len, acc, d :: ds =>
    let a := 2 * acc + d.toNat
    match cs.find? (fun e => e.2.1 = len + 1 && e.2.2 = a) with
    | some e => some (e.1, ds)
    | none => readCode cs n (len + 1) a ds

/-- Decode the samples of one group. A class above the sample depth N, for which R247 has no line, is a structural error (DESIGN CHOICE, log 76). -/
def Geom.ungroup (g : Geom) (p y : Nat) (tab : Nat → Nat → List (Nat × Nat × Nat)) :
    Nat → Nat → List Bool → Hist → Option (List Nat × List Bool × Hist)
  | 0, _, bits, h => some ([], bits, h)
  | n + 1, x, bits, h =>
    let q := g.activity h x y
    match readCode (tab (4 * g.colour x y + q) q) 15 0 0 bits with
    | none => none
    | some (k, rest) =>
      if rest.length < k - 1 || g.n < k then none
      else
        let m := if k = 0 then 0 else 2 ^ (k - 1) + ofMsbBits (rest.take (k - 1))
        let v := unmapResidue g.n m (g.predict p h x y)
        match Geom.ungroup g p y tab n (x + 1) (rest.drop (k - 1)) (((x, y), v) :: h) with
        | some (vs, r, h') => some (v :: vs, r, h')
        | none => none

/-- Decode a block's bytes from its bits; the bits left over are returned. -/
def Geom.unblock (g : Geom) (p u pp o : Nat) (tab : Nat → Nat → List (Nat × Nat × Nat)) :
    Nat → Nat → List Bool → Hist → Option (Bytes × List Bool)
  | 0, _, bits, _ => some ([], bits)
  | n + 1, i, bits, h =>
    if u ≤ i then some ([], bits)
    else
      match g.blockKind u pp o i with
      | .smp x y 0 =>
        match g.ungroup p y tab g.g x bits h with
        | some (vs, r, h') => (Geom.unblock g p u pp o tab n (i + g.gb) r h').map (fun q => (g.groupBytes vs ++ q.1, q.2))
        | none => none
      | _ =>
        if bits.length < 8 then none
        else (Geom.unblock g p u pp o tab n (i + 1) (bits.drop 8) h).map (fun q => (BitVec.ofNat 8 (ofMsbBits (bits.take 8)) :: q.1, q.2))

/-- Tables read from a block of type 1. -/
def readTables (c : Nat) (b : Bytes) : List (List Nat) :=
  let bits := b.flatMap (fun x => msbBits 8 x.toNat)
  (List.range (4 * c)).map (fun t => (List.range 17).map (fun k => ofMsbBits ((bits.drop (68 * t + 4 * k)).take 4)))

/-- Decompress the blocks of a record; none is a structural error (R247): no more than ORIGIN bytes lie before ORIGIN. `n` bounds the number of
blocks. That a block of more than 262,144 bytes, predictor 6 or 7, and a literal block with a predictor or with L unlike U are structural errors
too is a DESIGN CHOICE (log 76). -/
def unblocks (g : Geom) (mode : Nat) : Nat → Option (List (List Nat)) → Bytes → Option Bytes
  | _, _, [] => some []
  | 0, _, _ => none
  | n + 1, carried, b =>
    if b.length < 16 then none
    else
      let h := b.take 16
      let ty := (beNat (h.take 1)) / 64
      let pred := (beNat (h.take 1)) / 8 % 8
      let u := beNat (slice h 1 3) + 1
      let l := beNat (slice h 4 4)
      let p := beNat (slice h 8 4)
      let o := beNat (slice h 12 4)
      let rest := b.drop 16
      let tl := if ty = 1 then 34 * g.colours else 0
      let tabs := if ty = 1 then some (readTables g.colours (rest.take tl)) else carried
      let allowed := ty = 3 || (mode = 1 && ty = 0) || (mode = 2 && ty = 1) || (mode = 3 && (ty = 1 || ty = 2))
      if !allowed || 262144 < u || rest.length < tl + l || u < p || g.origin < p || (if p = u then o != 0 else decide (g.f ≤ o)) then none
      else if ty = 3 then
        if l != u || pred != 0 then none
        else (unblocks g mode n carried (rest.drop l)).map (fun q => rest.take l ++ q)
      else if 5 < pred then none
      else
        match (if ty = 0 then some (fun (_ q : Nat) => canon (staticLens q))
               else tabs.bind (fun ts => if ts.all lensValid then some (fun (c _ : Nat) => canon (ts.getD c [])) else none)) with
        | none => none
        | some tab =>
          let bits := ((rest.drop tl).take l).flatMap (fun x => msbBits 8 x.toNat)
          match g.unblock pred u p o tab u 0 bits [] with
          | none => none
          | some (out, left) =>
            if 8 ≤ left.length || left.any id then none
            else (unblocks g mode n tabs (rest.drop (tl + l))).map (fun q => out ++ q)

/-- Decompress a record of `count` LBAs: none is a structural error (R247); mode 0 passes unchanged (R249). -/
def decompress (mode count : Nat) (body : Bytes) : Option Bytes :=
  if mode = 0 then if body.length = 4096 * count then some body else none
  else if 3 < mode || body.length < 32 then none
  else
    let g := Geom.of ((List.range 8).map (fun i => beNat (slice body (4 * i) 4)))
    if !g.valid || !g.ok then none
    else
      match unblocks g mode (body.length / 16 + 1) none (body.drop 32) with
      | some out => if out.length = 4096 * count then some out else none
      | none => none

/-- Overflow buffers a coded block of `n` bytes needs beyond the engine's 128 KiB (R246). -/
def overflowBuffers (n : Nat) : Nat := (n - 131072 + 16383) / 16384

end Sys2Proof.Machine
end

