-- ==== Sys2Proof/Machine/Fifo.lean ====
section
/-! DEFINITION. The 96 stream FIFOs as part of the device (chapter "Stream FIFOs"): what a clock presents to one of them and the events it raises, the
restart and sticky registers, and the spool queue in FIFO 66. -/

namespace Sys2Proof.Machine

/-! ### One clock -/

/-- The event of FIFO `n`, with its fill in the data bytes (R112, R467). -/
def State.fifoEvent (s : State) (n cause : Nat) : State := s.raise (0x400 + n) cause (leBytes 4 (s.fifo n).fill)

/-- One clock of FIFO `n`, with the events of a new overrun and of a refused operation (R110, R112). -/
def State.fifoAct (s : State) (n : Nat) (c : FifoClock) : State :=
  if fifoExists n then
    let r := fifoClock n (s.fifoDepth n) (s.pni pSFQ_CT_THRESH n) (s.fifo n) c
    ((s.modFifo n (fun _ => r.fifo)).when r.refused (fun t => t.fifoEvent n 0x3)).when r.overrun (fun t => t.fifoEvent n 0x1)
  else s

/-- Write one word into FIFO `n` (R102, R105, R106). -/
def State.fifoWrite (s : State) (n : Nat) (w : FWord) : State := s.fifoAct n { reset := false, op := none, read := false, write := [w] }

/-- Read one word of FIFO `n` (R104). -/
def State.fifoRead (s : State) (n : Nat) : State := s.fifoAct n { reset := false, op := none, read := true, write := [] }

/-- A retention operation of the formatter on FIFO 66: carried out, or refused (R108). -/
def State.retain (s : State) (o : RetOp) : State := s.fifoAct 66 { reset := false, op := some o, read := false, write := [] }

/-! ### Restart and sticky bits (R111, R113) -/

/-- SFQ_RESTART[n]: the FIFO leaves the halted state, and what its producer held goes in. -/
def State.fifoRestart (s : State) (n : Nat) : State :=
  if fifoExists n then
    let r := fifoPut n (s.fifoDepth n) (s.pni pSFQ_CT_THRESH n) { s.fifo n with halted := false } []
    (s.modFifo n (fun _ => r.1)).when r.2 (fun t => t.fifoEvent n 0x1)
  else s

/-- SFQ_STICKY[n] written: each bit written as 1 is cleared; clearing bit 0 also zeroes SFQ_DROPS[n] (R113). -/
def State.fifoClear (s : State) (n bits : Nat) : State :=
  if fifoExists n then
    s.modFifo n (fun f => { f with sticky := f.sticky &&& (15 - bits % 16), drops := if bits % 2 = 1 then 0 else f.drops })
  else s

/-! ### The spool queue in FIFO 66 (R109) -/

/-- Copies not yet started: from P to W, and those DS assembly still holds. -/
def State.queued (s : State) : List Copy := copiesIn ((s.fifo 66).words.drop (s.fifo 66).p ++ (s.fifo 66).held)

/-- Copies started and awaiting their result: from M to P. -/
def State.inFlight (s : State) : List Copy :=
  copiesIn (((s.fifo 66).words.take (s.fifo 66).p).drop (s.fifo 66).m)

/-- Verified copies retained behind the mark: from L to M. -/
def State.retained (s : State) : List Copy := copiesIn ((s.fifo 66).words.take (s.fifo 66).m)

/-- The spool queue is empty: no copy awaits recording or a verify result (R75). -/
def State.queueEmpty (s : State) : Bool := (s.fifo 66).words.length ≤ (s.fifo 66).m && (s.fifo 66).held.isEmpty

/-- Put a copy at the tail of the spool queue; what does not fit its producer holds (R105). -/
def State.spoolPut (s : State) (c : Copy) : State := (s.feed 66 c.packet).1

/-- DS assembly is held back by the spool queue: words of a copy wait for room, or the FIFO is halted (R105). -/
def State.spoolStalled (s : State) : Bool := !(s.fifo 66).held.isEmpty || (s.fifo 66).halted

/-- Read the head packet of the spool queue: P moves past it. -/
def State.spoolStart (s : State) : State := (List.range 8).foldl (fun t _ => t.fifoRead 66) s

/-! ### What the decoder takes in -/

/-- The consumer of FIFO `n` reads every complete packet; as room comes, what the producer held goes in and is read as well (R101, R105). -/
def State.drain (n : Nat) : Nat → State → List (List FWord) × State
  | 0, s => ([], s)
  | k + 1, s =>
    let r := (s.fifo n).takePackets (s.pni pSFQ_CT_THRESH n)
    if r.1.isEmpty then ([], s)
    else
      let q := State.drain n k ((s.modFifo n (fun _ => r.2)).feed n []).1
      (r.1 ++ q.1, q.2)

/-- Every packet of FIFO `n` and of its producer, and the state without them. -/
def State.takeAll (s : State) (n : Nat) : List (List FWord) × State := State.drain n ((s.fifo n).held.length + 1) s

/-- The capture in progress is given up: the decoder drops its rows and pointers, those in the FIFOs among them, and every lane looks for a separator. A
lane that has read under a variant loads its start values anew (R139). -/
def State.clearCapture (s : State) : State :=
  ((79 :: (List.range 16).map (· + 36)).foldl (fun (t : State) n => (t.takeAll n).2) s).modRc (fun r =>
    { r with cap := [], rows := [], ptrs := [], failedHdr := []
             lanes := r.lanes.map (fun (e : Nat × Lane) => (e.1, { e.2 with inDs := false, tag := none, cands := [], reload := e.2.reload || r.variant != 0 })) })

/-! ### Commands -/

/-- FIFO_WRITE (R102, R105, R106). -/
def execFifoWrite (n payload : Nat) (last : Bool) (count : Nat) (s : State) : Out :=
  .next (s.fifoWrite n (fifoWord n payload last count))

/-- FIFO_READ (R103, R104, R107). -/
def execFifoRead (n : Nat) (s : State) : Out := .next (s.fifoRead n)

/-- FIFO_ADVANCE on FIFO 66 (R108). -/
def execFifoAdvance (s : State) : Out := .next (s.retain .advance)

/-- FIFO_REWIND_MARK on FIFO 66 (R108). -/
def execFifoRewindMark (s : State) : Out := .next (s.retain .rewindMark)

/-- FIFO_RELEASE on FIFO 66 (R108). -/
def execFifoRelease (k : Nat) (s : State) : Out := .next (s.retain (.release k))

/-- FIFO_REWIND_RELEASE on FIFO 66 (R108). -/
def execFifoRewindRelease (s : State) : Out := .next (s.retain .rewindRelease)

end Sys2Proof.Machine
end

