-- ==== Sys2Proof/Machine/SpoolOps.lean ====
section
/-! DEFINITION. Operations of the take path: zones and takes (R334, R337, R338), stream contexts (R72), the record packer (R71, R73, R223,
R224), the payload stream and DS assembly (R33 to R40, R74), backlog (R78), groups (R57, R58), credit and acknowledgement (R342), capacity
(R340). -/

namespace Sys2Proof.Machine

/-! ### Zones -/

/-- An Empty zone. -/
def Zone.zero : Zone := { st := .empty, wp := 0, take := 0, ctx := none, written := 0, byTakeMark := false, lastWrite := 0 }

/-- Zone `z`. -/
def State.zone (s : State) (z : Nat) : Zone := NMap.get Zone.zero s.sp.zones z

/-- Change zone `z`. -/
def State.modZone (s : State) (z : Nat) (f : Zone → Zone) : State := s.modSp (fun p => { p with zones := NMap.upd Zone.zero p.zones z f })

/-- Journal the state of zone `z` (R92). -/
def State.journalZone (s : State) (z : Nat) : State :=
  s.indexCommit [.zone z (if s.zone z = Zone.zero then none else some (s.zone z)), s.counterRec]

/-- LBAs of the take namespace (R333). -/
def State.takeLbas (s : State) : Nat := s.sp.nz * 65536

/-- Open zones. -/
def State.openZones (s : State) : Nat := s.sp.zones.countP (fun e => e.2.st.isOpen)

/-- Active zones. -/
def State.activeZones (s : State) : Nat := s.sp.zones.countP (fun e => e.2.st.isActive)

/-- The implicitly opened zone that has gone longest without a write (R334). -/
def State.oldestImplicit (s : State) : Option Nat :=
  (s.sp.zones.foldl (fun (a : Option (Nat × Nat)) e =>
      if e.2.st = .implicit then
        match a with
        | some (_, w) => if e.2.lastWrite < w then some (e.1, e.2.lastWrite) else a
        | none => some (e.1, e.2.lastWrite)
      else a) none).map Prod.fst

/-! ### The record packer -/

/-- The open record of zone `z`. -/
def State.openRec? (s : State) (z : Nat) : Option PackRec := s.sp.recs.find? (fun r => r.zone = z && r.closed.isNone)

/-- Close the open record of zone `z` (R71), its order going to DS assembly through FIFO 65: its closing number and Data CRC are fixed; `last` sets flag bit 2 (R73). -/
def State.closeRec (s : State) (z : Nat) (last : Bool) : State :=
  if (s.openRec? z).isNone then s
  else
    (s.pass 65 1 1).modSp (fun p =>
      { p with
        closings := p.closings + 1, arrivals := p.arrivals + 1
        recs := p.recs.map (fun r =>
          if r.zone = z && r.closed.isNone then
            { r with closed := some p.closings, arrived := if r.at_ = r.data.length then some p.arrivals else none, crc := crc32c r.data, flags := if last then r.flags ||| 4 else r.flags }
          else r) })

/-- Uncompressed bytes queued on an engine (R223). -/
def State.engineLoad (s : State) (e : Nat) : Nat :=
  s.sp.recs.foldl (fun n r => if r.engine = e then n + (r.data.length - r.at_) else n) 0

/-- The engine with the fewest uncompressed bytes queued, the lowest number among equals (R223). -/
def State.pickEngine (s : State) : Nat :=
  (List.range 8).foldl (fun b e => if s.engineLoad e < s.engineLoad b then e else b) 0

/-- Stream offset of the first byte of LBA `lba`, by ALIGN (R230). -/
def State.streamOffset (s : State) (g : Geom) (take lba : Nat) : Nat :=
  let first := (NMap.find? s.sp.takes take).elim 0 (fun t => t.firstZone)
  (if g.align then 0 else (zoneOf lba - first) * 268435456) + lba % 65536 * 4096

/-- Open a record of zone `z` at `lba` (R71, R73, R223, R224, R229). -/
def State.openRec (s : State) (z lba : Nat) (timecode : Option (Nat × Nat)) : State :=
  let zn := s.zone z
  let c := zn.ctx.getD 0
  let words := (NMap.find? s.sp.ctxs c).elim [] (fun x => x.geom)
  let g := Geom.of words
  let first := (NMap.find? s.sp.takes zn.take).elim false (fun t => !t.firstCut)
  let mode := if g.valid then s.pn pCMP_MODE else 0
  let r : PackRec :=
    { zone := z, start := lba, count := 0, take := zn.take, keyId := s.takeKey zn.take, ctx := c,
      flags := (if timecode.isSome then 1 else 0) + (if first then 2 else 0),
      timecode := match timecode with | some (a, b) => timecodeBytes a b | none => zeroBytes 8,
      recMax := s.pn pHIF_REC_MAX, mode, block := s.pn pCMP_BLOCK_KIB, engine := s.pickEngine, geom := words,
      t0 := s.streamOffset g zn.take lba, data := [], closed := none, at_ := 0, carried := none, coded := [], crc := 0, sector0 := 0,
      body := [], done := false, arrived := none }
  s.modSp (fun p =>
    { p with recs := p.recs ++ [r], takes := NMap.modify p.takes zn.take (fun t => { t with firstCut := true }) })

/-- FIFOs of the ingest path, from the host write descriptors to DS assembly (R101, R461). -/
def ingestFifos : List Nat := List.range 18 ++ [19, 64, 65]

/-- The ingest path moves: none of its FIFOs is halted. A stall of one stage propagates upstream stage by stage, up to the record packer, which takes
nothing before the path has been restored (R105, R111, R461; log 59). -/
def State.ingestFlows (s : State) : Bool := ingestFifos.all s.flows

/-- Append one applied LBA to its zone's record; the record closes at HIF_REC_MAX (R71). Its descriptor comes through FIFO 64 and its bytes go into the
FIFO of the record's engine (R101). While the path is held the LBA stays in the write area, to be packed at the restart. -/
def State.packLba (s0 : State) (z lba : Nat) (b : Bytes) (timecode : Option (Nat × Nat)) : State :=
  if !s0.ingestFlows then s0 else
  let s := s0.pass 64 1 1
  let t1 := if (s.openRec? z).isNone then s.openRec z lba timecode else s
  let t := match t1.openRec? z with | some r => t1.passBytes r.engine 4096 | none => t1
  let u := t.modSp (fun p =>
    { p with
      recs := p.recs.map (fun r =>
        if r.zone = z && r.closed.isNone then { r with count := r.count + 1, data := r.data ++ fitBytes 4096 b } else r)
      wbuf := NMap.modify p.wbuf lba (fun w => { w with packed := true }) })
  match u.openRec? z with
  | some r => if r.recMax ≤ r.count then u.closeRec z false else u
  | none => u

/-! ### Stream contexts, takes and opening a zone (R72, R261, R334, R338) -/

/-- A context that is not bound and that no record awaiting encryption names, at or above `k`. -/
def freeCtx (busy : Nat → Bool) : NMap StreamCtx → Nat → Nat
  | [], k => k
  | (j, c) :: m, k => if j = k then (if c.zone.isSome || busy j then freeCtx busy m (k + 1) else k) else k

/-- Bind the lowest free stream context to zone `z` for take `t`: its counter restarts only for a take it has not counted for (R72, R224); the
counter of the take it leaves is kept, so that no sector index of a take is used twice. -/
def State.bindCtx (s : State) (z t : Nat) : State :=
  let c := freeCtx (fun j => s.sp.recs.any (fun r => r.ctx = j && !r.done)) s.sp.ctxs 0
  let d := s.pn pCMP_ACTIVE
  let s1 := s.applyPend (fun p _ => p = pCMP_GEOM)
  let geom := (List.range 8).map (fun w => s1.pni pCMP_GEOM (8 * d + w))
  let kept := NMap.get 0 s1.sp.floors (65536 * t + c)
  let next := match NMap.find? s1.sp.ctxs c with | some x => if x.take = t then x.next else kept | none => kept
  let floors := match NMap.find? s1.sp.ctxs c with | some x => NMap.set 0 s1.sp.floors (65536 * x.take + c) x.next | none => s1.sp.floors
  ((s1.modSp (fun p => { p with floors, ctxs := NMap.put p.ctxs c { take := t, next, zone := some z, geom } })).modZone z
    (fun x => { x with ctx := some c })).keySlotLoad (s1.takeKey t)

/-- Release the stream context of zone `z` (R72). -/
def State.releaseCtx (s : State) (z : Nat) : State :=
  match (s.zone z).ctx with
  | some c =>
    (s.modSp (fun p => { p with ctxs := NMap.modify p.ctxs c (fun x => { x with zone := none }) })).modZone z (fun x => { x with ctx := none })
  | none => s

/-- A new take becomes current, with a new media key, both journalled (R261, R338). -/
def State.newTake (s : State) (z : Nat) : State :=
  let t := s.sp.lastTake + 1
  let k := s.newMediaKey t
  let v : Take := { keyId := k.1, closed := false, erased := false, firstZone := z, zones := 0, start := s.stamp, firstDs := none,
                    lastDs := none, firstCut := false }
  let u := k.2.modSp (fun p => { p with lastTake := t, current := some t, takes := NMap.put p.takes t v })
  u.indexCommit [.media k.1 (NMap.find? u.keys.medias k.1), .take t v, u.counterRec]

/-- Close zone `z`: Closed, or Empty when nothing has been written; its record is closed and its context released (R337). -/
def State.closeZone (s : State) (z : Nat) : State :=
  let t := (s.closeRec z false).releaseCtx z
  (t.modZone z (fun x => if x.wp = 0 then Zone.zero else { x with st := .closed })).journalZone z

/-- Make zone `z` Full: by its writes, by Finish or by Take Mark (R337, R338). -/
def State.fullZone (s : State) (z : Nat) (mark : Bool) : State :=
  let t := (s.closeRec z false).releaseCtx z
  (t.modZone z (fun x => { x with st := .full, wp := 65536, byTakeMark := x.byTakeMark || mark })).journalZone z

/-- Checks 9 to 11 of R335 for a zone: limits when it is not open yet, cartridge full, media keys, TRNG. -/
def State.openCheck (s : State) (z : Nat) : Option Status :=
  let x := s.zone z
  let new := s.sp.current.isNone && !x.st.isOpen
  if !x.st.isOpen && decide (1024 ≤ s.openZones) && s.oldestImplicit.isNone then some stZoneOpen
  else if x.st = .empty && decide (1024 ≤ s.activeZones) then some stZoneActive
  else if s.sp.full || (new && decide (65535 ≤ s.keys.mediaNext)) then some stCapacity
  else if new && !s.keys.trngOk then some stNotReady
  else none

/-- Open zone `z`, Empty or Closed, implicitly or explicitly; the checks have passed. -/
def State.openZone (s : State) (z : Nat) (explicit : Bool) : State :=
  let x := s.zone z
  if x.st.isOpen then
    if explicit && x.st = .implicit then (s.modZone z (fun y => { y with st := .explicit })).journalZone z else s
  else
    let s1 := if 1024 ≤ s.openZones then match s.oldestImplicit with | some y => s.closeZone y | none => s else s
    let s2 := if s1.sp.current.isNone then s1.newTake z else s1
    let t := s2.sp.current.getD 0
    let fresh := x.st = .empty
    let s3 := s2.modSp (fun p =>
      { p with takes := NMap.modify p.takes t (fun v =>
          if fresh then { v with zones := v.zones + 1, firstZone := if v.zones = 0 then z else min v.firstZone z } else v) })
    let s4 := (s3.modZone z (fun y =>
      { y with st := if explicit then .explicit else .implicit, take := if fresh then t else y.take, lastWrite := s3.nv.applied })).bindCtx z t
    (s4.indexCommit (match NMap.find? s4.sp.takes t with | some v => [.take t v] | none => [])).journalZone z

/-- Apply one LBA of a write to the take namespace: it enters the write area, the write pointer moves, the packer takes it; at the zone end
the zone becomes Full (R331, R334). -/
def State.applyLba (s : State) (lba app : Nat) (timecode : Option (Nat × Nat)) (b : Bytes) : State :=
  let z := zoneOf lba
  let w : WLba := { data := fitBytes 4096 b, acked := false, persisted := false, app, packed := false, ds := none, timecode }
  let t := ((s.modSp (fun p => { p with wbuf := NMap.put p.wbuf lba w, uncommitted := NMap.put p.uncommitted lba app })).modZone z
    (fun x => { x with wp := lba % 65536 + 1, written := lba % 65536 + 1, lastWrite := app })).packLba z lba b timecode
  if lba % 65536 = 65535 then t.fullZone z false else t

/-- Apply the blocks of a write at consecutive LBAs. -/
def State.applyLbas (s : State) (lba app : Nat) (timecode : Option (Nat × Nat)) (bs : List Bytes) : State :=
  bs.zipIdx.foldl (fun t (b, i) => t.applyLba (lba + i) app timecode b) s

/-! ### The payload stream (R33, R37, R40, R74) -/

/-- An open DS with nothing in it, but for what an envelope continues into it. -/
def OpenDs.start (cont : Nat) : OpenDs := { payload := [], dir := [], cont, fill := none }

/-- The open DS is complete: it awaits its table and tag, and the next DS opens 3,145,728 stream bytes on. -/
def State.endDs (s : State) (fill cont : Nat) : State :=
  s.modSp (fun p =>
    { p with filled := p.filled ++ [{ p.cur with fill := some fill }], cur := OpenDs.start cont, stream := p.stream + dsPayload })

/-- Set the fill start of the open DS at the current payload offset and close it (R40). -/
def State.fillDs (s : State) : State := s.endDs s.sp.cur.payload.length 0

/-- Place envelope bytes in the payload, going on in as many DS as it takes. -/
def State.placeBytes : Nat → Bytes → State → State
  | 0, _, s => s
  | n + 1, b, s =>
    if b.isEmpty then s
    else
      let room := dsPayload - s.sp.cur.payload.length
      let t := s.modSp (fun p => { p with cur := { p.cur with payload := p.cur.payload ++ b.take room } })
      let rest := b.drop room
      let u := if t.sp.cur.payload.length = dsPayload then t.endDs dsPayload (min rest.length dsPayload) else t
      State.placeBytes n rest u

/-- Fill the open DS when no further header can be placed in it: fewer than 64 payload bytes or no directory entry is left (R39, R40). This happens as
soon as it is so (DESIGN CHOICE, log 79: the manual does not say at what moment). -/
def State.fillIfFull (s : State) : State :=
  if dsPayload < s.sp.cur.payload.length + 64 || s.sp.cur.dir.length = 2040 then s.fillDs else s

/-- Place a record's envelope at the end of the payload stream (R33, R39, R40). -/
def State.placeRec (s : State) (r : PackRec) : State :=
  let env := r.header ++ r.body
  let t := s.fillIfFull
  let e : DirEntry := { off := t.sp.cur.payload.length, len := env.length, zone := r.zone, count := r.count, start := r.start, ctx := r.ctx,
                        flags := r.flags, take := r.take }
  let u := t.modSp (fun p => { p with cur := { p.cur with dir := p.cur.dir ++ [e] }, latch := p.latch + env.length })
  (State.placeBytes (env.length / dsPayload + 2) env u).fillIfFull

/-- Records whose bodies are complete come through FIFO 16 and enter the payload stream in the order in which they were closed; an earlier one that is not complete
holds back the rest (R74). -/
def State.enterRecs : Nat → State → State
  | 0, s => s
  | n + 1, s =>
    let next := s.sp.recs.foldl (fun (a : Option PackRec) r =>
      match r.closed, a with
      | some k, some b => if k < b.closed.getD 0 then some r else a
      | some _, none => some r
      | none, _ => a) none
    match next with
    | some r =>
      if r.done then
        State.enterRecs n (((s.passBytes 16 r.body.length).placeRec r).modSp (fun p => { p with recs := p.recs.filter (fun x => x.closed != r.closed) }))
      else s
    | none => s

/-- Sequence number of the DS that holds the last byte of a record whose header lies in DS `q`. -/
def DirEntry.lastDs (e : DirEntry) (q : Nat) : Nat := q + (e.off + e.len - 1) / dsPayload

/-- LBA runs of the records that end in DS `q`, from the directories known (R76). -/
def State.endingIn (s : State) (q : Nat) : List (Nat × Nat) :=
  s.rc.dirs.flatMap (fun d => (d.2.filter (fun e => e.lastDs d.1 = q)).map (fun e => (e.start, e.count)))

/-! ### Groups (R57, R58) -/

/-- Close the open C3 group with the data DS it holds: its two parity DS enter the spool queue behind them. -/
def State.closeGroup (s : State) : State :=
  match s.sp.groupFirst with
  | some f =>
    let m := s.sp.groupCount
    let t := s.modSp (fun p => { p with groups := NMap.put p.groups f m, groupFirst := none, groupCount := 0 })
    ((t.indexCommit [.group f m]).spoolPut { kind := .parity0, seq := f, m }).spoolPut { kind := .parity1, seq := f, m }
  | none => s

/-- A data DS enters the spool queue: it joins the open group, which closes at 30 data DS. -/
def State.groupAdd (s : State) (q : Nat) : State :=
  let t := (s.spoolPut { kind := .data, seq := q, m := 0 }).modSp (fun p =>
    { p with groupFirst := some (p.groupFirst.getD q), groupCount := p.groupCount + 1
             images := NMap.modify p.images q (fun v => { v with group := some (p.groupFirst.getD q) }) })
  if 30 ≤ t.sp.groupCount then t.closeGroup else t

/-! ### Backlog (R78) -/

/-- Backlog in bytes: the payloads of the data copies not yet started, the payload of the open DS, and acknowledged data not yet in the
payload stream. -/
def State.backlog (s : State) : Nat :=
  dsPayload * (s.queued.countP (fun c => c.kind = .data)) + s.sp.cur.payload.length
    + s.sp.filled.length * dsPayload
    + 4096 * (s.sp.recs.foldl (fun n r =>
        n + (List.range r.count).countP (fun i => (NMap.find? s.sp.wbuf (r.start + i)).elim false (fun w => w.acked))) 0)

/-! ### Credit and acknowledgement (R342) -/

/-- Effective credit K in bytes. -/
def State.creditK (s : State) : Nat :=
  if !s.nv.vwc || s.pw.force0 then 0 else min s.pw.credit (s.pn pHIF_CREDIT_LIMIT) * 2 ^ 20

/-- LBAs of a map acknowledged and not yet persisted. -/
def unpersisted (m : NMap WLba) : Nat := m.countP (fun e => e.2.acked && !e.2.persisted)

/-- U in bytes. -/
def State.creditU (s : State) : Nat := 4096 * (unpersisted s.sp.wbuf + unpersisted s.car.sbuf)

/-- Every LBA of a write has persisted, or has been overwritten or deallocated since. -/
def State.writePersisted (s : State) (w : WriteCmd) : Bool :=
  let m := if w.nsid = 1 then s.sp.wbuf else s.car.sbuf
  (List.range w.nlb).all (fun i =>
    match NMap.find? m (w.slba + i) with
    | some x => x.persisted || decide (x.app != w.app)
    | none => true)

/-- Every LBA of a write to the take namespace has been spool-committed (R97). -/
def State.writeCommitted (s : State) (w : WriteCmd) : Bool :=
  (List.range w.nlb).all (fun i => NMap.find? s.sp.uncommitted (w.slba + i) != some w.app)

/-- The write completes: its LBAs count as acknowledged from here on, and it is counted (R342, R357). A Zone Append reports where it was
placed. -/
def State.ackWrite (s : State) (w : WriteCmd) : State :=
  let mark (m : NMap WLba) : NMap WLba :=
    (List.range w.nlb).foldl (fun a i => NMap.modify a (w.slba + i) (fun x => if x.app = w.app then { x with acked := true } else x)) m
  let t := if w.nsid = 1 then s.modSp (fun p => { p with wbuf := mark p.wbuf }) else s.modCar (fun c => { c with sbuf := mark c.sbuf })
  let u := t.modNv (fun n =>
    { n with unitsWritten := n.unitsWritten + 8 * w.nlb, writeCmds := n.writeCmds + 1, writes := n.writes.filter (fun x => x.seq != w.seq) })
  if w.append then u.complete w.seq stOk (w.slba % 2 ^ 32) (w.slba / 2 ^ 32) [] else u.done w.seq stOk

/-- A write may complete whatever the credit: its data has persisted, and on the take namespace with FUA it has been spool-committed. -/
def State.writeSettled (s : State) (w : WriteCmd) : Bool :=
  w.moved && (if w.fua && w.nsid = 1 then s.writeCommitted w else s.writePersisted w)

/-- Waiting writes in the order in which credit is granted: by class, then by fetch. -/
def State.creditOrder (s : State) : List WriteCmd :=
  let cls (w : WriteCmd) : Nat := (s.nv.held? w.seq).elim 0 (fun h => h.cls)
  (List.range 4).flatMap (fun c => s.nv.writes.filter (fun w => w.moved && cls w = c))

/-- Grant credit down a list of waiting writes: one that does not fit holds back those behind it, but for writes that are settled. -/
def State.grantList : List WriteCmd → Bool → State → State
  | [], _, s => s
  | w :: ws, stop, s =>
    if s.writeSettled w then State.grantList ws stop (s.ackWrite w)
    else if w.fua || stop then State.grantList ws stop s
    else if s.creditU + 4096 * w.nlb ≤ s.creditK then State.grantList ws false (s.ackWrite w)
    else State.grantList ws true s

/-- Acknowledge every waiting write that the credit or its persistence lets through. -/
def State.grantCredit (s : State) : State := State.grantList s.creditOrder false s

/-- Entering or leaving the state K = 0 raises EVT 0x605 (R343). -/
def State.noteCredit (s : State) : State :=
  let z := decide (s.creditK = 0)
  if z = s.nv.creditZero then s
  else (s.modNv (fun n => { n with creditZero := z })).raise 0x605 (if z then 1 else 2) []

/-! ### Capacity (R340) -/

/-- Z of R340. -/
def State.zoneEstimate (s : State) : Int :=
  let used := s.sp.zones.countP (fun e => e.2.st != .empty)
  let q := 94371840 * ((768000 - s.sp.pos) / 32 + 24000 * (47 - s.sp.wrap))
  let b := s.backlog + s.sp.zones.foldl (fun n e => if e.2.st.isActive then n + 4096 * (65536 - e.2.wp) else n) 0
  (used : Int) + ((q : Int) - b) / 268435456 - 100

/-- Evaluate the capacity: NZ grows by at least HIF_GROW_STEP, at park by any amount (R340). -/
def State.growZones (s : State) (park : Bool) : State :=
  let z := s.zoneEstimate
  let step : Int := if park then 1 else s.pn pHIF_GROW_STEP
  if (s.sp.nz : Int) + step ≤ z && decide (s.sp.nz < 4194304) then
    let t := s.modSp (fun p => { p with nz := min z.toNat 4194304 })
    (((t.indexCommit [t.counterRec]).modNv (fun n =>
      { n with changedNs := if n.changedNs.contains 1 then n.changedNs else n.changedNs ++ [1] })).raise 0x606 1 []).asyncEvent 2 0 0x04
  else s

end Sys2Proof.Machine
end

