-- ==== Sys2Proof/Machine/ReadOps.lean ====
section
/-! DEFINITION. Operations of the read path: where an LBA of the take namespace is served from (R12, R13, R336), C2 and the merging of
captures (R152 to R157), C3 (R158), authentication (R160), the outcome of a DS (R167), records on their way to a reader (R161, R226), and the
completion of waiting reads (R168). -/

namespace Sys2Proof.Machine

/-! ### Reports -/

/-- Journal an entry whose EVT number and cause the manual does not give: both are free values (log 2). -/
def State.journalOpen (s : State) (data : Bytes) : State :=
  (s.journal (s.free 1 % 2048) (s.free 2 % 256) false data).drawn 1

/-- Add an entry to the Error log, newest first, at most 64 (R168, R356). -/
def State.logError (s : State) (h : Held) (st : Status) (lba nsid vsi csi : Nat) : State :=
  s.modNv (fun n =>
    { n with
      errCount := n.errCount + 1
      errLog := ({ count := n.errCount + 1, sq := h.sq, cid := h.cid.getD 0, status := st.sc + 256 * st.sct + (if st.dnr then 2 ^ 14 else 0),
                   lba, nsid, vsi, csi } :: n.errLog).take 64 })

/-- Command Specific Information of a decode failure (R168). -/
def decodeCsi (cls passes ds wrap : Nat) : Nat := cls + 256 * (passes % 16) + 2 ^ 16 * (ds % 2 ^ 32) + 2 ^ 48 * (wrap % 64)

/-- Status of a decode outcome class (R167). Class 0xBB is the model's own number for a DS or record whose key the device does not hold:
the outcome of an erased take, Zone Is Offline (R160, R272). -/
def classStatus (cls : Nat) : Status :=
  if cls = 0x10 || cls = 0x11 then stRead false
  else if cls = 0x20 then stNotReady
  else if cls = 0xBB then stZoneOffline
  else stRead true

/-! ### Where a DS lies -/

/-- The verified copy of data DS `q` that the index journal locates: wrap, position, group (R95). -/
def State.locOf (s : State) (q : Nat) : Option (Nat × Nat × Nat) :=
  (s.sp.locs.find? (fun l => l.kind = 0 && decide (l.seq ≤ q) && decide (q < l.seq + l.count))).map (fun l => (l.wrap, l.pos + (q - l.seq), l.group))

/-- First and last position of a group's located copies on its wrap. -/
def State.groupSpan (s : State) (g : Nat) : Option (Nat × Nat × Nat) :=
  let ls := s.sp.locs.filter (fun l => l.group = g)
  match ls with
  | [] => none
  | l :: _ => some (l.wrap, ls.foldl (fun m x => min m x.pos) l.pos, ls.foldl (fun m x => max m (x.pos + x.count - 1)) 0)

/-- Data DS of a group that the index journal locates. -/
def State.groupDs (s : State) (g : Nat) : List Nat :=
  (s.sp.locs.filter (fun l => l.group = g && l.kind = 0)).flatMap (fun l => (List.range l.count).map (· + l.seq))

/-- The Carousel serves DS `q`: it holds the image, and no ladder has taken over (R12, R164). -/
def State.carouselHas (s : State) (q : Nat) : Bool := (NMap.find? s.sp.images q).isSome && (NMap.find? s.rc.ladders q).isNone

/-- Wrap DS `q` is read from now: 0x3F from the Carousel (R168). -/
def State.sourceWrap (s : State) (q : Nat) : Nat := if s.carouselHas q then 0x3F else (s.locOf q).elim 0x3F (fun l => l.1)

/-- Wrap an outcome of DS `q` is reported with: the one it was read from, else the one it would be (R168). -/
def State.wrapFrom (s : State) (q : Nat) : Nat := match NMap.find? s.rc.origin q with | some o => o.1 | none => s.sourceWrap q

/-- Re-read passes made for DS `q` (R168). -/
def State.dsPasses (s : State) (q : Nat) : Nat :=
  match NMap.find? s.rc.ladders q with
  | some l => l.passes
  | none => ((NMap.find? s.rc.origin q).map (fun o => o.2)).getD 0

/-- Group a data DS is read with: the one its location names, else a group of its own (R61, R163). -/
def State.dsGroup (s : State) (q : Nat) : Nat := (s.locOf q).elim q (fun l => l.2.2)

/-- Where a DS without a location entry is searched for, reading forward in position order: on the wrap of the nearest lower DS located, after it and
before the next DS located there, or to the end of what is recorded (R61, R163). -/
def State.searchSpan (s : State) (q : Nat) : Option (Nat × Nat × Nat) :=
  let data := s.sp.locs.filter (fun l => l.kind = 0)
  let low := (data.filter (fun l => decide (l.seq + l.count ≤ q))).foldl (fun (m : Option Loc) l =>
    match m with | some x => if x.seq < l.seq then some l else m | none => some l) none
  let w := low.elim 0 (fun l => l.wrap)
  let a := low.elim 0 (fun l => l.pos + l.count)
  let next := (data.filter (fun l => l.wrap = w && decide (q < l.seq))).map (fun l => l.pos)
  let b := next.foldl min (if w = s.sp.wrap then s.sp.pos else wrapPositions)
  if a < b then some (w, a, b - 1) else none

/-- Group, wrap and positions to read for a data DS: its group's located copies, or where it is searched for. -/
def State.readSpan (s : State) (q : Nat) : Option (Nat × Nat × Nat × Nat) :=
  if (s.locOf q).isSome then (s.groupSpan (s.dsGroup q)).map (fun x => (s.dsGroup q, x)) else (s.searchSpan q).map (fun x => (q, x))

/-- A read that needs tape is refused now (R13), or the cartridge is unloaded (R218). -/
def State.tapeBarred (s : State) : Bool :=
  s.mag.st = .spooling || s.mag.st = .crawl || !s.queueEmpty || s.mag.unloaded

/-! ### Where an LBA comes from (R12, R336) -/

/-- Source of an LBA of the take namespace. -/
inductive Src where
  /-- These bytes, now. -/
  | now (b : Bytes)
  /-- It failed: class, passes, DS, wrap. -/
  | fail (cls passes ds wrap : Nat)
  /-- It needs this DS first. -/
  | wait (q : Nat)
  /-- Its record is being decompressed. -/
  | coming
  deriving DecidableEq, Repr

/-- LBA of a flush extent in clear: its XTS data unit decrypted (R297); none where its sectors are uncorrectable or its key is not held. -/
def State.flushLba (s : State) (u : CUnit) (lba : Nat) : Option Bytes :=
  let i := lba - u.lbas.getD 0 0
  let sec0 := 2 * (i + 1)
  if u.bad.contains sec0 || u.bad.contains (sec0 + 1) then none
  else
    (s.mediaKey (leAt u.data 0x08 2)).map (fun key =>
      xtsDecrypt key (2 ^ 127 + leAt u.data 0x18 8 * 256 + i) (fitBytes 4096 (slice u.data (4096 * (i + 1)) 4096)))

/-- The flush extent that holds an LBA. -/
def State.flushOf (s : State) (lba : Nat) : Option CUnit :=
  (List.find? (fun (e : Nat × CUnit) =>
    e.2.kind = .flush && e.2.mapped && decide (e.2.lbas.getD 0 0 ≤ lba) && decide (lba < e.2.lbas.getD 0 0 + e.2.lbas.getD 1 0)) s.car.units).map
      Prod.snd

/-- The record that holds an LBA, with the DS its header lies in, from the directories known. -/
def State.recordOf (s : State) (lba : Nat) : Option (Nat × DirEntry) :=
  s.rc.dirs.findSome? (fun d => (d.2.find? (fun e => decide (e.start ≤ lba) && decide (lba < e.start + e.count))).map (fun e => (d.1, e)))

/-- The next DS to look for the record of an LBA in: the first of its take's DS whose directory is not known and that has not failed; the
take's range is that of the take table (R95). -/
def State.scanDs (s : State) (lba : Nat) : Option Nat :=
  match NMap.find? s.sp.takes (NMap.get Zone.zero s.sp.zones (zoneOf lba)).take with
  | some t =>
    match t.firstDs, t.lastDs with
    | some a, some b =>
      (List.range (b + 1 - a)).findSome? (fun i =>
        if (NMap.find? s.rc.dirs (a + i)).isNone && (NMap.find? s.rc.classes (a + i)).isNone then some (a + i) else none)
    | _, _ => none
  | none => none

/-- DS of a record whose header lies in DS `q`. -/
def DirEntry.span (e : DirEntry) (q : Nat) : List Nat := (List.range (e.lastDs q + 1 - q)).map (· + q)

/-- Source of LBA `lba`. -/
def State.srcOf (s : State) (lba : Nat) : Src :=
  let z := NMap.get Zone.zero s.sp.zones (zoneOf lba)
  if z.written ≤ lba % 65536 then .now (zeroBytes 4096)
  else
    match NMap.find? s.sp.wbuf lba with
    | some w => .now w.data
    | none =>
      match NMap.find? s.rc.plain lba, NMap.find? s.rc.failed lba with
      | some b, _ => .now b
      | none, some (c, p, d, w) => .fail c p d w
      | none, none =>
        match s.flushOf lba with
        | some u => match s.flushLba u lba with | some b => .now b | none => .fail 0x10 0 0 0x3F
        | none =>
          match s.recordOf lba with
          | some (q, e) =>
            match (e.span q).findSome? (fun d => (NMap.find? s.rc.classes d).map (fun c => (d, c))) with
            | some (d, c) => .fail (c % 256) (c / 256) d (s.wrapFrom d)
            | none =>
              match (e.span q).find? (fun d => (NMap.find? s.rc.auth d).isNone) with
              | some d => .wait d
              | none => .coming
          | none =>
            match s.scanDs lba with
            | some q => .wait q
            | none => .fail 0x14 0 0 0x3F

/-- Nothing but tape can serve this LBA: its record lies in a DS that the Carousel does not hold. -/
def State.tapeOnly (s : State) (lba : Nat) : Bool :=
  match s.srcOf lba with
  | .wait q => !s.carouselHas q || (match s.recordOf lba with | some (r, e) => (e.span r).any (fun d => !s.carouselHas d && (NMap.find? s.rc.auth d).isNone) | none => false)
  | _ => false

/-! ### Requests that wait (R166) -/

/-- Ranges of take-namespace LBAs that held reads of arbitration class `k` wait for, with Limited Retry. -/
def State.readsOf (s : State) (k : Nat) : List (Nat × Nat × Bool) :=
  (s.nv.held.filter (fun h => h.cls = k)).filterMap (fun h => match h.wait with | .read a n l => some (a, n, l) | _ => none)

/-- Those that the compute DMA of invocations of class `k` waits for (R375): opcodes 0x01 and 0x04 on a take window. -/
def State.dmaOf (s : State) (k : Nat) : List (Nat × Nat × Bool) :=
  s.comp.cores.flatMap (fun c =>
    match c.2.run.filter (fun v => v.cls = k) with
    | some v =>
      c.2.dma.filterMap (fun d =>
        let kind := ((NMap.find? s.comp.kerns v.inst).map (fun k => (k.wins.getD d.win ⟨0, 0, 0⟩).kind)).getD 0
        if d.res.isNone && (d.op = 1 || d.op = 4) && kind = 4 then
          (v.binds.find? (fun b => b.win = d.win)).map (fun b => (b.lba + d.off, d.count, false))
        else none)
    | none => [])

/-- The ranges that held reads wait for, in class order and by fetch order within a class (R330). -/
def State.readWants (s : State) : List (Nat × Nat × Bool) := (List.range 4).flatMap s.readsOf

/-- The ranges that the compute DMA waits for. -/
def State.dmaWants (s : State) : List (Nat × Nat × Bool) := (List.range 4).flatMap s.dmaOf

/-- Everything that waits. -/
def State.wants (s : State) : List (Nat × Nat × Bool) := s.readWants ++ s.dmaWants

/-- An LBA is wanted. -/
def State.wanted (s : State) (lba : Nat) : Bool := s.wants.any (fun w => decide (w.1 ≤ lba) && decide (lba < w.1 + w.2.1))

/-- DS that waiting requests need now. -/
def State.neededDs (s : State) : List Nat :=
  (s.wants.flatMap (fun w => (lbaList w.1 w.2.1).filterMap (fun l => match s.srcOf l with | .wait q => some q | _ => none))).eraseDups

/-- Every request that needs DS `q` has Limited Retry (R345). -/
def State.onlyLimited (s : State) (q : Nat) : Bool :=
  s.wants.all (fun w => w.2.2 || (lbaList w.1 w.2.1).all (fun l => s.srcOf l != .wait q))

/-! ### C2 and merging (R152, R155, R157) -/

/-- The pair most accepted rows carry, with how many carry it; among pairs carried by equally many, the one met first in SDS and row order (DESIGN
CHOICE, log 76: the manual is silent). -/
def majority (rows : List (Nat × Nat)) : Option ((Nat × Nat) × Nat) :=
  rows.foldl (fun (a : Option ((Nat × Nat) × Nat)) p =>
    let n := rows.countP (fun x => x = p)
    match a with
    | some (_, m) => if m < n then some (p, n) else a
    | none => some (p, n)) none

/-- Symbol of row `r` in column (`s`, `v`) of the capture, none when it is erased. -/
def capSymbol (cap : NMap Row) (id : Nat × Nat) (s v r : Nat) : Option Byte :=
  match NMap.find? cap (128 * s + r) with
  | some w => if (w.seqField, w.fmt) = id then w.info.getD v none else none
  | none => none

/-- Decode one column (R155). -/
def capColumn (cap : NMap Row) (id : Nat × Nat) (emax s v : Nat) : Option Column :=
  let syms := (List.range 128).map (capSymbol cap id s v)
  let er := (List.range 128).filter (fun r => (syms.getD r none).isNone)
  match rsDecode 16 (syms.map (fun x => (x.getD 0).toNat)) er with
  | some r => if r.errors ≤ emax then some { syms := (ofNats r.symbols).take 112, errs := r.errors, byC3 := false, clash := false } else none
  | none => none

/-- Number of columns of a DS. -/
abbrev dsColumns : Nat := 28672

/-- Decode every column of a capture: those that decoded, by 896·s + v. -/
def capColumns (cap : NMap Row) (id : Nat × Nat) (emax : Nat) : NMap Column :=
  (List.range dsColumns).filterMap (fun k => (capColumn cap id emax (k / 896) (k % 896)).map (fun c => (k, c)))

/-- Merge a capture's columns: the first value stands; a differing later one fails the column (R157). -/
def mergeCols (old new : NMap Column) : NMap Column :=
  new.foldl (fun (m : NMap Column) (e : Nat × Column) =>
    match NMap.find? m e.1 with
    | some c => if c.syms = e.2.syms then m else NMap.put m e.1 { c with clash := true }
    | none => NMap.put m e.1 e.2) old

/-- Every column is there and none has failed (R156). -/
def Decode.complete (d : Decode) : Bool := (List.range dsColumns).all (fun k => (NMap.find? d.cols k).elim false (fun c => !c.clash))

/-- The information bytes of a complete DS (R43). -/
def Decode.info (d : Decode) : Bytes :=
  (List.range 32).flatMap (fun s => (List.range 112).flatMap (fun r => (List.range 896).map (fun v =>
    ((NMap.find? d.cols (896 * s + v)).elim [] (fun c => c.syms)).getD r 0)))

/-- A DS of which nothing is known. -/
def Decode.zero : Decode :=
  { cols := [], seen := false, captures := 0, tagFail := false, usedC3 := false, alone := false, wrap := 0, pos := 0, m := 0, gone := false }

/-- Key of a DS being decoded. -/
def decKey (k : DsKind) (q : Nat) : Nat := 4 * q + (match k with | .data => 0 | .index => 1 | .parity0 => 2 | .parity1 => 3)

/-- The number congruent to `f` modulo 2^24 that lies nearest to `ref` (R38, R47, R152). -/
def fullSeq (ref f : Nat) : Nat :=
  let base := ref / 2 ^ 24 * 2 ^ 24 + f % 2 ^ 24
  if base + 2 ^ 23 < ref then base + 2 ^ 24 else if ref + 2 ^ 23 < base && 2 ^ 24 ≤ base then base - 2 ^ 24 else base

/-! ### C3 (R158) -/

/-- Keys of the m + 2 DS of a group, in the order of their C3 codewords. -/
def groupKeys (f m : Nat) : List Nat := (List.range m).map (fun i => decKey .data (f + i)) ++ [decKey .parity0 f, decKey .parity1 f]

/-- Column `k` of a DS, none when it failed or the DS has no capture. -/
def State.colOf (s : State) (key k : Nat) : Option Bytes :=
  ((NMap.find? s.rc.dec key).bind (fun d => NMap.find? d.cols k)).bind (fun c => if c.clash then none else some c.syms)

/-- The symbols of column `k` of the group's DS number `i`, restored from the others; none with more than 2 erasures. -/
def State.c3Column (s : State) (keys : List Nat) (i k : Nat) : Option Bytes :=
  let cols := keys.map (fun key => s.colOf key k)
  let er := (List.range keys.length).filter (fun j => (cols.getD j none).isNone)
  if 2 < er.length then none
  else
    (List.range 112).mapM (fun r =>
      (rsDecode 2 (cols.map (fun c => ((c.getD []).getD r 0).toNat)) er).map (fun x => BitVec.ofNat 8 (x.symbols.getD i 0)))

/-- First sequence number of the C3 group of data DS `q`: the one its location names, else that of a captured parity DS whose group holds it. -/
def State.c3Group (s : State) (q : Nat) : Nat :=
  match s.locOf q with
  | some l => l.2.2
  | none => ((List.find? (fun (e : Nat × Nat) => decide (e.1 ≤ q) && decide (q < e.1 + e.2)) s.rc.decM).map Prod.fst).getD q

/-- Apply C3 to data DS `q` of its group: the failed columns that can be restored, with the counter of restored bytes (R158, R171). -/
def State.restoreC3 (s : State) (q : Nat) : State :=
  let f := s.c3Group q
  match NMap.find? s.rc.decM f with
  | none => s
  | some m =>
    let keys := groupKeys f m
    let key := decKey .data q
    let d := NMap.get Decode.zero s.rc.dec key
    let failed := (List.range dsColumns).filter (fun k => (s.colOf key k).isNone)
    let got := failed.filterMap (fun k => (s.c3Column keys (q - f) k).map (fun b => (k, b)))
    if got.isEmpty then s
    else
      let cols := got.foldl (fun (m : NMap Column) (e : Nat × Bytes) =>
        NMap.put m e.1 { syms := e.2, errs := 0, byC3 := true, clash := false }) d.cols
      (s.modRc (fun r => { r with dec := NMap.put r.dec key { d with cols, usedC3 := true } })).bumpPv pTRC_C3_RESTORED 0 (112 * got.length)

/-! ### Authentication (R160) -/

/-- A ladder nothing of which has happened; TRC_RETRY_MAX is latched (R165, R171). -/
def Ladder.start (max : Nat) : Ladder := { passes := 0, max, first := false, expired := false, inPass := false, limited := false }

/-- Result of the checks of a complete DS. -/
inductive AuthRes where
  | ok
  | inconsistent
  | noKey
  | bad
  deriving DecidableEq, Repr

/-- The tag of a DS verifies under this key (R41, R253). -/
def tagOk (key info : Bytes) : Bool :=
  gmac key (slice info (dsPayload + 0x28) 12) (gmacMessage info) = slice info (dsPayload + 0x38) 16

/-- The checks in their order; the MAC key is the one the table names, in its slot. A wrong identifier or format code counts as a bad tag. -/
def State.authCheck (s : State) (fmt q : Nat) (info : Bytes) : AuthRes :=
  let t := info.drop dsPayload
  if beAt t 0 4 != 0x53524631 || beAt t 4 1 != fmt then .bad
  else if beAt t 8 4 != q then .inconsistent
  else if beAt t 0x10 8 != s.sp.cartridge || beAt t 0x50 2 != s.sp.initCount then .inconsistent
  else
    match s.slotKey (259 + beAt t 0x34 2) with
    | some key => if tagOk key info then .ok else .bad
    | none => .noKey

/-- A directory entry of a table. -/
def DirEntry.read (b : Bytes) : DirEntry :=
  { off := beAt b 0 4, len := beAt b 4 4, zone := beAt b 8 4, count := beAt b 12 4, start := beAt b 16 8, ctx := beAt b 24 2, flags := beAt b 26 2,
    take := beAt b 28 4 }

/-- The directory of an authenticated data DS. -/
def dirOf (info : Bytes) : List DirEntry :=
  let t := info.drop dsPayload
  (List.range (min 2040 (beAt t 6 2))).map (fun i => DirEntry.read (slice t (0x100 + 32 * i) 32))

/-- A DS ends in a class: it is counted, and a failure is journalled (R167); class 0xBB is no class of the manual and is not counted. -/
def State.dsClass (s : State) (cls q passes : Nat) : State :=
  let t := if cls = 0xBB then s else s.bumpPv pTRC_DS_CLASS cls 1
  if cls < 0x10 then t
  else
    let u := t.modRc (fun r =>
      { r with classes := NMap.put r.classes q (cls + 256 * passes), origin := NMap.put r.origin q (s.sourceWrap q, passes), ladders := NMap.del r.ladders q })
    if cls = 0xBB then u else (u.noteFault 0x11).journalOpen (leBytes 1 cls ++ leBytes 4 q)

/-- A data DS has authenticated: it is held, its directory is known (R159, R161). -/
def State.dsAuth (s : State) (cls q : Nat) (info : Bytes) : State :=
  (s.dsClass cls q 0).modRc (fun r =>
    { r with origin := NMap.put r.origin q (s.sourceWrap q, s.dsPasses q)
             auth := NMap.put r.auth q info, dirs := NMap.put r.dirs q (dirOf info), ladders := NMap.del r.ladders q, classes := NMap.del r.classes q })

/-- What is kept of a DS whose tag failed: the columns that C2 corrected with e = 0 and that C3 did not restore (R160). -/
def Decode.cut (d : Decode) : Decode :=
  { d with cols := d.cols.filter (fun c => c.2.errs = 0 && !c.2.byC3), tagFail := true, usedC3 := false, alone := false }

/-- Class of a DS that has authenticated (R167). -/
def Decode.okClass (d : Decode) (reread : Bool) : Nat := if reread then 4 else if d.usedC3 then 3 else if d.alone then 1 else 2

/-- The device holds this DS as decoded columns and the DS is complete: it passes FIFO 52 to the checks of R160, with what follows (R101, R160, R167). -/
def State.tryAuth (s : State) (q : Nat) : State :=
  let key := decKey .data q
  let d := NMap.get Decode.zero s.rc.dec key
  if !d.complete || (NMap.find? s.rc.auth q).isSome || !s.flows 52 then s
  else
    let passes := ((NMap.find? s.rc.ladders q).map (fun l => l.passes)).getD 0
    let rereading : Bool := (s.rc.pass.map (fun p => decide (p.kind = 1))).getD false
    match s.authCheck 0x11 q d.info with
    | .ok => (s.passBytes 52 dsInfo).dsAuth (d.okClass (passes != 0 || rereading)) q d.info
    | .inconsistent => s.dsClass 0x14 q passes
    | .noKey => s.dsClass 0xBB q passes
    | .bad => s.modRc (fun r => { r with dec := NMap.put r.dec key d.cut })

/-! ### The Carousel (R164) -/

/-- An uncorrectable sector lies in the image of DS `q` (R310). -/
def State.imageBad (s : State) (img : DsImage) : Bool :=
  (imageUnits img.logOff).any (fun (k, _) =>
    match s.logUnit k with
    | some (_, u) => u.bad.any (fun x => decide (img.logOff < 2 ^ 20 * k + 2048 * x + 2048) && decide (2 ^ 20 * k + 2048 * x < img.logOff + dsInfo))
    | none => false)

/-- Serve DS `q` from the Carousel: it authenticates, or tape takes over when a verified copy is located, or it ends failed (R164). -/
def State.carouselAuth (s : State) (q : Nat) : State :=
  match NMap.find? s.sp.images q with
  | none => s
  | some img =>
    let flash := s.imageBad img
    let res := if flash then AuthRes.bad else s.authCheck 0x11 q img.bytes
    match res with
    | .ok => s.dsAuth 1 q img.bytes
    | .inconsistent => s.dsClass 0x14 q 0
    | .noKey => s.dsClass 0xBB q 0
    | .bad =>
      if (s.locOf q).isSome then
        s.modRc (fun r => { r with ladders := NMap.put r.ladders q (Ladder.start (s.pn pTRC_RETRY_MAX)) })
      else s.dsClass (if flash then 0x10 else 0x12) q 0

/-! ### Records to readers (R161, R226) -/

/-- The envelope of a record from the payloads of the first `k` of its DS: the header's DS from its offset, the others their continuation. -/
def State.envelope (s : State) (q : Nat) (e : DirEntry) (k : Nat) : Bytes :=
  (((e.span q).take k).flatMap (fun d => ((NMap.get [] s.rc.auth d).take dsPayload).drop (if d = q then e.off else 0))).take e.len

/-- DS of a record that have authenticated, from its header's on. -/
def State.partsOf (s : State) (q n : Nat) : Nat := (((List.range n).map (· + q)).takeWhile (fun d => (NMap.find? s.rc.auth d).isSome)).length

/-- Decrypt a body sector by sector (R35, R252). -/
def decryptBody (key : Bytes) (ctx sector : Nat) : Nat → Bytes → Bytes
  | 0, _ => []
  | n + 1, b =>
    if b.isEmpty then [] else xtsDecrypt key (ctx * 2 ^ 64 + sector) (b.take 4096) ++ decryptBody key ctx (sector + 1) n (b.drop 4096)

/-- All DS of a record have verified. -/
def ReadRec.whole (r : ReadRec) : Bool := decide (r.span ≤ r.parts)

/-- A record waits for its engine or is in it. -/
def ReadRec.inEngine (r : ReadRec) : Bool := !(r.decoded && r.whole)

/-- The output of a record whose body is whole (R247). -/
def ReadRec.decompress (r : ReadRec) : Option Bytes :=
  Sys2Proof.Machine.decompress (beAt r.header 6 1) (beAt r.header 0x0C 4) (r.body.take (beAt r.header 0x28 4))

/-- The decompression engine with the fewest body bytes queued, the lowest number among equals (R226). -/
def State.pickDecomp (s : State) : Nat :=
  let load (e : Nat) : Nat := s.rc.recs.foldl (fun n r => if r.engine = e && r.inEngine then n + r.body.length else n) 0
  (List.range 8).foldl (fun b e => if load e < load b then e else b) 0

/-- Mark the LBAs of a record as failed. -/
def State.failLbas (s : State) (start count cls passes ds wrap : Nat) : State :=
  s.modRc (fun r => { r with failed := (List.range count).foldl (fun m i => NMap.put m (start + i) (cls, passes, ds, wrap)) r.failed })

/-- A record has failed for itself, its DS being authenticated: class 0x13 or 0x14, counted and journalled, with what its DS was read from (R167,
R168). -/
def State.recFails (s : State) (start count cls q : Nat) : State :=
  (((s.bumpPv pTRC_DS_CLASS cls 1).failLbas start count cls (s.dsPasses q) q (s.wrapFrom q)).noteFault 0x11).journalOpen (leBytes 1 cls ++ leBytes 4 q)

/-- Body bytes of the first `k` DS of a record, decrypted: whole sectors, and the rest of the last one once the record is whole (R161). -/
def State.clearBody (s : State) (key header : Bytes) (q : Nat) (e : DirEntry) (k : Nat) : Bytes :=
  let b := (s.envelope q e k).drop 64
  let n := if (e.span q).length ≤ k then b.length else b.length / 4096 * 4096
  decryptBody key (beAt header 0x1C 2) (beAt header 0x20 8) (n / 4096 + 1) (b.take n)

/-- A record whose header's DS has authenticated is decrypted as far as its DS have, and queued for an engine; a key that is not held gives the
outcome of an erased take, one for which no slot is free waits (R257); a header that does not belong there is an index inconsistency (R161, R167, R226). -/
def State.queueRec (s : State) (q : Nat) (e : DirEntry) : State :=
  let k := s.partsOf q (e.span q).length
  let h := (s.envelope q e k).take 64
  if !headerValid h || beAt h 0x10 8 != e.start || beAt h 0x0C 4 != e.count then s.recFails e.start e.count 0x14 q
  else
    let t := s.keySlotLoad (beAt h 0x1E 2)
    match t.xtsKey (beAt h 0x1E 2) with
    | none => if (t.mediaKey (beAt h 0x1E 2)).isSome then t else t.failLbas e.start e.count 0xBB (t.dsPasses q) q (t.wrapFrom q)
    | some key =>
      t.modRc (fun r => { r with recs := r.recs ++
        [{ header := h, body := t.clearBody key h q e k, ds := q, wrap := t.wrapFrom q, engine := t.pickDecomp, parts := k, span := (e.span q).length,
           out := none, decoded := false }] })

/-- Records that a request waits for and whose header's DS has authenticated, not yet queued, in LBA order. -/
def State.readyRecs (s : State) : List (Nat × DirEntry) :=
  s.rc.dirs.flatMap (fun d => (d.2.filter (fun e =>
    e.count != 0 && s.wants.any (fun w => decide (w.1 < e.start + e.count) && decide (e.start < w.1 + w.2.1))
      && (NMap.find? s.rc.auth d.1).isSome
      && (match s.srcOf e.start with | .coming => true | .wait _ => true | _ => false)
      && !s.rc.recs.any (fun r => beAt r.header 0x10 8 = e.start))).map (fun e => (d.1, e)))

/-- A queued record takes in the DS of it that have verified since; one that its engine has begun is decompressed as they come, and its output is
whole with the last (R161). -/
def State.growRec (s : State) (r : ReadRec) : State :=
  let k := s.partsOf r.ds r.span
  if k = r.parts then s
  else
    match s.rc.dirs.findSome? (fun d => if d.1 = r.ds then d.2.find? (fun e => e.start = beAt r.header 0x10 8) else none),
          s.xtsKey (beAt r.header 0x1E 2) with
    | some e, some key =>
      let x := { r with parts := k, body := s.clearBody key r.header r.ds e k }
      let out := if x.decoded && x.whole then x.decompress else none
      let t := s.modRc (fun c => { c with recs := c.recs.map (fun y => if y = r then { x with out } else y) })
      t.bumpPv pCMP_DOUT_BYTES r.engine (out.elim 0 List.length)
    | _, _ => s

/-- Records move on: one of whose DS has failed is dropped, the others take in what has verified, and new ones are queued. -/
def State.gatherRecs (s : State) : State :=
  let t := s.modRc (fun r => { r with recs := r.recs.filter (fun x => !(List.range x.span).any (fun i => (NMap.find? r.classes (x.ds + i)).isSome)) })
  let u := t.rc.recs.foldl State.growRec t
  u.readyRecs.foldl (fun v (q, e) => v.queueRec q e) u

/-! ### Completing reads (R168) -/

/-- Every LBA of a waiting read is there or has failed. -/
def State.readDone (s : State) (slba n : Nat) : Bool :=
  (lbaList slba n).all (fun l => match s.srcOf l with | .now _ | .fail _ _ _ _ => true | _ => false)

/-- Complete a read whose LBAs are all decided: the data, or the status of the failed record with the lowest LBA. Where no record was found at the
place expected, class 0x14 is counted and journalled here (R167, R168, R357). -/
def State.finishRead (s : State) (h : Held) (slba n : Nat) : State :=
  match (lbaList slba n).findSome? (fun l => match s.srcOf l with | .fail c p d w => some (l, c, p, d, w) | _ => none) with
  | some (l, c, p, d, w) =>
    let st := classStatus c
    let a := s.when (c = 0x14 && (s.recordOf l).isNone && (NMap.find? s.rc.failed l).isNone) (fun t =>
      ((t.bumpPv pTRC_DS_CLASS 0x14 1).noteFault 0x11).journalOpen (leBytes 1 0x14 ++ leBytes 4 0))
    let t := if c = 0xBB then a else a.logError h st l 1 0xC2 (decodeCsi c p d w)
    (t.modNv (fun v => { v with readCmds := v.readCmds + 1, mediaErrors := if st.sct = 2 then v.mediaErrors + 1 else v.mediaErrors })).done h.seq st
  | none =>
    let data := (lbaList slba n).flatMap (fun l => match s.srcOf l with | .now b => fitBytes 4096 b | _ => [])
    ((s.passBytes 62 data.length).modNv (fun v => { v with unitsRead := v.unitsRead + 8 * n, readCmds := v.readCmds + 1 })).complete h.seq stOk 0 0 data

/-- The host read path moves: requests, data and completions (R101, R111). -/
def State.readFlows (s : State) : Bool := s.flows 62 && s.flows 70 && s.flows 71

/-- Complete every waiting read that is decided, in fetch order; while the read return is halted they wait (R111). -/
def State.settleReads (s : State) : State :=
  s.nv.held.foldl (fun t h =>
    match h.wait with
    | .read a n _ => if t.readFlows && t.readDone a n then ((t.pass 70 1 1).finishRead h a n).pass 71 1 1 else t
    | _ => t) s

/-- Complete every read that waits for tape with Namespace Not Ready; the compute DMA's as well (R166, R374). -/
def State.refuseReads (s : State) (p : Nat → Nat → Bool) : State :=
  let hs := s.nv.held.filter (fun h => match h.wait with | .read a n _ => p a n | _ => false)
  let t := (s.doneAll (hs.map (fun h => h.seq)) stNotReady)
  t.modComp (fun c =>
    { c with cores := c.cores.map (fun x => (x.1,
        match x.2.run with
        | some v => { x.2 with dma := x.2.dma.map (fun d =>
            match v.binds.find? (fun b => b.win = d.win) with
            | some b => if d.res.isNone && (d.op = 1 || d.op = 4) && p (b.lba + d.off) d.count && s.dmaWants.contains (b.lba + d.off, d.count, false)
                        then { d with res := some (0x02, 0x20, 0, []) } else d
            | none => d) }
        | none => x.2)) })

/-- The Error log entry of a read refused with class 0x20: its first LBA that only tape can serve, and the DS that it needs (R167, R168). -/
def State.logStopped (s : State) (h : Held) (a n : Nat) : State :=
  match (lbaList a n).findSome? (fun l => match s.srcOf l with | .wait q => if s.carouselHas q then none else some (l, q) | _ => none) with
  | some (l, q) => s.logError h stNotReady l 1 0xC2 (decodeCsi 0x20 (s.dsPasses q) q (s.wrapFrom q))
  | none => s

/-- The transport stopped with a reel loop in HOLD: every DS that waits for tape ends in class 0x20, and the reads complete with Namespace Not
Ready (R166, R167). -/
def State.stopReads (s : State) : State :=
  let tape (a n : Nat) : Bool := (lbaList a n).any s.tapeOnly
  let ds := s.neededDs.filter (fun q => !s.carouselHas q)
  let t := s.nv.held.foldl (fun t h => match h.wait with | .read a n _ => if tape a n then t.logStopped h a n else t | _ => t) s
  (ds.foldl (fun t q => (t.bumpPv pTRC_DS_CLASS 0x20 1).journalOpen (leBytes 1 0x20 ++ leBytes 4 q)) t).refuseReads tape

/-- What nothing waits for any longer is dropped: released plaintext, failures, queued records; ladders that are not in a pass with their
tape reads (R161, R166). -/
def State.dropUnwanted (s : State) : State :=
  let need := s.neededDs
  (s.modRc (fun r =>
    { r with
      plain := r.plain.filter (fun e => s.wanted e.1)
      failed := r.failed.filter (fun e => s.wanted e.1)
      recs := r.recs.filter (fun x => s.wants.any (fun w =>
        decide (w.1 < beAt x.header 0x10 8 + beAt x.header 0x0C 4) && decide (beAt x.header 0x10 8 < w.1 + w.2.1)))
      ladders := r.ladders.filter (fun e => e.2.inPass || need.contains e.1)
      classes := if s.wants.isEmpty then [] else r.classes })).modCtl (fun c =>
    { c with tasks := c.tasks.filter (fun t => match t with | .read q => need.contains q || (c.tasks.head? = some t && c.aim.isSome) | _ => true) })

/-- The class in which tape is granted for DS `q`: the highest of the requests that need it, 3 with none (R330). -/
def State.dsCls (s : State) (q : Nat) : Nat :=
  ((List.range 3).find? (fun k => (s.readsOf k ++ s.dmaOf k).any (fun w => (lbaList w.1 w.2.1).any (fun l => s.srcOf l = .wait q)))).getD 3

/-- Put a read among the waiting activities: behind those of its class, before reads of a lower class (R202, R330). -/
def insertRead (cls : Nat → Nat) (q : Nat) : List Task → List Task
  | [] => [.read q]
  | .read p :: ts => if cls q < cls p then .read q :: .read p :: ts else .read p :: insertRead cls q ts
  | t :: ts => t :: insertRead cls q ts

/-- A DS that only tape can serve gets its ladder and a place among the tape activities (R165, R166, R202); where R13 forbids tape, the reads
that need it are refused (R164). -/
def State.wantTape (s : State) (q : Nat) : State :=
  if (s.readSpan q).isNone then s.dsClass 0x14 q 0
  else if s.tapeBarred then s.refuseReads (fun a n => (lbaList a n).any (fun l => s.srcOf l = .wait q))
  else
    let t := if (NMap.find? s.rc.ladders q).isSome then s else
      s.modRc (fun r => { r with ladders := NMap.put r.ladders q (Ladder.start (s.pn pTRC_RETRY_MAX)) })
    (t.modRc (fun r => { r with top := max r.top (s.dsGroup q) })).modCtl (fun c =>
      let n := if c.stage != 0 || c.begun || c.aim.isSome then 1 else 0
      { c with tasks := if c.tasks.contains (.read q) then c.tasks else c.tasks.take n ++ insertRead s.dsCls q (c.tasks.drop n) })

/-- Move the waiting reads on: DS in the Carousel are read and checked, DS on tape are asked for, records are queued and decided reads
complete. -/
def State.readWork : Nat → State → State
  | 0, s => s.dropUnwanted
  | n + 1, s =>
    match s.neededDs.find? (fun q => s.carouselHas q) with
    | some q => State.readWork n (s.carouselAuth q)
    | none =>
      let t := (s.neededDs.filter (fun q => !s.carouselHas q && !s.ctl.tasks.contains (.read q))).foldl State.wantTape s
      (t.gatherRecs.settleReads).dropUnwanted

/-- Enough rounds for every image. -/
def State.readAll (s : State) : State := s.readWork (s.sp.images.length + 1)

end Sys2Proof.Machine
end

