-- ==== Sys2Proof/Machine/IndexOps.lean ====
section
/-! DEFINITION. Index generations: their content (R95), the index DS and their tables (R37, R67, R68), which generation is complete and
which is used (R69, R263), and what a generation read from a cartridge puts in force (R218, R264). -/

namespace Sys2Proof.Machine

/-! ### Building a generation (R68, R95) -/

/-- A take table entry. -/
def takeEntry (t : Nat) (v : Take) : Bytes :=
  beBytes 4 t ++ beBytes 2 v.keyId ++ beBytes 2 ((if v.closed then 1 else 0) + (if v.erased then 2 else 0)) ++ beBytes 4 v.firstZone
    ++ beBytes 4 v.zones ++ beBytes 8 v.start ++ beBytes 4 (v.firstDs.getD 0) ++ beBytes 4 (v.lastDs.getD 0)

/-- A zone table entry. -/
def zoneEntry (z : Nat) (v : Zone) : Bytes :=
  beBytes 4 z ++ beBytes 4 v.take ++ beBytes 4 v.written ++ beBytes 1 v.st.code ++ zeroBytes 3

/-- A location table entry. -/
def Loc.entry (l : Loc) : Bytes :=
  beBytes 4 l.seq ++ beBytes 2 l.count ++ beBytes 1 l.wrap ++ beBytes 1 l.kind ++ beBytes 4 l.pos ++ beBytes 4 l.group

/-- The retired-channel map: bit c, most significant bit of byte 0 first (R95). -/
def retiredMap (cs : List Nat) : Bytes :=
  (List.range 64).map (fun i => BitVec.ofNat 8 ((List.range 8).foldl (fun a j => if cs.contains (8 * i + j) then a + 2 ^ (7 - j) else a) 0))

/-- Channels of a retired-channel map. -/
def mapRetired (b : Bytes) : List Nat :=
  (List.range 512).filter (fun c => Nat.testBit ((b.getD (c / 8) 0).toNat) (7 - c % 8))

/-- Insert a location by the group and the kind, data runs first, in sequence order. -/
def locInsert (l : Loc) : List Loc → List Loc
  | [] => [l]
  | x :: xs => if (l.group, l.kind, l.seq) = (x.group, x.kind, x.seq) || l.group < x.group || (l.group = x.group && (l.kind < x.kind || (l.kind = x.kind && l.seq < x.seq)))
    then l :: x :: xs else x :: locInsert l xs

/-- The index content of generation `gen` (R95); the tables follow the header in the order of its offsets. -/
def State.indexContent (s : State) (gen : Nat) : Bytes :=
  let takes := s.sp.takes.flatMap (fun e => takeEntry e.1 e.2)
  let zs := s.sp.zones.filter (fun e => e.2.st != .empty)
  let zones := zs.flatMap (fun e => zoneEntry e.1 e.2)
  let locs := (s.sp.locs.foldr locInsert []).flatMap Loc.entry
  let key := s.keyBlock false
  let esc := if allZero s.krec.escrow then [] else s.keyBlock true
  let o1 := 0x100
  let o2 := o1 + takes.length
  let o3 := o2 + zones.length
  let o4 := o3 + locs.length
  let o5 := o4 + key.length
  let head := beBytes 4 0x53524958 ++ beBytes 2 1 ++ beBytes 2 0 ++ beBytes 8 s.sp.cartridge ++ beBytes 4 gen ++ beBytes 2 s.sp.initCount
    ++ beBytes 2 0 ++ beBytes 8 (o5 + esc.length) ++ beBytes 8 (s.filledStream) ++ beBytes 4 s.sp.nextSeq ++ beBytes 1 s.sp.wrap ++ beBytes 3 0
    ++ beBytes 4 s.sp.pos ++ beBytes 4 s.sp.takes.length ++ beBytes 4 zs.length ++ beBytes 4 s.sp.locs.length ++ beBytes 8 o1 ++ beBytes 8 o2
    ++ beBytes 8 o3 ++ beBytes 8 o4 ++ beBytes 8 (if esc.isEmpty then 0 else o5) ++ beBytes 4 key.length ++ beBytes 4 esc.length
    ++ beBytes 8 s.stamp ++ retiredMap s.sp.retired ++ zeroBytes 68
  withCrcBE head ++ takes ++ zones ++ locs ++ key ++ esc

/-- An index or data DS with its tag filled in: payload, then the table `mk` makes around a tag. -/
def tagged (key iv payload : Bytes) (mk : Bytes → Bytes) : Bytes := payload ++ mk (gmac key iv (gmacMessage (payload ++ mk (zeroBytes 16))))

/-- Index DS `num` to `count - 1` of a generation over what is left of its content; none when an IV cannot be issued. -/
def State.indexDs (s : State) (gen count macId : Nat) (key : Bytes) : Nat → Nat → Bytes → Option (List Bytes × State)
  | 0, _, _ => some ([], s)
  | n + 1, num, b =>
    match s.takeIv with
    | none => none
    | some (iv, t) =>
      let d := tagged key iv (fitBytes dsPayload (b.take dsPayload)) (fun tag =>
        indexTable gen num count s.sp.cartridge (min dsPayload b.length) iv macId tag s.stamp s.sp.initCount)
      (State.indexDs t gen count macId key n (num + 1) (b.drop dsPayload)).map (fun r => (d :: r.1, r.2))

/-- The cartridge has a MAC key of this magazine, made now when there is none yet; none while the TRNG fails, or with 12 keys held (R261,
R281). -/
def State.needMac (s : State) : Option State :=
  if s.keys.macCur.isSome then some s
  else if !s.keys.trngOk || 12 ≤ s.keys.macs.length then none
  else
    let t := s.newMacKey
    let id := t.keys.macCur.getD 0
    some (t.indexCommit [.mac id (NMap.find? t.keys.macs id) true])

/-- Number and index wrap of the next generation (R68): its number is one more than that of the last generation made for the cartridge, abandoned
ones and those from before an initialisation among them (DESIGN CHOICE, log 39: no two generations of a cartridge share a number); its wrap is the
one that does not hold the newest complete generation, wrap 0 where there is none. -/
def State.nextGen (s : State) : Nat × Nat :=
  (max ((s.sp.newest.map Prod.fst).getD 0) ((s.sp.lastGen.map Prod.fst).getD 0) + 1, match s.sp.newest with | some (_, w) => 1 - w | none => 0)

/-- No copy of an index DS counts as recorded before: the next copies of index DS are first copies (R46, R61). -/
def State.forgetIndexCopies (s : State) : State := s.modSp (fun p => { p with copied := p.copied.filter (fun c => c.kind != .index) })

/-- The record of the index journal that says which generation is newest, which was made last and whether one is due (R68, R92, R93). -/
def State.genRec (s : State) : JRec := .gen s.sp.newest s.sp.lastGen s.sp.genDue s.sp.sinceGen

/-- Make the index DS of the generation that is due; none while a key or an IV is missing. -/
def State.buildGen (s : State) : Option State :=
  s.needMac.bind (fun t =>
    let id := t.keys.macCur.getD 0
    match t.slotKey (259 + id) with
    | none => none
    | some key =>
      let g := t.nextGen
      let content := t.indexContent g.1
      let k := (content.length + dsPayload - 1) / dsPayload
      (t.indexDs g.1 k id key k 0 content).map (fun r =>
        let u := (r.2.forgetIndexCopies).modSp (fun p =>
          { p with gen := some { num := g.1, wrap := g.2, ds := r.1, at_ := 0, pos := 0 }, lastGen := some (g.1, g.2) })
        u.indexCommit [u.genRec]))

/-- Abandon the generation being recorded: it stays due for the same wrap (R93, R94); the entry names the index wrap and the index DS number. -/
def State.abandonGen (s : State) : State :=
  match s.sp.gen with
  | none => s
  | some g =>
    (s.forgetIndexCopies.modSp (fun p =>
      { p with gen := none, genDue := true, abandoned := true, skip := 0, started := p.started.filter (fun x => x.copy.kind != .index) })).journalOpen
      (leBytes 1 g.wrap ++ leBytes 2 g.at_)

/-- Index content of a generation. -/
def genContent (ds : List Bytes) : Bytes := ds.flatMap (fun d => d.take dsPayload)

/-- The generation is complete: it is the newest, nothing is due; its DS are those the index wrap now holds, and its retired-channel map is the one
that rows are erased by (R69, R93, R153). -/
def State.completeGen (s : State) : State :=
  match s.sp.gen with
  | none => s
  | some g =>
    let t := s.modSp (fun p =>
      { p with gen := none, genDue := false, abandoned := false, sinceGen := 0, newest := some (g.num, g.wrap), noIndex := false
               indexRetired := some (mapRetired (slice (genContent g.ds) 0x78 64)) })
    let u := t.modRc (fun r =>
      { r with idx := g.ds.zipIdx.foldl (fun (m : NMap (List Bytes)) (e : Bytes × Nat) => NMap.put m (4096 * g.wrap + e.2) [e.1])
                        (r.idx.filter (fun e => e.1 / 4096 != g.wrap)) })
    u.indexCommit [u.genRec]

/-! ### Generations found on the cartridge (R69) -/

/-- Generation number, index DS number and count of an index DS, from its table. -/
def idxNums (info : Bytes) : Nat × Nat × Nat :=
  let t := info.drop dsPayload
  (beAt t 0x54 4, beAt t 0x58 2, beAt t 0x5A 2)

/-- Complete decodes of index DS `i` kept for a wrap. -/
def State.idxOf (s : State) (w i : Nat) : List Bytes := NMap.get [] s.rc.idx (4096 * w + i)

/-- Generations of which a complete DS is kept for a wrap: number and count. -/
def State.gensOn (s : State) (w : Nat) : List (Nat × Nat) :=
  ((s.rc.idx.filter (fun e => e.1 / 4096 = w)).flatMap (fun e => e.2.map (fun d => ((idxNums d).1, (idxNums d).2.2)))).eraseDups

/-- The one with the highest number. -/
def newestOf (gs : List (Nat × Nat)) : Option (Nat × Nat) :=
  gs.foldl (fun (m : Option (Nat × Nat)) g => match m with | some x => if x.1 < g.1 then some g else m | none => some g) none

/-- Decodes kept of DS `i` of a generation. -/
def State.idxCands (s : State) (w : Nat) (g : Nat × Nat) (i : Nat) : List Bytes := (s.idxOf w i).filter (fun d => idxNums d = (g.1, i, g.2))

/-- Index DS of a generation of which no complete decode is kept. -/
def State.idxMissing (s : State) (w : Nat) (g : Nat × Nat) : List Nat := (List.range g.2).filter (fun i => (s.idxCands w g i).isEmpty)

/-- Every choice of one decode for each DS: decodes of the copies of one DS differ only where a column was corrected wrongly. -/
def choices : List (List Bytes) → List (List Bytes)
  | [] => [[]]
  | c :: cs => c.flatMap (fun d => (choices cs).map (fun l => d :: l))

/-- The newest generation of which every DS has a complete decode on a wrap: its number, and the choices of its DS in order. -/
def State.genOn (s : State) (w : Nat) : Option (Nat × List (List Bytes)) :=
  (newestOf ((s.gensOn w).filter (fun g => (s.idxMissing w g).isEmpty))).map (fun g => (g.1, choices ((List.range g.2).map (s.idxCands w g))))

/-- Generations found whole, newest first, each with its wrap and the choices of its DS. -/
def State.gensFound (s : State) : List (Nat × Nat × List (List Bytes)) :=
  let l := [0, 1].filterMap (fun w => (s.genOn w).map (fun g => (g.1, w, g.2)))
  match l with
  | [a, b] => if a.1 < b.1 then [b, a] else [a, b]
  | _ => l

/-- The content's header is one that R95 allows. -/
def indexHeadOk (c : Bytes) : Bool := beAt c 0 4 = 0x53524958 && beAt c 4 2 = 1 && beAt c 0xFC 4 = crc32c (c.take 0xFC)

/-- Key block of the content. -/
def contentKeyBlock (c : Bytes) : Bytes := slice c (beAt c 0x58 8) (beAt c 0x68 4)

/-- Escrow block of the content, empty when it carries none. -/
def contentEscrow (c : Bytes) : Bytes := slice c (beAt c 0x60 8) (beAt c 0x6C 4)

/-- An index DS of the content `c` passes the checks of R160 with the MAC keys of its key block (R263). -/
def genTagOk (c : Bytes) (macs : List (Nat × Nat × Bytes)) (d : Bytes) : Bool :=
  let t := d.drop dsPayload
  beAt t 0 4 = 0x53524631 && beAt t 4 1 = 0x12 && beAt t 0x10 8 = beAt c 0x08 8 && beAt t 0x50 2 = beAt c 0x14 2
    && (match macs.find? (fun m => m.1 = beAt t 0x34 2) with
        | some m => tagOk m.2.2 d
        | none => false)

/-- Every index DS of a generation does. -/
def genTagsOk (ds : List Bytes) (macs : List (Nat × Nat × Bytes)) : Bool := ds.all (genTagOk (genContent ds) macs)

/-- What a generation says of the cartridge. -/
inductive GenUse where
  /-- Usable with these keys, unwrapped under the key given. -/
  | own
  /-- Foreign: the instance its key block names (R264). -/
  | foreign (inst : Nat)
  /-- Passed over: a tag or the header fails (R170). -/
  | bad
  deriving DecidableEq, Repr

/-- Judge a generation under the master key (R263, R264). -/
def State.genUse (s : State) (ds : List Bytes) : GenUse :=
  let c := genContent ds
  let kb := contentKeyBlock c
  if !indexHeadOk c then .bad
  else if beAt kb 0xC 4 != s.instNo || beAt kb 0x10 4 != s.krec.gen then .foreign (beAt kb 0xC 4)
  else
    match blockMacs s.masterKey kb, blockMedias s.masterKey kb with
    | some macs, some _ => if genTagsOk ds macs then .own else .bad
    | _, _ => .foreign (beAt kb 0xC 4)

/-- The key block names this magazine and its master key, and an entry of it fails its unwrap all the same (R258, R264). -/
def State.keyBlockFails (s : State) (c : Bytes) : Bool :=
  let kb := contentKeyBlock c
  beAt kb 0xC 4 = s.instNo && beAt kb 0x10 4 = s.krec.gen && ((blockMacs s.masterKey kb).isNone || (blockMedias s.masterKey kb).isNone)

/-- The choice of a generation's DS to use: one whose tags all verify, else one whose key block makes the cartridge foreign. -/
def State.genPick (s : State) (cs : List (List Bytes)) : Option (List Bytes) :=
  match cs.find? (fun ds => s.genUse ds = .own) with
  | some ds => some ds
  | none => cs.find? (fun ds => s.genUse ds != .bad)

/-- Index DS of the newest whole generation on a wrap that fail their check in every choice, the header's DS where the header itself is none of R95:
they have been miscorrected (R160). -/
def State.genTagFails (s : State) (w : Nat) : List Nat :=
  match s.genOn w with
  | none => []
  | some (_, cs) =>
    if (s.genPick cs).isSome then []
    else
      match cs with
      | [] => []
      | ds :: _ =>
        let c := genContent ds
        if !indexHeadOk c then [0]
        else
          match blockMacs s.masterKey (contentKeyBlock c) with
          | some macs => (List.range ds.length).filter (fun i => cs.all (fun x => !genTagOk c macs (x.getD i [])))
          | none => []

/-- Table of `n` entries of `size` bytes at an offset. -/
def tableAt (c : Bytes) (o n size : Nat) : List Bytes := (List.range n).map (fun i => slice c (o + size * i) size)

/-- Zone state of its code (R334). -/
def zstateOf (code : Nat) : ZState :=
  match code with
  | 0x2 => .implicit | 0x3 => .explicit | 0x4 => .closed | 0xD => .readOnly | 0xE => .full | 0xF => .offline | _ => .empty

/-- Read the take table. -/
def takesOf (c : Bytes) : NMap Take :=
  (tableAt c (beAt c 0x40 8) (beAt c 0x34 4) 0x20).foldl (fun (m : NMap Take) (b : Bytes) =>
    NMap.put m (beAt b 0 4)
      { keyId := beAt b 4 2, closed := beAt b 6 2 % 2 = 1, erased := beAt b 6 2 / 2 % 2 = 1, firstZone := beAt b 8 4, zones := beAt b 12 4,
        start := beAt b 16 8, firstDs := some (beAt b 24 4), lastDs := some (beAt b 28 4), firstCut := true }) []

/-- Read the zone table: the write pointer of a zone that is Full or Offline stands at its end. -/
def zonesOf (c : Bytes) : NMap Zone :=
  (tableAt c (beAt c 0x48 8) (beAt c 0x38 4) 0x10).foldl (fun (m : NMap Zone) (b : Bytes) =>
    let st := zstateOf (beAt b 12 1)
    let st' := if st.isOpen then .closed else st
    NMap.put m (beAt b 0 4)
      { st := st', wp := if st = .full then 65536 else beAt b 8 4, take := beAt b 4 4, ctx := none, written := beAt b 8 4, byTakeMark := false,
        lastWrite := 0 }) []

/-- Read the location table. -/
def locsOf (c : Bytes) : List Loc :=
  (tableAt c (beAt c 0x50 8) (beAt c 0x3C 4) 0x10).map (fun b =>
    { seq := beAt b 0 4, count := beAt b 4 2, wrap := beAt b 6 1, kind := beAt b 7 1, pos := beAt b 8 4, group := beAt b 12 4 })

/-- MAC keys and media keys of a block as the journal holds them: the clear head's number and the wrap. -/
def State.keysOf (s : State) (macs medias : List (Nat × Nat × Bytes)) : NMap MacKey × NMap MediaKey :=
  (macs.foldl (fun (m : NMap MacKey) e => NMap.put m e.1 { inst := e.2.1, wrapped := kwWrap s.masterKey (macHead e.1 e.2.1 ++ e.2.2) }) [],
   medias.foldl (fun (m : NMap MediaKey) e => NMap.put m e.1 { take := e.2.1, wrapped := kwWrap s.masterKey (mediaHead e.1 e.2.1 ++ e.2.2) }) [])

/-- Everything of the take namespace goes: the state of a cartridge nothing is known of; the number of its last generation stays. Staged data of the cartridge that was there before
goes with it (DESIGN CHOICE, log 39). -/
def State.clearTake (s : State) : State :=
  (((s.modSp (fun p =>
    { p with
      zones := [], nz := 404900, takes := [], lastTake := 0, current := none, wbuf := [], ctxs := [], recs := [], stream := 0
      cur := OpenDs.start 0, filled := [], nextSeq := 0, images := [], started := [], groupFirst := none, groupCount := 0, groups := []
      verified := [], ready := [], locs := [], wrap := 0, pos := 0, wrapUsed := false, recGroup := none, resume := false, wrapEnd := false, carry := false
      fails := [], carried := false, skip := 0, copied := [], suspended := false, full := false, sinceGen := 0, genDue := false
      newest := none, gen := none, abandoned := false, lastCommit := none, tailScan := false, indexRetired := none, uncommitted := [] })).modFifo
        66 (fun f => { f with lp := f.lp + f.words.length + f.held.length, words := [], held := [], m := 0, p := 0, headRead := 0 })).modRc (fun r =>
          { r with dec := [], decM := [], ladders := [], auth := [], classes := [], recs := [], plain := [], failed := [], origin := [], dirs := [], top := 0, took := [] })).modKeys
            (fun k => { k with macs := [], macCur := none, medias := [], mediaNext := 0,
                               slots := k.slots.filter (fun e => keptSlot e.1) })

/-- Put a generation's content in force, its keys unwrapped (R95, R218). -/
def State.useGen (s : State) (num w : Nat) (c : Bytes) (macs medias : List (Nat × Nat × Bytes)) : State :=
  let t := s.clearTake
  let ks := t.keysOf macs medias
  let takes := takesOf c
  let u := (t.modSp (fun p =>
    { p with
      zones := zonesOf c, takes, lastTake := takes.foldl (fun m e => max m e.1) 0, stream := beAt c 0x20 8, nextSeq := beAt c 0x28 4
      wrap := beAt c 0x2C 1, pos := beAt c 0x30 4, wrapUsed := beAt c 0x30 4 != 0, resume := true, locs := locsOf c, newest := some (num, w)
      lastGen := some (num, w)
      noIndex := false, foreign := none, cartridge := beAt c 0x08 8, initCount := beAt c 0x14 2, indexRetired := some (mapRetired (slice c 0x78 64))
      nz := max 404900 p.nz })).modKeys (fun k =>
        { k with macs := ks.1, medias := ks.2, mediaNext := ks.2.foldl (fun m e => max m e.1) 0
                 macCur := (ks.1.filter (fun e => e.2.inst = s.instNo)).getLast?.map Prod.fst })
  u.loadMacSlots

/-- A cartridge without an index: it is initialised, its identifier a free value (log 2), its initialisation count 1 (R37, R38). -/
def State.blankCartridge (s : State) : State :=
  ((s.clearTake).modSp (fun p => { p with cartridge := s.free 3 % 2 ^ 64, initCount := 1, noIndex := true, foreign := none, lastGen := none })).drawn 1

/-- The wrap-passes and per-wrap counts of the cartridge restart (R450). -/
def State.resetPasses (s : State) : State := (s.modEv (fun v => { v with travel := [] })).modSp (fun p => { p with perWrap := [] })

/-- Journal a cartridge whose index has been put in force: it is the live index from now on (R92, R442). -/
def State.journalCartridge (s : State) : State :=
  s.indexCommit ([.wipe] ++ s.sp.takes.map (fun (e : Nat × Take) => JRec.take e.1 e.2)
    ++ s.sp.zones.map (fun (e : Nat × Zone) => JRec.zone e.1 (some e.2))
    ++ s.sp.zones.map (fun (e : Nat × Zone) => JRec.floor e.1 e.2.written) ++ s.sp.locs.map JRec.loc
    ++ s.keys.macs.map (fun (e : Nat × MacKey) => JRec.mac e.1 (some e.2) (s.keys.macCur = some e.1))
    ++ s.keys.medias.map (fun (e : Nat × MediaKey) => JRec.media e.1 (some e.2)) ++ [.append s.sp.wrap s.sp.pos, s.counterRec, s.genRec])

/-- A generation found on the cartridge is the last one made for it, when it is newer than the one known of. -/
def State.noteGen (s : State) (num w : Nat) : State :=
  s.modSp (fun p => { p with lastGen := match p.lastGen with | some (n, v) => if n < num then some (num, w) else some (n, v) | none => some (num, w) })

/-- The end of the index read of a service load (R218, R69, R263, R264, R450): the newest complete generation whose tags verify is used and becomes
the live index; one that is passed over is journalled (R170); a foreign one is reported, with the cartridge identifier and the initialisation count
of its DS information tables, none of its index content being used (R263). A cartridge that has not changed keeps its live journal (R92). -/
def State.indexLoaded : List (Nat × Nat × List (List Bytes)) → State → State
  | [], s => (s.blankCartridge.resetPasses).journalCartridge
  | (num, w, cs) :: rest, s =>
    match s.genPick cs with
    | none => (State.indexLoaded rest (s.journalOpen (leBytes 1 w ++ leBytes 4 num))).noteGen num w
    | some ds =>
      let c := genContent ds
      let info := (ds.headD []).drop dsPayload
      match s.genUse ds with
      | .own =>
        if beAt c 0x08 8 = s.sp.cartridge && beAt c 0x14 2 = s.sp.initCount && !s.sp.noIndex && s.sp.foreign.isNone then
          (s.modSp (fun p => { p with indexRetired := some (mapRetired (slice c 0x78 64)) })).noteGen num w
        else
          let t := if beAt c 0x08 8 = s.sp.cartridge then s else s.resetPasses
          let kb := contentKeyBlock c
          (t.useGen num w c ((blockMacs t.masterKey kb).getD []) ((blockMedias t.masterKey kb).getD [])).journalCartridge
      | _ =>
        let s0 := if s.keyBlockFails c then s.raise 0x7C3 2 [] else s
        let t := if beAt info 0x10 8 = s.sp.cartridge then s0 else s0.resetPasses
        let u := ((t.clearTake).modSp (fun p =>
          { p with foreign := some (beAt (contentKeyBlock c) 0xC 4), newest := some (num, w), lastGen := some (num, w), noIndex := false,
                   cartridge := beAt info 0x10 8, initCount := beAt info 0x50 2 })).raise 0x7C6 1 []
        u.asyncEvent 7 2 0xC4

end Sys2Proof.Machine
end

