-- ==== Sys2Proof/Machine/Records.lean ====
section
/-! DEFINITION. Sealed records of the configuration NOR (R427, R432, R433, R437): trailer and seal, header, entries, the calibration record
and the health record. -/

namespace Sys2Proof.Machine

/-! ### Trailer and seal (R427) -/

/-- A record with its trailer: CRC, zeros, and the AES-CMAC under K_wrap of the prefix and every byte before it. -/
def sealRecord (pre : String) (body : Bytes) : Bytes :=
  let b := body ++ leBytes 4 (crc32c body) ++ zeroBytes 12
  b ++ cmac kWrap (ascii pre ++ b)

/-- CRC and seal of a record copy match. -/
def sealOk (pre : String) (b : Bytes) : Bool :=
  let n := b.length - 32
  decide (32 ≤ b.length) && leAt b n 4 = crc32c (b.take n) && cmac kWrap (ascii pre ++ b.take (n + 16)) = b.drop (n + 16)

/-- Both copies of a NOR area. -/
def State.copies (s : State) (area : Nat) : Copies := NMap.get { c0 := none, c1 := none, newer := none } s.nor.areas area

/-- Both copies after a write of `data` with these results; a failed write leaves its copy as it was (log 43). -/
def Copies.written (c : Copies) (data : Bytes) (ok0 ok1 : Bool) : Copies :=
  { c0 := if ok0 then some data else c.c0, c1 := if ok1 then some data else c.c1
    newer := if ok0 && ok1 then none else if ok0 then some 0 else if ok1 then some 1 else c.newer }

/-- Put the result of a write of both copies of an area in force. -/
def State.putCopies (s : State) (area : Nat) (data : Bytes) (ok0 ok1 : Bool) : State :=
  s.modNor (fun n => { n with areas := NMap.put n.areas area ((NMap.get { c0 := none, c1 := none, newer := none } n.areas area).written data ok0 ok1) })

/-- The copy in force of two: valid, with the higher record sequence, copy 0 of two alike (R427). `seq` reads the sequence. -/
def newestCopy (valid : Bytes → Bool) (seq : Bytes → Nat) (c : Copies) : Option (Nat × Bytes) :=
  match c.c0.filter valid, c.c1.filter valid with
  | some a, some b => if seq a < seq b then some (1, b) else some (0, a)
  | some a, none => some (0, a)
  | none, some b => some (1, b)
  | none, none => none

/-! ### Entries (R433) -/

/-- An entry: PID, first index, values. -/
structure RecEntry where
  /-- PID. -/
  pid : Nat
  /-- First index. -/
  first : Nat
  /-- Element values. -/
  vals : List Nat
  deriving DecidableEq, Repr

/-- Width of the values of a parameter in an entry. -/
def entryWidth (pid : Nat) : Nat := match pdesc? pid with | some d => d.width | none => 4

/-- Bytes of an entry, padded to a multiple of 8. -/
def RecEntry.bytes (e : RecEntry) : Bytes :=
  let w := entryWidth e.pid
  let b := leBytes 2 e.pid ++ leBytes 2 0 ++ leBytes 4 e.first ++ leBytes 4 e.vals.length ++ leBytes 1 w ++ leBytes 3 0 ++ e.vals.flatMap (leBytes w)
  b ++ zeroBytes ((8 - b.length % 8) % 8)

/-- Read `n` entries from a byte string. -/
def readEntries : Nat → Bytes → List RecEntry
  | 0, _ => []
  | n + 1, b =>
    let k := leAt b 8 4
    let w := leAt b 12 1
    let len := 16 + k * w
    { pid := leAt b 0 2, first := leAt b 4 4, vals := (List.range k).map (fun i => leAt b (16 + w * i) w) } :: readEntries n (b.drop ((len + 7) / 8 * 8))

/-! ### Header (R432, R437) -/

/-- The 256 header bytes, given what only a profile carries at 0x10 to 0x27 and at 0x30 to 0x3F. -/
def recHeader (ident len seq : Nat) (own : Bytes) (off count : Nat) (own2 : Bytes) (time inst : Nat) : Bytes :=
  let b := leBytes 4 ident ++ leBytes 2 1 ++ leBytes 2 256 ++ leBytes 4 len ++ leBytes 4 seq ++ fitBytes 24 own ++ leBytes 4 off ++ leBytes 4 count
    ++ fitBytes 16 own2 ++ leBytes 8 time ++ leBytes 4 inst ++ zeroBytes 176
  b ++ leBytes 4 (crc32c b)

/-- Record sequence of a copy. -/
def recSeq (b : Bytes) : Nat := leAt b 0x0C 4

/-- A calibration or health record: header, entries, the device's own bytes after them (log 41), trailer. -/
def State.devRecord (s : State) (ident : Nat) (pre : String) (area : Nat) (es : List RecEntry) (rest : Bytes) : Bytes :=
  let body := es.flatMap RecEntry.bytes
  let seq (b : Option Bytes) : Nat := b.elim 0 recSeq
  let c := s.copies area
  let n := 1 + max (seq c.c0) (seq c.c1)
  let tail := rest ++ zeroBytes ((8 - rest.length % 8) % 8)
  sealRecord pre (recHeader ident (256 + body.length + tail.length + 32) n [] 256 es.length [] s.rtcSec s.instNo ++ body ++ tail)

/-- A copy of such a record is valid: identifier, version, header CRC, length, trailer. -/
def devRecordOk (ident : Nat) (pre : String) (b : Bytes) : Bool :=
  leAt b 0 4 = ident && leAt b 4 2 = 1 && leAt b 0xFC 4 = crc32c (b.take 0xFC) && leAt b 8 4 = b.length && sealOk pre b

/-- Entries of a record. -/
def recEntries (b : Bytes) : List RecEntry := readEntries (leAt b 0x2C 4) (b.drop (leAt b 0x28 4))

/-- Element values of a whole parameter. -/
def State.elems (s : State) (pid count : Nat) : List Nat := (List.range count).map (s.elem pid)

/-- The calibration record (R437): TRC_ZTAB, TRC_FIR_INIT, TRC_TGT_SEL, CTL_FC_TAB, CTL_RADIUS. -/
def State.calRecord (s : State) : Bytes :=
  s.devRecord 0x52434855 "UHCR" 3
    [{ pid := pTRC_ZTAB, first := 0, vals := s.elems pTRC_ZTAB 8192 }, { pid := pTRC_FIR_INIT, first := 0, vals := s.elems pTRC_FIR_INIT 176 },
     { pid := pTRC_TGT_SEL, first := 0, vals := s.elems pTRC_TGT_SEL 16 }, { pid := pCTL_FC_TAB, first := 0, vals := s.elems pCTL_FC_TAB 2048 },
     { pid := pCTL_RADIUS, first := 0, vals := [s.ctl.radius.1, s.ctl.radius.2] }] []

/-! ### The health record (R437, R449 to R453) -/

/-- A map of counters as bytes: count, then key and value of 16 bytes each. -/
def mapBytes (m : NMap Nat) : Bytes := leBytes 8 m.length ++ m.flatMap (fun e => leBytes 8 e.1 ++ leBytes 8 e.2)

/-- Read a map of counters, with the bytes after it. -/
def readMap (b : Bytes) : NMap Nat × Bytes :=
  let n := leAt b 0 8
  ((List.range n).foldl (fun (m : NMap Nat) i => NMap.put m (leAt b (8 + 16 * i) 8) (leAt b (16 + 16 * i) 8)) [], b.drop (8 + 16 * n))

/-- Travel of every wrap, in 1/32,768 µm. -/
def State.travelAll (s : State) : Nat := s.ev.travel.foldl (fun n e => n + e.2) 0

/-- Wrap-passes in thousandths of a travel: 772,856 mm each (R449). -/
def passesOf (travel : Nat) : Nat := min (2 ^ 32 - 1) (1000 * travel / (772856000 * 32768))

/-- Word `i` of the retired-channel map as TFM_RETIRED shows it (R476). -/
def State.retiredWord (s : State) (i : Nat) : Nat := (List.range 64).foldl (fun n j => if s.sp.retired.contains (64 * i + j) then n + 2 ^ j else n) 0

/-- The health record: TFM_RETIRED and the counters kept there; those that have no PID follow the entries in the model's own layout (log 41). -/
def State.healthRecord (s : State) : Bytes :=
  s.devRecord 0x52484855 "UHHR" 4
    [{ pid := pTFM_RETIRED, first := 0, vals := (List.range 8).map s.retiredWord },
     { pid := pTFM_PASSES, first := 0, vals := [passesOf s.travelAll] },
     { pid := pTFM_HEAD_S, first := 0, vals := [s.ev.headTicks / 32768] },
     { pid := pEVT_LOST_LBA, first := 0, vals := [s.ev.lost.1, s.ev.lost.2] },
     { pid := pEVT_LAST_FAULT, first := 0, vals := [s.ev.lastFault.1 + 2 ^ 32 * s.ev.lastFault.2] }]
    (leBytes 8 s.ev.headTicks ++ mapBytes (s.ev.travel.map (fun e => (e.1, e.2 % 2 ^ 64))) ++ mapBytes s.sp.chan ++ mapBytes s.sp.perWrap
      ++ mapBytes s.sp.life)

/-- What a health record puts in force at BOOT. -/
def State.applyHealth (s : State) (b : Bytes) : State :=
  let es := recEntries b
  let val (pid i : Nat) : Nat := (es.find? (fun e => e.pid = pid)).elim 0 (fun e => e.vals.getD i 0)
  let retired := (List.range 512).filter (fun c => Nat.testBit (val pTFM_RETIRED (c / 64)) (c % 64))
  let rest := b.drop (leAt b 0x28 4 + (es.flatMap RecEntry.bytes).length)
  let head := leAt rest 0 8
  let tr := readMap (rest.drop 8)
  let ch := readMap tr.2
  let pw := readMap ch.2
  let li := readMap pw.2
  (s.modSp (fun p => { p with retired, chan := ch.1, perWrap := pw.1, life := li.1 })).modEv (fun v =>
    { v with headTicks := head, headSaved := head, travel := tr.1, lost := (val pEVT_LOST_LBA 0, val pEVT_LOST_LBA 1)
             lastFault := (val pEVT_LAST_FAULT 0 % 2 ^ 32, val pEVT_LAST_FAULT 0 / 2 ^ 32) })

/-- Write the health record (R451). -/
def State.writeHealth (s : State) : State :=
  (s.norWrite 4 s.healthRecord .plain).modEv (fun v => { v with headSaved := v.headTicks })

end Sys2Proof.Machine
end

