-- ==== Sys2Proof/Machine/TapeOps.lean ====
section
/-! DEFINITION. Operations of the tape sequences: where a move goes (R204, R208, R211), holding and releasing tension (R205, R213, R215), the
end of a sequence by a stop (R202, R220), recording starts and wrap advances (R59, R85, R209, R210), drains (R40, R58, R98, R215), index
generations on tape (R93), passes of the tape for reads (R163, R165, R169), and the choice of the next activity (R24, R202). -/

namespace Sys2Proof.Machine

/-! ### Moves -/

/-- Enter a magazine state in a sequence; in SERVICE the state stays (R24 lists no way out of it but C3h, log 40). -/
def State.tapeState (s : State) (m : MagState) : State := if s.mag.st = .service then s else s.enter m

/-- Wrap a target names. -/
def Target.wrap? : Target → Option Nat
  | .position w _ => some w
  | .index w => some w
  | .tpn w _ => w

/-- Engine groups sleep while only the servo lanes are needed: those whose rows have all been taken from their FIFO (R17). -/
def State.sleepGroups (s : State) : State :=
  s.modRc (fun r => { r with awake := r.awake.filter (fun g => !(s.fifo (36 + g)).words.isEmpty || !(s.fifo (36 + g)).held.isEmpty) })

/-- Move towards a target at CTL_VMAX_SHTL (R211); the L4 boundary target will step to its wrap. -/
def State.startMove (s : State) (t : Target) : State :=
  let d : Int := if s.tapeNm ≤ s.aimNm t then 1 else -1
  s.sleepGroups.modCtl (fun c =>
    { c with aim := some t, tsub := if c.tsub = .dwell then .dwell else .moving, shuttle := false, turn := false, dir := d
             target := d * s.pn pCTL_VMAX_SHTL, wrapGoal := t.wrap?.getD c.wrapGoal })

/-- Position is followed by the servo lanes with tension on: it may be confirmed again (R205). -/
def TSub.tracks : TSub → Bool
  | .finding | .held | .moving | .stopping | .dwell => true
  | _ => false

/-- The tape stands with tension on: the limiter is at zero, and position, when it is valid, is confirmed with the encoder counts. A tension-up that
has not come to HELD, and an emergency stop, confirm nothing (R205, R213). Position and radii go to the retention RAM (R182, R205); the
tensioned-idle time is latched (R222). -/
def State.settle (s : State) : State :=
  let again := s.ctl.held.isSome && s.ctl.tsub.tracks
  let held := if again then some (s.rc.pos10, (s.encoder 0).count, (s.encoder 1).count) else s.ctl.held
  (s.modCtl (fun c =>
    { c with
      tsub := .held, target := 0, vlim := 0, alim := 0, aim := none, shuttle := false, fast := false, turn := false, dwell := false, reversing := false
      sweep := none, held, lastTpn := if again then s.rc.pos10 / 80 else c.lastTpn, idleTens := s.pn pCTL_IDLE_TENS
      stillFor := if c.vlim = 0 && c.alim = 0 then c.stillFor else 0 })).modPw
    (fun p => { p with retPos := if again then held else p.retPos, retRadius := if s.ctl.radiusOk then some s.ctl.radius else p.retRadius })

/-- Every slot of a list OFF, but for those in HOLD (R213, R215). -/
def State.slotsOffUnlessHeld (s : State) (ns : List Nat) : State :=
  ns.foldl (fun t n => if (t.slot n).st = .hold then t else t.slotOff n) s

/-- The transport is BRAKED: the brakes are on, L0 to L5 OFF unless in HOLD, the links disabled, and the magazine in its state (R213, R215). -/
def State.toBraked (s : State) (m : MagState) : State :=
  let t := (s.slotsOffUnlessHeld [3, 2, 0, 1, 4, 5]).modCtl (fun c =>
    { c with tsub := .braked, brake := true, supStop := false, after := none, rel := none
             links := c.links.map (fun e => (e.1, { e.2 with on := false, cmd := 0, mode := 0, asked := false })) })
  t.tapeState m

/-- Tension is let go at once: from READY after a supervisor stop or an open lid, after an emergency stop, and when a tension-up fails (R205, R213). -/
def State.release (s : State) (m : MagState) : State := s.settle.toBraked m

/-- Tension off from still (R215): BRK_N is asserted, L3 and L2 go OFF, and the currents of L0 and L1 begin to ramp: RELEASING. The magazine state
follows at BRAKED. -/
def State.letGo (s : State) (m : MagState) : State :=
  (s.settle.slotsOffUnlessHeld [3, 2]).modCtl (fun c =>
    { c with tsub := .releasing, brake := true, after := none, rel := some { goal := m, left := 100, amps := ((s.link 0).cmd, (s.link 1).cmd) } })

/-- Position and radii are no longer held (R213, R218). -/
def State.forgetPosition (s : State) (radii : Bool) : State :=
  (s.modCtl (fun c => { c with held := none, radiusOk := c.radiusOk && !radii, radHist := if radii then [] else c.radHist })).modPw
    (fun p => { p with retPos := none, retRadius := if radii then none else p.retRadius })

/-! ### The head activity -/

/-- Command a task stands for. -/
def Task.cmd? : Task → Option Nat
  | .tensionOn c => c | .tensionOff c => c | .park c _ => c | .locate c _ => c | .shuttle c => c | .calibrate c => c | .unload c => c
  | .load c => c | .tailScan => none | .record => none | .read _ => none

/-- The head activity is over: it leaves, and the next one has not begun. -/
def State.popTask (s : State) : State := s.modCtl (fun c => { c with tasks := c.tasks.drop 1, stage := 0, aim := none, begun := false })

/-- Complete the command of a task. -/
def State.doneTask (s : State) (t : Task) (st : Status) (dw0 : Nat) : State :=
  match t.cmd? with
  | some q => s.complete q st dw0 0 []
  | none => s

/-- The head activity completes. -/
def State.finishTask (s : State) (dw0 : Nat) : State :=
  match s.ctl.tasks with
  | t :: _ => (s.popTask).doneTask t stOk dw0
  | [] => s

/-- A generation being recorded is dropped by the end of its sequence: it stays due, and the next one is made anew. -/
def State.dropGen (s : State) : State :=
  if s.sp.gen.isNone then s
  else
    s.modSp (fun p =>
      { p with gen := none, genDue := true, skip := 0, started := p.started.filter (fun x => x.copy.kind != .index)
               copied := p.copied.filter (fun c => c.kind != .index) })

/-- The sequence in progress is ended (R202, R220): a command whose sequence has begun, if only with its tension-up or find position, completes with
Namespace Not Ready, a recording or a read begins anew when its
need is still there; an abandoned read pass is not counted (R166). -/
def State.endSequence (s : State) : State :=
  let t := (s.dropGen.modSp (fun p => { p with draining := false, closing := false, closeAt := none, closeGrp := none })).modRc (fun r =>
    { r with pass := none, ladders := r.ladders.map (fun e => (e.1, { e.2 with inPass := false })) })
  match t.ctl.tasks with
  | [] => t.modCtl (fun c => { c with stage := 0, aim := none })
  | .record :: _ => t.modCtl (fun c => { c with stage := 0, aim := none })
  | .read _ :: _ => t.modCtl (fun c => { c with stage := 0, aim := none })
  | k :: _ => if t.ctl.stage = 0 && !t.ctl.begun then t else (t.popTask).doneTask k stNotReady 0

/-- Reads that wait for tape complete with Namespace Not Ready: their sub-sequence failed (R166, R220; log 42). -/
def State.dropTapeReads (s : State) : State := (s.refuseReads (fun a n => (lbaList a n).any s.tapeOnly)).dropUnwanted

/-- The head activity's sub-sequence failed (R220): a command completes with Namespace Not Ready, whether or not more than its tension-up has
begun; a recording begins anew; the waiting tape reads are refused. -/
def State.failHead (s : State) : State :=
  match s.ctl.tasks with
  | [] => s.endSequence
  | .record :: _ => s.endSequence
  | .read _ :: _ => s.endSequence.dropTapeReads
  | _ :: _ => (s.modCtl (fun c => { c with stage := max 1 c.stage })).endSequence

/-! ### Recording: wraps, starts, drains -/

/-- The append wrap advances (R59, R85, R210): position 0 of the next wrap; a group to be carried over, or with copies whose results are outstanding, is
sent again whole, with M and P back at L; after wrap 47 the cartridge is full. -/
def State.nextWrap (s : State) : State :=
  let carried := s.sp.carry || !s.sp.started.isEmpty
  let t := if carried then s.retain .rewindRelease else s
  let full := decide (47 ≤ s.sp.wrap)
  let u := t.modSp (fun p =>
    { p with wrap := if full then p.wrap else p.wrap + 1, pos := if full then p.pos else 0, wrapUsed := false, resume := false, wrapEnd := false
             recGroup := none, carry := false, carried, fails := [], skip := 0, full := p.full || full, started := []
             verified := if carried then [] else p.verified
             life := if carried then NMap.bump p.life 4 1 else p.life, sinceBoot := if carried then NMap.bump p.sinceBoot 2 1 else p.sinceBoot
             perWrap := if carried then NMap.bumpSat 65535 p.perWrap (8 * p.wrap + 6) 1 else p.perWrap })
  if full then (if s.sp.full then u else u.asyncEvent 7 1 0xC4) else u.indexCommit [.append u.sp.wrap 0]

/-- A suspension ends: recording resumes on the wrap after the one that failed, or the cartridge is full (R89, R219). -/
def State.endSuspension (s : State) : State :=
  if s.sp.suspended then (s.modSp (fun p => { p with suspended := false, carry := true })).nextWrap else s

/-- The group of a copy. -/
def State.groupOfCopy (s : State) (c : Copy) : Option Nat :=
  match c.kind with
  | .data => (NMap.find? s.sp.images c.seq).bind (fun v => v.group)
  | .index => none
  | _ => some c.seq

/-- Recording of the group has begun on the append wrap: it is the newest one begun, or an older one. -/
def State.begunGroup (s : State) (g : Option Nat) : Bool :=
  match g, s.sp.recGroup with
  | some f, some r => decide (f ≤ r)
  | _, _ => false

/-- The next copy starts a group for which too few positions remain (R58). -/
def State.noRoom (s : State) : Bool :=
  decide (wrapPositions < s.sp.pos + 32)
    && !s.begunGroup (match s.queued.head? with | some c => s.groupOfCopy c | none => s.sp.groupFirst)

/-- Data waits for tape in a context that records it, and nothing stands in its way (R22, R24, R59, R89, R218). -/
def State.recordNeed (s : State) : Bool :=
  s.mag.ctx.records && !s.queueEmpty && !s.sp.suspended && !s.sp.full && !s.mag.unloaded && s.mag.restart = 0

/-- Begin a recording from still or from another motion (R208, R209): the approach point of the next position, after the tail scan when one
is pending (R443). -/
def State.startRecord (s : State) : State :=
  let s0 := if s.sp.tailScan then s else if s.sp.wrapEnd || s.noRoom then s.nextWrap else s
  let s1 := if s0.sp.tailScan then s0.tapeState .locating
    else if s0.mag.st = .tensioned then s0.enter .spooling
    else if s0.mag.st = .spooling || s0.mag.st = .crawl then s0 else s0.tapeState .locating
  if s1.sp.full then s1
  else (s1.startMove (.position s1.sp.wrap s1.sp.pos)).modSp (fun p => { p with vreq := 500, crawl := none })

/-- A closed record has not entered the payload stream yet. -/
def State.pathBusy (s : State) : Bool := s.sp.recs.any (fun r => r.closed.isSome)

/-- A covered write has not persisted. -/
def unsettled (upto : Nat) (skip : List Nat) (app : Nat) : Bool := decide (app ≤ upto) && !skip.contains app

/-- A pending Spool Commit or FUA write covers the write application of number `a` on an LBA not yet spool-committed (R96, R97). -/
def State.commitCovers (s : State) (a : Nat) : Bool :=
  s.nv.writes.any (fun w => w.fua && w.nsid = 1 && w.moved && w.app = a)
    || s.nv.held.any (fun h => match h.wait with | .spoolCommit u k => unsettled u k a | _ => false)

/-- A closed record with data that the pending commits cover has not entered the payload stream yet (R98 step 1). -/
def State.coveredBusy (s : State) : Bool :=
  s.sp.recs.any (fun r => r.closed.isSome
    && s.sp.uncommitted.any (fun e => decide (r.start ≤ e.1) && decide (e.1 < r.start + r.count) && s.commitCovers e.2))

/-- The next steps of a commit close (R98): once the covered records are in the payload stream, the open DS is filled and closed; once the last DS closed
so has been assembled, the open group closes short. `closeAt` is the number of the first DS behind them. -/
def State.closeStep (s : State) : State :=
  let t :=
    if s.sp.closeAt.isSome || s.coveredBusy then s
    else
      let u := if s.sp.cur.payload.isEmpty then s else s.fillDs
      u.modSp (fun p => { p with closeAt := some (p.nextSeq + p.filled.length) })
  match t.sp.closeAt with
  | some q => if q ≤ t.sp.nextSeq && t.sp.closeGrp.isNone then t.closeGroup.modSp (fun p => { p with closeGrp := some q }) else t
  | none => t

/-- Close what a drain or a commit close has to close (R40, R58, R98). In a drain, once no closed record is on its way to the payload stream, the open
DS is filled, and once it has been assembled the open group closes short. -/
def State.drainStep (s : State) : State :=
  if s.sp.closing then s.closeStep
  else if !s.sp.draining || s.pathBusy then s
  else
    let t := if s.sp.cur.payload.isEmpty then s else s.fillDs
    if t.sp.filled.isEmpty then t.closeGroup else t

/-- Nothing is left to drain. -/
def State.drained (s : State) : Bool :=
  s.queueEmpty && s.sp.filled.isEmpty && s.sp.cur.payload.isEmpty && !s.pathBusy && s.sp.groupFirst.isNone

/-- A park drains the spool queue: in camera and dock contexts, and only where tape can be written (R22, R89, R215). -/
def State.canDrain (s : State) : Bool := s.mag.ctx.records && !s.sp.suspended && !s.sp.full

/-! ### Park (R215, R216, R218) -/

/-- Position a park or an unload goes to. -/
def State.parkTpn (s : State) (unload : Bool) : Nat :=
  if unload || decide ((s.tapeNm - 256000000).natAbs ≤ (772600000000 - s.tapeNm).natAbs) then 32 else 96575

/-- The park has reached its place and tension is released: calibration updates and radii go to the NOR, the health record is written, the
capacity is evaluated (R215, R451, R340). -/
def State.parkWrites (s : State) : State :=
  let t := (s.norWrite 3 s.calRecord .plain).modRc (fun r => { r with calDirty := false })
  t.writeHealth.growZones true

/-- A NOR write of the park has verified in no copy (R216). -/
def State.parkUnwritten (s : State) : Bool := s.nor.failed.any (fun a => a = 3 || a = 4)

/-- What eject-prepare waits for besides: every NOR write of the park verified, and the map journal sealed in the Carousel (R216, R300). -/
def State.ejectReady (s : State) : Bool := s.nor.ops.isEmpty && !s.parkUnwritten && !s.nor.dead && s.car.journal.isEmpty && s.car.sealed

/-- Seal the map journal once every earlier commit has been issued (R216, R300). -/
def State.sealJournal (s : State) : State :=
  if s.car.sealed then s
  else (s.mapCommit [.sealRec s.car.age s.pw.rtc s.pw.credit] []).modCar (fun c => { c with sealed := true })

/-! ### Reads (R163, R165, R169) -/

/-- First position of a group on its wrap, none where it is not located. -/
def State.groupStart (s : State) (g : Nat) : Option Nat := (s.groupSpan g).map (fun x => x.2.1)

/-- Groups located on a wrap that begin after position `p` and before position `q`. -/
def State.groupsBetween (s : State) (w p q : Nat) : List Nat :=
  ((s.sp.locs.filter (fun l => l.wrap = w)).map (fun l => l.group)).eraseDups.filter (fun g =>
    (s.groupStart g).elim false (fun a => decide (p < a) && decide (a < q)))

/-- First position from which a group's copies are searched (R163). -/
def State.windowStart (s : State) (a : Nat) : Nat := a - s.pn pTRC_COPY_WIN

/-- Start of the group the pass under way reads, else the position being read. -/
def State.runPlace (s : State) : Nat :=
  match s.rc.pass.bind (fun p => s.groupStart p.group) with
  | some a => a
  | none => s.rc.pos

/-- The decoder takes the captures of group `g`: it is the one the pass reads, or in a playback one that holds a DS a request needs, or one of the
next TRC_RA_GROUPS (R159, R169). -/
def State.collects (s : State) (g : Nat) : Bool :=
  match s.rc.pass with
  | none => false
  | some p =>
    p.group = g || (p.kind = 0 && (s.neededDs.any (fun q => s.dsGroup q = g)
      || (match s.groupSpan g with
          | some (w, a, _) => w = s.rc.wrap && decide (s.runPlace < a) && decide ((s.groupsBetween w s.runPlace a).length < s.pn pTRC_RA_GROUPS)
          | none => false)))

/-- A playback reaches the copy windows of groups it collects: they are taken in this run (R169). -/
def State.noteTaken (s : State) : State :=
  let gs := ((s.sp.locs.filter (fun l => l.wrap = s.rc.wrap)).map (fun l => l.group)).eraseDups.filter (fun g =>
    (s.groupStart g).elim false (fun a => decide (s.rc.runAt ≤ s.windowStart a) && s.windowStart a = s.rc.pos) && s.collects g)
  s.modRc (fun r => { r with took := (r.took ++ gs).eraseDups })

/-- A group lies within the read-ahead of the playback in progress: its copy window has not been reached yet and it is among the next TRC_RA_GROUPS groups,
or the run has taken it from there on (R169). -/
def State.inAhead (s : State) (g : Nat) : Bool :=
  match s.groupSpan g with
  | some (w, a, b) =>
    s.mag.st = .playback && w = s.rc.wrap && s.rc.variant = 0
      && ((s.rc.took.contains g && decide (s.rc.pos ≤ b + s.pn pTRC_COPY_WIN))
          || (decide (s.rc.pos ≤ s.windowStart a) && decide ((s.groupsBetween w s.rc.pos a).length < s.pn pTRC_RA_GROUPS)))
  | none => false

/-- A playback under way goes on with group `g` of wrap `w` after a turnaround: it is the next wrap, the group lies first on it, and nothing located lies
ahead on the wrap being read (R208, R210). -/
def State.turnsOnto (s : State) (w g : Nat) : Bool :=
  s.mag.st = .playback && s.ctl.tsub = .moving && s.ctl.aim.isNone && !s.ctl.turn && w = s.rc.wrap + 1 && s.rc.variant = 0
    && (s.groupsBetween s.rc.wrap s.rc.pos wrapPositions).isEmpty
    && !(s.sp.locs.any (fun l => l.wrap = w && l.group != g && decide (l.pos < ((s.groupSpan g).map (fun x => x.2.1)).getD 0)))

/-- Begin the first pass for data DS `q` (R61, R163, R165, R169): over its group with the copy window before and after, or where it is searched for.
A target within the read-ahead goes on in the same run while the tape moves; one that lies first on the next wrap is reached by a turnaround (R210).
The playback-idle time is latched (R222). A first pass that was abandoned begins anew here (R166). -/
def State.startRead (s0 : State) (q : Nat) : State :=
  let s := s0.modCtl (fun c => { c with idlePb := s0.pn pCTL_IDLE_PB })
  match s.readSpan q with
  | none => s.popTask
  | some (g, w, a, b) =>
    let from_ := s.windowStart a
    let p : Pass := { kind := 0, group := g, last := min (wrapPositions - 1) (b + s.pn pTRC_COPY_WIN), running := false }
    let high := (s.neededDs.map s.dsGroup).foldl max g
    let mark (t : State) : State := t.modRc (fun r =>
      { r with pass := some p, variant := 0, wrap := w, ladders := NMap.modify r.ladders q (fun l => { l with inPass := true }) })
    if s.turnsOnto w g then
      (mark s).modRc (fun r => { r with wrap := s.rc.wrap, pass := some p, top := high }) |>.modCtl (fun c => { c with stage := 2, turn := true })
    else if s.inAhead g && s.ctl.tsub.moves && s.ctl.aim.isNone then
      ((mark s).modRc (fun r => { r with pass := some { p with running := true }, top := max r.top high })).modCtl (fun c => { c with stage := 2 })
    else
      let t := if s.inAhead g then s else s.tapeState .locating
      ((mark t.clearCapture).modRc (fun r => { r with pos := from_, runAt := from_, took := [], top := high })).startMove
        (.position w from_) |>.modCtl (fun c => { c with stage := 1 })

/-! ### Calibrate (R217) -/

/-- Longest run of consecutively located positions on a wrap: first position and length. -/
def State.stretch (s : State) (w : Nat) : Nat × Nat :=
  let ls := (s.sp.locs.filter (fun l => l.wrap = w))
  let step (a : (Nat × Nat) × (Nat × Nat)) (l : Loc) : (Nat × Nat) × (Nat × Nat) :=
    let cur := if a.2.1 + a.2.2 = l.pos then (a.2.1, a.2.2 + l.count) else (l.pos, l.count)
    (if a.1.2 < cur.2 then cur else a.1, cur)
  (ls.foldl step ((0, 0), (0, 0))).1

/-- The stretch calibrate uses: on the append wrap, else on the newest wrap recorded, of 170 positions at least (R217). -/
def State.calStretch (s : State) : Option (Nat × Nat × Nat) :=
  let newest := s.sp.locs.foldl (fun m l => max m l.wrap) 0
  ([s.sp.wrap, newest].map (fun w => (w, s.stretch w))).findSome? (fun x => if 170 ≤ x.2.2 then some (x.1, x.2.1, x.2.2) else none)

/-- Middle speed of a zone, mm/s: between its lower edge and the next one, 6,000 for the last. -/
def State.midSpeed (s : State) (z : Nat) : Nat := (s.pni pTRC_ZEDGE z + (if z = 15 then 6000 else s.pni pTRC_ZEDGE (z + 1))) / 2

/-- A zone's run-up and 32 DS fit in a stretch of `n` positions (R217). -/
def State.zoneFits (s : State) (z n : Nat) : Bool := decide (s.runUpNm (s.midSpeed z) + 32 * slotNm ≤ n * slotNm)

/-- Targets a calibration measures: EQ-A to EQ-D, and the user target when a zone uses it (R147). -/
def State.calTargets (s : State) : Nat := if (List.range 16).any (fun z => s.pni pTRC_TGT_SEL z = 4) then 5 else 4

/-- The next pass at or after zone `z`, target `t`: the first that fits. -/
def State.nextCal (s : State) (n : Nat) : Nat → Nat → Nat → Option (Nat × Nat)
  | 0, _, _ => none
  | f + 1, z, t =>
    if 16 ≤ z then none
    else if t < s.calTargets && s.zoneFits z n then some (z, t)
    else State.nextCal s n f (z + 1) 0

/-- Begin a pass of calibrate for a zone under a target. -/
def State.startCal (s : State) (w a n z t : Nat) : State :=
  (((s.clearCapture.modRc (fun r => { r with pass := some { kind := 3, group := 16 * z + t, last := a + n - 1, running := false }, variant := 0, wrap := w, pos := a })).tapeState
    .locating).startMove (.position w a)).modCtl (fun c => { c with stage := 1, calPass := (z, t) })

/-- A calibrate activity begins: the zones that do not fit are not measured; with no stretch, none is. -/
def State.beginCalibrate (s : State) : Option State :=
  match s.calStretch with
  | none => none
  | some (w, a, n) =>
    let un := (List.range 16).foldl (fun m z => if s.zoneFits z n then m else m + 2 ^ z) 0
    let t := (s.modCtl (fun c => { c with unmeasured := un })).modRc (fun r => { r with calFir := [], cal := [] })
    (t.nextCal n 17 0 0).map (fun x => t.startCal w a n x.1 x.2)

/-! ### The next activity -/

/-- Tape is refused to tasks now: the cartridge is unloaded (R218). -/
def State.refuseUnloaded (s : State) : State :=
  match s.ctl.tasks with
  | .read q :: _ => ((s.popTask).refuseReads (fun a n => (lbaList a n).any (fun l => s.srcOf l = .wait q))).dropUnwanted
  | k :: _ => (s.popTask).doneTask k stNotReady 0
  | [] => s

/-- Slots L4 and L5 are not in HOLD: the tape may move (R191). -/
def State.lateralOkToMove (s : State) : Bool := (s.slot 4).st != .hold && (s.slot 5).st != .hold

/-- The park at the head, from rest: drain, index generation, move, in this order (R93, R215). The result says whether something began. -/
def State.parkNext (s : State) (unload : Bool) : State :=
  let s1 := if s.canDrain && s.ctl.stage ≤ 1 then (s.modSp (fun p => { p with draining := true })).drainStep else s
  if s1.canDrain && s1.ctl.stage ≤ 1 && !s1.drained then
    let t := s1.modCtl (fun c => { c with stage := 1 })
    if t.queueEmpty || t.ctl.aim.isSome || t.recording then t else t.startRecord
  else if s1.recording && s1.sp.gen.isNone then
    (s1.modCtl (fun c => { c with stage := 2 })).stopTape .park false
  else
    let s2 := (s1.modSp (fun p => { p with draining := false })).modCtl (fun c => { c with stage := max 2 c.stage })
    let due := s2.ctl.stage = 2 && (s2.sp.genDue || s2.mag.ctx.records)
    if due then
      match s2.buildGen with
      | some t =>
        let u := if t.mag.st = .tensioned then t.enter .spooling else t
        (u.startMove (.index ((u.sp.gen.map (fun g => g.wrap)).getD 0))).modSp (fun p => { p with vreq := 500 })
      | none => s2.modSp (fun p => { p with genDue := true })
    else
      let u := if s2.mag.st = .spooling || s2.mag.st = .crawl then s2 else s2.tapeState .locating
      (u.startMove (.tpn none (u.parkTpn unload))).modCtl (fun c => { c with stage := 3 })

/-- Look at the head activity once; the result is none when nothing can be done now. -/
def State.serveOne (s : State) : Option State :=
  let c := s.ctl
  let braked := c.tsub = .braked
  match c.tasks with
  | [] =>
    if c.tsub = .moving && c.aim.isNone && !c.shuttle then some (s.stopTape .hold false) else none
  | k :: _ =>
    if c.stage != 0 then none
    else if s.mag.unloaded && k != .load k.cmd? then some s.refuseUnloaded
    else
      match k with
      | .tensionOff _ =>
        if braked then some (s.finishTask 0)
        else if c.tsub = .held then some ((s.modCtl (fun x => { x with stage := 1 })).letGo .ready)
        else some ((s.modCtl (fun x => { x with stage := 1 })).stopTape .release false)
      | .park _ eject =>
        if braked then
          if s.mag.st = .parked && (s.queueEmpty || !s.canDrain) && !s.sp.genDue then
            (if eject then some ((s.parkWrites.sealJournal).modCtl (fun x => { x with stage := 5 })) else some (s.finishTask 0))
          else none
        else if s.lateralOkToMove then some (s.parkNext false) else none
      | .unload _ => if braked then none else if s.lateralOkToMove then some (s.parkNext true) else none
      | .load _ =>
        if braked then
          if c.held.isNone && !c.radiusOk then none else some (s.forgetPosition true)
        else some (s.letGo .ready)
      | .tensionOn _ => if c.tsub = .held then some (s.finishTask 0) else if c.tsub = .moving then some (s.stopTape .hold false) else none
      | .record =>
        if braked || !s.lateralOkToMove then none
        else
          let t := s.startRecord
          if t.sp.full then some (t.popTask) else some (t.modCtl (fun x => { x with stage := 1 }))
      | .locate _ t =>
        if braked || !s.lateralOkToMove then none
        else some (((s.tapeState .locating).startMove t).modCtl (fun x => { x with stage := 1 }))
      | .shuttle _ =>
        if braked || !s.lateralOkToMove then none
        else
          some (((s.tapeState .locating).modCtl (fun x => { x with shuttle := true, tsub := if x.tsub = .dwell then .dwell else .moving, aim := none, target := 0 })).finishTask 0)
      | .calibrate _ =>
        if braked || !s.lateralOkToMove then none
        else
          match s.beginCalibrate with
          | some t => some t
          | none => some (s.endSuspension.finishTask 0xFFFF)
      | .read q =>
        if braked || !s.lateralOkToMove then none
        else if ((NMap.find? s.rc.ladders q).elim true (fun l => l.first)) then none
        else some (s.startRead q)
      | .tailScan => some s.popTask

/-- Keep the recording need among the activities (R24): added when it arises, dropped when it has gone before it began. -/
def State.noteNeed (s : State) : State :=
  let n := s.recordNeed
  s.modCtl (fun c =>
    if n then (if c.tasks.contains .record then c else { c with tasks := c.tasks ++ [.record] })
    else if c.stage = 0 then { c with tasks := c.tasks.filter (fun t => t != .record) } else c)

/-- A park that arrives while the tape records takes over the motion: the drain runs on (R24, R215). -/
def State.parkTakesOver (s : State) : State :=
  match s.ctl.tasks with
  | .record :: .park q e :: ts => s.modCtl (fun c => { c with tasks := .park q e :: ts, stage := if c.stage = 0 then 0 else 1 })
  | _ => s

/-- The head park in its drain looks again: what can be closed is closed, and the sequence goes on when nothing is left (R215). An eject-prepare whose NOR
writes have not verified makes them again (R216; DESIGN CHOICE, log 79). -/
def State.parkLook (s : State) : State :=
  match s.ctl.tasks with
  | .park _ _ :: _ =>
    if s.ctl.stage = 1 && s.ctl.after.isNone && s.ctl.tsub != .braked && s.ctl.aim.isNone then s.parkNext false
    else if (s.ctl.stage = 2 || s.ctl.stage = 3) && s.ctl.after.isNone && s.ctl.tsub = .held && s.sp.gen.isNone then s.parkNext false
    else if s.ctl.stage != 5 then s
    else if s.ejectReady then s.finishTask 0
    else if s.nor.ops.isEmpty && s.parkUnwritten then s.parkWrites
    else s
  | .unload _ :: _ =>
    if (s.ctl.stage = 2 || s.ctl.stage = 3) && s.ctl.after.isNone && s.ctl.tsub = .held && s.sp.gen.isNone then s.parkNext true else s
  | _ => s

/-- While the cartridge is unloaded and its unload waits for the lid, what waits behind it completes with Namespace Not Ready (R218). -/
def State.refuseBehind (s : State) : State :=
  match s.ctl.tasks with
  | .unload c :: ts =>
    if s.ctl.stage = 6 && !ts.isEmpty then
      let t := ts.foldl (fun (t : State) (k : Task) =>
        match k with
        | .read q => t.refuseReads (fun a n => (lbaList a n).any (fun l => t.srcOf l = .wait q))
        | _ => t.doneTask k stNotReady 0) (s.modCtl (fun x => { x with tasks := [.unload c] }))
      t.dropUnwanted
    else s
  | _ => s

/-- Serve the activities in their order, as far as the transport can now (R202). -/
def State.serveFuel : Nat → State → State
  | 0, s => s
  | n + 1, s =>
    let t := ((s.drainStep.noteNeed.parkTakesOver).refuseBehind).parkLook
    if t.ctl.after.isSome || t.nv.pp || !t.mag.st.working || t.ctl.tsub = .tensioning || t.ctl.tsub = .probing || t.ctl.tsub = .finding
        || t.ctl.tsub = .dynamic || t.ctl.tsub = .releasing then t
    else match t.serveOne with
      | some u => State.serveFuel n u
      | none => t

/-- SERVICE is to be left: another context has been selected, or the owner session has ended (R21, R269). -/
def State.leaving (s : State) : Bool := s.mag.st = .service && (s.mag.ctx != .service || !s.keys.session)

/-- SERVICE is left once no Transport Command runs or waits: with tension on it is released first. The magazine returns to READY with the context
selected, or the profile's default when the owner session ended (R269); it returns to SAFE when SERVICE was entered from there, and then the context is
the profile's default, or none without a profile (R20, R21; DESIGN CHOICE, log 79: the manual names no context for SAFE with a profile). -/
def State.leaveLook (s : State) : State :=
  if !s.leaving || !s.ctl.tasks.isEmpty || s.ctl.after.isSome then s
  else
    let out (t : State) : State :=
      t.modMag (fun g =>
        { g with st := if g.from_ = .safe then .safe else .ready
                 ctx := if g.from_ = .safe || g.ctx = .service then g.dflt else g.ctx })
    match s.ctl.tsub with
    | .braked => out s
    | .held => s.letGo .ready
    | .moving | .dwell => s.stopTape .release false
    | _ => s

/-- Every acknowledged byte is programmed and its records have persisted, as far as the write area can still be read (R414, R460). -/
def State.ackedSafe (s : State) : Bool := s.creditU = 0 || s.car.bufBad

/-- DRAIN step 5: once step 3 is done and no ceiling write is under way, the DRAIN is journalled and the seal record is written (R414, R300). -/
def State.drainLook (s : State) : State :=
  if s.mag.st != .drain || s.car.sealed || !s.ackedSafe || !s.car.journal.isEmpty || s.keys.ceilingBusy.isSome then s
  else
    let t := s.raise 0x784 1 []
    (t.mapCommit (t.ev.unsaved.map .event ++ [.sealRec t.car.age t.pw.rtc t.pw.lossCredit]) []).modCar (fun c => { c with sealed := true })

/-- What has been acknowledged and not persisted by now is what a BOOT will find missing (R457). -/
def State.settleLoss (s : State) : State := s.modPw (fun p => { p with lossU := (unpersisted s.sp.wbuf, unpersisted s.car.sbuf) })

/-- What a restart waits for besides the tape: acknowledged data, the journals as far as they can be written, and the NOR. -/
def State.restartSettled (s : State) : Bool := s.ackedSafe && (s.car.journal.isEmpty || !s.seqRoom) && s.nor.ops.isEmpty

/-- A restart with the rails left on enters BOOT, or SAFE after a second mismatch, once that is done, nothing runs on the tape and tension is
released (R438, R462). -/
def State.restartLook (s : State) : State :=
  if s.mag.restart = 0 || s.mag.st = .boot || !s.mag.st.alive || s.ctl.tsub != .braked || !s.ctl.tasks.isEmpty || s.ctl.after.isSome
      || !s.restartSettled then s
  else if s.mag.restart = 3 then (s.modMag (fun g => { g with st := .safe, why := 0, restart := 0, ctx := g.dflt })).raise 0x7E1 0 []
  else (s.settleLoss).enter .boot

/-- Serve with room for every waiting activity, leave SERVICE when it is to be left, and serve what waited for that. -/
def State.serveTasks (s : State) : State :=
  let t := (s.serveFuel (2 * s.ctl.tasks.length + 4)).leaveLook
  if t.mag.st != s.mag.st && s.leaving then t.serveFuel (2 * t.ctl.tasks.length + 4) else t

/-- Serve the tape's activities; in DRAIN, go on with the drain; and restart when a restart waits. -/
def State.serve (s : State) : State := if s.mag.st = .drain then s.drainLook else s.serveTasks.restartLook

/-- Tape is needed: an activity waits that cannot be served without tension (R24, R205). -/
def State.tapeNeeded (s : State) : Bool := (!s.ctl.tasks.isEmpty && !s.mag.unloaded || s.ctl.tasks.any (fun t => t = .load t.cmd?)) && s.mag.restart = 0

end Sys2Proof.Machine
end

