-- ==== Sys2Proof/Machine/Packer.lean ====
section
/-! DEFINITION. From the packer to the spool queue: record idle time (R71), compression of blocks (R223, R239 to R246), XTS of record bodies
(R252), DS assembly with its tag (R75, R253, R315), the IV ceiling (R254). -/

namespace Sys2Proof.Machine

/-- RECORD_IDLE_TIMEOUT (R71): the zone's open record closes. -/
def execRecordIdleTimeout (zone : Nat) (s : State) : Out := .next (s.closeRec zone false).serve

/-! ### Compression (R223, R224, R241, R246) -/

/-- Change the record that was opened as this one: records are told apart by zone and first LBA. -/
def State.modRec (s : State) (r : PackRec) (f : PackRec → PackRec) : State :=
  s.modSp (fun p => { p with recs := p.recs.map (fun x => if x.zone = r.zone && x.start = r.start then f x else x) })

/-- Overflow buffers in use. -/
def State.ovfUsed (s : State) : Nat := s.sp.ovf.foldl (fun n e => n + e.2) 0

/-- The most overflow buffers in use is noted (R250). -/
def State.notePeak (s : State) : State := if s.pn pCMP_OVF_PEAK < s.ovfUsed then s.setPv pCMP_OVF_PEAK 0 s.ovfUsed else s

/-- DS assembly has a DS it cannot pass on, because the spool queue holds it back; the stages before it stall (R105). -/
def State.backedUp (s : State) : Bool := s.spoolStalled && !s.sp.filled.isEmpty

/-- The engine may code a block: it is not still writing one with overflow buffers to its output FIFO, and nothing behind it stalls (R105, R246). -/
def State.engineFree (s : State) (engine : Nat) : Bool :=
  (NMap.get 0 s.sp.ovf engine = 0 || s.sp.ovfWait.contains engine) && !s.backedUp

/-- COMPRESSION_BLOCK_CODE (R223, R239 to R246): the engine codes the next complete block of the first of its records that has one, and writes it to
FIFO 8 + n. It takes the overflow buffers the coded block needs, as far as the pool has them; when the pool is empty it stalls with what it has taken
and goes on from there once a buffer is free. A literal block is built from the input and needs none. Mode 0 passes the data unchanged. -/
def execCompressionBlockCode (engine : Nat) (s : State) : Out :=
  .next (
    match s.sp.recs.find? (fun r => r.engine = engine && decide (0 < r.nextBlock)) with
    | none => s
    | some r =>
      if !s.engineFree engine then s else
      let n := r.nextBlock
      let b := slice r.data r.at_ n
      let o : BlockOut := if r.mode = 0 then { bytes := b, pred := 0, literal := false, carried := none }
        else codeBlock (Geom.of r.geom) r.mode (s.pn pCMP_REFRESH) (r.t0 + r.at_) r.carried b
      let need := if r.mode = 0 || o.literal then 0 else overflowBuffers o.bytes.length
      let has := NMap.get 0 s.sp.ovf engine
      let room := s.pn pCMP_OVF_BUFS - s.ovfUsed
      if has + room < need then
        (s.modSp (fun p => { p with ovf := NMap.bump p.ovf engine room, ovfWait := if p.ovfWait.contains engine then p.ovfWait else engine :: p.ovfWait })).notePeak
      else
        let head := if r.mode != 0 && r.at_ = 0 then prologue r.geom else []
        let out := head ++ o.bytes
        let ends := r.closed.isSome && r.at_ + n = r.data.length
        let t := ((s.passBytes (8 + engine) out.length).modRec r (fun x =>
          { x with at_ := x.at_ + n, coded := x.coded ++ out, carried := o.carried, arrived := if ends then some s.sp.arrivals else none })).modSp (fun p =>
            { p with ovf := NMap.set 0 p.ovf engine need, ovfWait := p.ovfWait.filter (fun e => e != engine), arrivals := p.arrivals + 1 })
        let u := ((t.bumpPv pCMP_IN_BYTES engine n).bumpPv pCMP_OUT_BYTES engine out.length)
        let v := if r.mode = 0 then u else if o.literal then u.bumpPv pCMP_LIT_BLOCKS engine 1 else u.bumpPv pCMP_PRED_USE o.pred 1
        v.notePeak)

/-- OVERFLOW_BUFFER_FREED (R246): one buffer of the engine's block returns to the pool. -/
def execOverflowBufferFreed (engine : Nat) (s : State) : Out :=
  .next (s.modSp (fun p => { p with ovf := NMap.upd 0 p.ovf engine (· - 1) }))

/-! ### Encryption (R35, R252) -/

/-- The record whose sector comes next: closed and coded to its end, the first to have arrived among those not complete (R251). -/
def State.xtsNext (s : State) : Option PackRec :=
  s.sp.recs.foldl (fun (a : Option PackRec) r =>
    if r.closed.isNone || r.done || r.at_ != r.data.length then a
    else
      match a with
      | some b => if r.arrived.getD 0 < b.arrived.getD 0 then some r else a
      | none => some r) none

/-- XTS_SECTOR_ENCRYPT (R35, R72, R105, R251, R252, R257): one sector; the first sector of a record takes the context's next sector indices, as many as
the body has. It waits while its key is in no slot and none is free, or while DS assembly is held back. With its last sector the record enters the
payload stream when its turn comes (R74). -/
def execXtsSectorEncrypt (s : State) : Out :=
  .next (
    match (if s.backedUp then none else s.xtsNext) with
    | none => s
    | some r =>
      let t := s.keySlotLoad r.keyId
      match t.xtsKey r.keyId with
      | none => t
      | some key =>
        let len := bodyLen r.coded.length
        let sectors := (len + 4095) / 4096
        let next := (NMap.find? t.sp.ctxs r.ctx).elim 0 (fun c => c.next)
        let first := if r.body.isEmpty then next else r.sector0
        let u := if r.body.isEmpty then t.modSp (fun p => { p with ctxs := NMap.modify p.ctxs r.ctx (fun c => { c with next := c.next + sectors }) }) else t
        let plain := slice (fitBytes len r.coded) r.body.length 4096
        let sec := xtsEncrypt key (r.ctx * 2 ^ 64 + first + r.body.length / 4096) plain
        let done := decide (len ≤ r.body.length + sec.length)
        let v := u.modRec r (fun x => { x with sector0 := first, body := x.body ++ sec, done })
        if done then (State.enterRecs v.sp.recs.length v).serve else v)

/-! ### DS assembly (R37, R75, R253, R315) -/

/-- Takes whose records lie in DS `q` learn that it holds their data (R95). -/
def State.noteTakes (s : State) (q : Nat) : State :=
  let ts := s.rc.dirs.flatMap (fun d => (d.2.filter (fun e => decide (d.1 ≤ q) && decide (q ≤ e.lastDs d.1))).map (fun e => e.take))
  s.modSp (fun p =>
    { p with takes := ts.foldl (fun (m : NMap Take) (t : Nat) => NMap.modify m t (fun v => { v with firstDs := some (v.firstDs.getD q), lastDs := some q })) p.takes })

/-- Records that end in DS `q` leave the write area's care: each of their LBAs names it (R76). -/
def State.noteDs (s : State) (q : Nat) (lbas : List (Nat × Nat)) : State :=
  s.modSp (fun p =>
    { p with wbuf := lbas.foldl (fun (m : NMap WLba) (r : Nat × Nat) =>
        (List.range r.2).foldl (fun (m : NMap WLba) i => NMap.modify m (r.1 + i) (fun w => { w with ds := some q })) m) p.wbuf })

/-- Sector counters of the contexts of a DS, for its commit (R442). -/
def State.sectorRecs (s : State) (d : OpenDs) : List JRec :=
  (d.dir.map (fun e => e.ctx)).eraseDups.filterMap (fun c => (NMap.find? s.sp.ctxs c).map (fun x => .sectors c x.take x.next))

/-- The first DS awaiting its table is assembled: table, IV and tag; it enters the Carousel and the tail of the spool queue. It waits while
the spool queue holds it back, and while there is no MAC key, no IV, no staging space or no place to program it. Its bytes pass the GMAC lanes by
FIFO 17 and go to the Carousel by FIFO 18 (R101). -/
def State.assemble (s : State) : State :=
  match s.sp.filled with
  | [] => s
  | d :: rest =>
    if s.spoolStalled || !s.ingestFlows then s
    else if !s.stageRoom dsInfo then
      if s.sp.stageFull then s else (s.modSp (fun p => { p with stageFull := true })).raise 0x5D6 1 []
    else
      match s.needMac with
      | none => s
      | some s1 =>
        match s1.slotKey (259 + s1.keys.macCur.getD 0), s1.takeIv with
        | some key, some (iv, s2) =>
          let q := s2.sp.nextSeq
          let macId := s2.keys.macCur.getD 0
          let stream := s2.filledStream
          let info := tagged key iv (fitBytes dsPayload d.payload) (fun tag => dsTable d q s2.sp.cartridge stream iv macId tag s2.stamp s2.sp.initCount)
          let s3 := ((s2.modSp (fun p => { p with filled := rest, nextSeq := q + 1, stageFull := false })).modRc (fun r =>
            { r with dirs := NMap.put r.dirs q d.dir })).noteTakes q
          let lbas := s3.endingIn q
          (match s3.appendImage q { bytes := info, group := none, persisted := false, committed := false, logOff := 0, lbas } with
           | some s4 => ((((s4.passBytes 17 dsInfo).passBytes 18 dsInfo).noteDs q lbas).mapCommit (s4.sectorRecs d) []).groupAdd q
           | none => s1)
        | _, _ => s1

/-- DS_ASSEMBLED (R37, R75, R253, R315). -/
def execDsAssembled (s : State) : Out := .next s.assemble.serve

/-! ### IV ceiling (R254) -/

/-- IV_CEILING_REFRESH (R254): within 2^16 of the ceiling a higher one is to be written. -/
def execIvCeilingRefresh (s : State) : Out :=
  .next (
    match s.keys.ceiling with
    | some c =>
      if c ≤ s.keys.iv + 2 ^ 16 && s.keys.ceilingBusy.isNone && !s.keys.ivDead then s.modKeys (fun k => { k with ceilingBusy := some (c + 2 ^ 20) })
      else s
    | none => s)

/-- IV_CEILING_WRITE_DONE (R254, R511): the results of the two copies. With both failed no further IV is issued; otherwise the new ceiling holds,
and what waited for an IV goes on. -/
def execIvCeilingWriteDone (ok0 ok1 : Bool) (s : State) : Out :=
  .next (
    match s.keys.ceilingBusy, s.keys.krec with
    | some c, some k =>
      if s.nor.ops.any (fun o => o.area = 1) || !s.mag.st.alive then s
      else
      let n := { k with ceiling := c, seq := (k.seq + 1) % 2 ^ 32 }
      let t := (s.putCopies 1 n.bytes ok0 ok1).modKeys (fun y => { y with ceilingBusy := none })
      if ok0 || ok1 then (t.modKeys (fun y => { y with krec := some n, ceiling := some c, recDirty := false })).serve
      else (((t.modKeys (fun y => { y with ivDead := true })).noteFault 8).raise 0x7C4 1 []).raise 0x7F3 1 []
    | _, _ => s)

end Sys2Proof.Machine
end

