-- ==== Sys2Proof/Machine/HostOps.lean ====
section
/-! DEFINITION. Operations of the host interface on writes: the checks of take writes (R335, R339), their acceptance and application (R331,
R334, R344), Take Mark (R338), Flush, Spool Commit and shutdown (R327, R346, R347), and the completion of what waits. -/

namespace Sys2Proof.Machine

/-! ### Take writes (R335, R338, R339) -/

/-- LBAs of a zone that accepted writes have yet to fill. -/
def State.unmoved (s : State) (z : Nat) : Nat :=
  s.nv.writes.foldl (fun n w => if w.nsid = 1 && !w.moved && zoneOf w.slba = z then n + w.nlb else n) 0

/-- Where the next write of a zone goes: its write pointer once the writes accepted before have been applied. -/
def State.nextWp (s : State) (z : Nat) : Nat := (s.zone z).wp + s.unmoved z

/-- The magazine does not take new take data: its context is not camera, or the cartridge is foreign (R22, R264). -/
def State.takeProtected (s : State) : Bool := s.mag.ctx != .camera || s.sp.foreign.isSome

/-- The checks of R335 in their order: none when the write is accepted. A Write beyond MDTS, 2 MiB (R333), fails where the length of a Zone Append does
(DESIGN CHOICE, log 77). -/
def State.takeCheck (s : State) (append : Bool) (slba nlb cdw2 cdw3 : Nat) : Option Status :=
  let z := zoneOf slba
  let x := s.zone z
  let wp := s.nextWp z
  let at_ := if append then wp else slba % 65536
  if s.mag.st = .safe || s.mag.unloaded then some stNotReady
  else if s.takeProtected then some stProtected
  else if s.takeLbas < slba + nlb then some stRange
  else if decide (512 < nlb) || (append && slba % 65536 != 0) || !timecodeOk cdw2 cdw3 then some stField
  else if x.st = .offline then some stZoneOffline
  else if x.st = .full || x.st = .readOnly || 65536 ≤ wp then some stZoneFull
  else if !append && slba % 65536 != wp then some stZoneWrite
  else if 65536 < at_ + nlb then some stZoneBoundary
  else s.openCheck z

/-- A Take Mark fetched before command `q` has not acted, and this zone belongs to the take it ends (R338). -/
def State.behindMark (s : State) (q z : Nat) : Bool :=
  s.nv.held.any (fun h => h.wait = .takeMark && decide (h.seq < q)) && s.sp.current.isSome && (s.zone z).st != .empty
    && (s.zone z).take = s.sp.current.getD 0

/-- Refuse a take write or zone action; the first Capacity Exceeded raises EVT 0x607 (R359). -/
def State.refuseTake (s : State) (q : Nat) (st : Status) : State :=
  let t := if st = stCapacity && !s.nv.capReported then (s.modNv (fun n => { n with capReported := true })).raise 0x607 1 [] else s
  t.done q st

/-- Accept a write or Zone Append to the take namespace, or refuse it: its zone opens, and it waits for its data; a Zone Append is placed
behind every write accepted before it. Behind a Take Mark it waits unchecked. -/
def State.acceptTake (s : State) (q : Nat) (append : Bool) (slba nlb : Nat) (fua : Bool) (cdw2 cdw3 : Nat) : State :=
  let z := zoneOf slba
  if s.behindMark q z then s.modNv (fun n => n.setWait q (.behindMark append slba nlb fua cdw2 cdw3))
  else
    match s.takeCheck append slba nlb cdw2 cdw3 with
    | some st => s.refuseTake q st
    | none =>
      let w : WriteCmd :=
        { seq := q, nsid := 1, slba := if append then 65536 * z + s.nextWp z else slba, nlb, fua, append, timecode := timecodeOf cdw2 cdw3,
          moved := false, app := 0 }
      (s.openZone z false).modNv (fun n => { n.setWait q .write with writes := n.writes ++ [w] })

/-! ### Moving data (R331, R344) -/

/-- LBAs the write area holds. -/
def State.areaUsed (s : State) : Nat := s.sp.wbuf.length + s.car.sbuf.length

/-- The write area has room for `n` more LBAs. -/
def State.areaRoom (s : State) (n : Nat) : Bool := decide (4096 * (s.areaUsed + n) ≤ s.pn pHIF_WBUF_GIB * 2 ^ 30)

/-- Nothing keeps the data of a write from being moved but room: it has not been, and on the take namespace it is the oldest of its zone. -/
def State.oldestUnmoved (s : State) (w : WriteCmd) : Bool :=
  !w.moved
    && (w.nsid != 1
        || (s.nv.writes.find? (fun x => x.nsid = 1 && !x.moved && zoneOf x.slba = zoneOf w.slba)).map (fun x => x.seq) = some w.seq)

/-- Arbitration class of the command that a write stands for. -/
def State.writeCls (s : State) (w : WriteCmd) : Nat := (s.nv.held? w.seq).elim 0 (fun h => h.cls)

/-- LBAs of the writes that are granted buffer space before `w`: those of a higher class, and of the same class fetched before it (R330). -/
def State.aheadOf (s : State) (w : WriteCmd) : Nat :=
  s.nv.writes.foldl (fun n x =>
    if s.oldestUnmoved x && (decide (s.writeCls x < s.writeCls w) || (s.writeCls x = s.writeCls w && decide (x.seq < w.seq))) then n + x.nlb else n) 0

/-- The data of a write may be moved now: its turn in its zone has come, and there is room for it behind the writes granted before it. -/
def State.mayMove (s : State) (w : WriteCmd) : Bool := s.oldestUnmoved w && s.areaRoom (s.aheadOf w + w.nlb)

/-- Mark a write as moved under an application number, at the place it took. -/
def State.markMoved (s : State) (w : WriteCmd) (app : Nat) : State :=
  s.modNv (fun n =>
    { n with applied := app, writes := n.writes.map (fun x => if x.seq = w.seq then { x with moved := true, app, slba := w.slba } else x) })

/-- Apply a write whose data has been moved: per LBA, on the take namespace through the packer, on the sidecar straight to the Carousel. A zone
that was closed meanwhile is opened again; one that takes no more data gives the write its status. A Zone Append goes to the write pointer
(R71, R331, R334, R335). -/
def State.applyWrite (s : State) (v : WriteCmd) (data : Bytes) : State :=
  let app := s.nv.applied + 1
  let bs := blocksOf v.nlb data
  if v.nsid = 1 then
    let z := zoneOf v.slba
    let x := s.zone z
    let w := if v.append then { v with slba := 65536 * z + x.wp } else v
    if x.st = .offline then s.done w.seq stZoneOffline
    else if x.st = .full || x.st = .readOnly then s.done w.seq stZoneFull
    else if x.wp != w.slba % 65536 then s.done w.seq stZoneWrite
    else
      match (if x.st.isOpen then none else s.openCheck z) with
      | some st => s.done w.seq st
      | none =>
        let t := ((s.openZone z false).markMoved w app).applyLbas w.slba app w.timecode bs
        if w.fua then t.closeRec z false else t
  else
    let w := v
    let ent (b : Bytes) : WLba := { data := b, acked := false, persisted := false, app, packed := true, ds := none, timecode := none }
    ((s.markMoved w app).modCar (fun c => { c with sbuf := NMap.putAll c.sbuf w.slba (bs.map ent) })).sideWrite w.slba app bs
where
  /-- List entries at consecutive keys. -/
  NMap.putAll (m : NMap WLba) (k : Nat) (es : List WLba) : NMap WLba :=
    es.zipIdx.foldl (fun (m : NMap WLba) (e : WLba × Nat) => NMap.put m (k + e.2) e.1) m

/-! ### Take Mark (R73, R338) -/

/-- A Take Mark may act: every write to the current take's zones fetched before it has been applied. -/
def State.markReady (s : State) (h : Held) : Bool :=
  s.nv.writes.all (fun w => w.nsid != 1 || w.moved || decide (h.seq < w.seq) || (s.zone (zoneOf w.slba)).take != s.sp.current.getD 0)

/-- Close every open record of take `t`; the last one closed gets flag bit 2 (R73). -/
def State.closeTakeRecs (s : State) (t : Nat) : State :=
  let zs := (s.sp.recs.filter (fun r => r.take = t && r.closed.isNone)).map (fun r => r.zone)
  zs.zipIdx.foldl (fun u (z, i) => u.closeRec z (decide (i + 1 = zs.length))) s

/-- Take Mark acts (R338): the take is closed, its zones become Full or Empty. -/
def State.actTakeMark (s : State) (q : Nat) : State :=
  match s.sp.current with
  | none => s.complete q stOk 0xFFFFFFFF 0 []
  | some t =>
    let zs := (s.sp.zones.filter (fun e => e.2.take = t && e.2.st.isActive)).map Prod.fst
    let u := zs.foldl (fun v z => if (v.zone z).wp = 0 then v.closeZone z else v.fullZone z true) (s.closeTakeRecs t)
    let w := u.modSp (fun p => { p with current := none, takes := NMap.modify p.takes t (fun x => { x with closed := true }) })
    (w.indexCommit ((match NMap.find? w.sp.takes t with | some x => [.take t x] | none => []) ++ [w.counterRec])).complete q stOk (t % 2 ^ 32) 0 []

/-! ### What waits (R96, R327, R338, R346, R347, R349, R351) -/

/-- Every write a Flush covers has persisted with its map journal records. -/
def State.flushDone (s : State) (take side : Bool) (upto : Nat) (skip : List Nat) : Bool :=
  (!take || s.sp.wbuf.all (fun e => e.2.persisted || !unsettled upto skip e.2.app))
    && (!side || s.car.sbuf.all (fun e => e.2.persisted || !unsettled upto skip e.2.app))

/-- Every write a Spool Commit covers is spool-committed. -/
def State.spoolDone (s : State) (upto : Nat) (skip : List Nat) : Bool := s.sp.uncommitted.all (fun e => !unsettled upto skip e.2)

/-- Application numbers of writes whose completion has not been posted. -/
def State.openApps (s : State) : List Nat := (s.nv.writes.filter (fun w => w.moved)).map (fun w => w.app)

/-- Acknowledged data is all persisted, with the map journal records. -/
def State.allPersisted (s : State) : Bool := s.creditU = 0 && s.car.journal.isEmpty

/-- A command has started: it is held and bound, and is no Asynchronous Event Request. -/
def Held.started (h : Held) : Bool := h.wait != .aer && h.wait != .fetched

/-- A normal shutdown is complete once every started command has completed and every acknowledged write has persisted (R327). -/
def State.shutCheck (s : State) : State :=
  if s.nv.shn = 1 && s.nv.shst = 1 && s.nv.held.all (fun h => !h.started) && s.allPersisted then s.modNv (fun n => { n with shst := 2 }) else s

/-- The stored patch package becomes the one that runs; it is no longer marked (R351). -/
def State.activateFw (s : State) (rom : Bool) : State :=
  (s.modNv (fun n =>
    { n with patchLevel := if rom then 0 else n.fwSlot2.elim n.patchLevel (fun b => leAt b 0x0C 4), fwMarked := n.fwMarked && rom, pp := false })).raise
      0x604 1 []

/-- An immediate activation goes on once every other started command has completed (R351). -/
def State.activateReady (s : State) : Bool := s.nv.held.all (fun h => !h.started || (match h.wait with | .activate _ => true | _ => false))

/-- Trace Read moves `n` packets of the frozen buffer from packet `first` on, oldest sample first, through FIFO 92; samples not taken read as zero
(R198). A halted FIFO 92 holds it back (R111). -/
def State.traceMove (s : State) (q first n : Nat) : State :=
  if s.flows 92 then
    let ps := (s.ctl.trace.samples.reverse.drop first).take n
    (s.pass 92 (8 * n) 8).complete q stOk 0 0 (fitBytes (64 * n) (ps.flatMap (fun ws => (List.range 8).flatMap (fun i => leBytes 8 (ws.getD i 0)))))
  else s.modNv (fun v => v.setWait q (.trace first n))

/-- Look at one held command: complete it when what it waits for has come. -/
def State.settleOne (s : State) (h : Held) : State :=
  match h.wait with
  | .flush t d u k =>
    if s.flushDone t d u k then s.done h.seq stOk
    else if t then s.flushWhere (fun _ w => w.acked && unsettled u k w.app) else s
  | .spoolCommit u k => if s.spoolDone u k then s.complete h.seq stOk (s.sp.nextSeq % 2 ^ 32) 0 [] else s
  | .takeMark => if s.markReady h then s.actTakeMark h.seq else s
  | .behindMark a l n f c d => if s.behindMark h.seq (zoneOf l) then s else s.acceptTake h.seq a l n f c d
  | .deleteSq q =>
    if s.nv.held.any (fun x => x.sq = q && x.seq != h.seq) then s
    else (s.modNv (fun n => { n with sqs := NMap.del n.sqs q })).done h.seq stOk
  | .activate rom => if s.activateReady then (s.activateFw rom).done h.seq stOk else s
  | .trace f n => if s.flows 92 then s.traceMove h.seq f n else s
  | _ => s

/-- Settle what waits at the host interface: acknowledgements, then the held commands in fetch order, then a shutdown. -/
def State.settleHost (s : State) : State :=
  let t := s.grantCredit.noteCredit
  (t.nv.held.foldl (fun u h => u.settleOne h) t).shutCheck

/-- Settle the host interface and serve the tape. -/
def State.goOn (s : State) : State := s.settleHost.serve

end Sys2Proof.Machine
end

