-- ==== Sys2Proof/Machine/HostIo.lean ====
section
/-! DEFINITION. I/O commands: writes and Zone Appends (R335, R341), the movement of their data (R344) and their acknowledgement (R342, R343),
reads (R336, R345, R513), deallocation (R341), zone management (R337), Flush (R346), Spool Commit (R347) and Take Mark (R338). -/

namespace Sys2Proof.Machine

/-! ### Addressing a namespace (R333) -/

/-- An I/O command to namespace 1 or 2; any other, or namespace 1 while CC.CSS makes it inactive, is refused. -/
def State.ioNs (s : State) (h : Hdr) (nsid : Nat) (take side : Nat → State → State) : State :=
  s.ioCmd h (fun q t =>
    if nsid = 1 && t.nv.css != 0 then take q t
    else if nsid = 2 then side q t
    else t.done q stNamespace)

/-- The sidecar's refusals, then `go`: range, read-only for a change (R317), and the cap without the host memory buffer (R318); above the cap
a command waits while the map is being loaded (R319). -/
def State.sideGate (s : State) (q slba n : Nat) (change : Bool) (wait : Wait) (go : State → State) : State :=
  if s.sideLbas < slba + n then s.done q stRange
  else if change && s.car.readOnly then s.done q stProtected
  else if s.pn pCSL_CONFIG = 16 && decide (s.sideCap < slba + n) && s.car.hmb = 1 then s.modNv (fun v => v.setWait q wait)
  else if s.capOn && decide (s.sideCap < slba + n) then s.done q stNotReady
  else go s

/-! ### Writes -/

/-- Apply an accepted write with data that is at hand. -/
def State.moveNow (s : State) (q : Nat) (data : Bytes) : State :=
  match s.nv.writes.find? (fun w => w.seq = q) with
  | some w => if s.mayMove w then s.applyWrite w data else s
  | none => s

/-- Accept a write to the sidecar. -/
def State.acceptSide (s : State) (q slba nlb : Nat) (fua : Bool) : State :=
  let w : WriteCmd := { seq := q, nsid := 2, slba, nlb, fua, append := false, timecode := none, moved := false, app := 0 }
  s.modNv (fun n => { n.setWait q .write with writes := n.writes ++ [w] })

/-- A write to the sidecar, at most 2 MiB (MDTS, R333): `op` 1, with FUA 17. -/
def State.sideWriteCmd (s : State) (q slba n : Nat) (fua : Bool) (data : Option Bytes) : State :=
  if 512 < n then s.done q stField else
  s.sideGate q slba n true (.hmb slba n (if fua then 17 else 1) (data.getD [])) (fun t =>
    let u := t.acceptSide q slba n fua
    match data with
    | some d => u.moveNow q d
    | none => u)

/-- A write or Zone Append to the take namespace. -/
def State.takeWriteCmd (s : State) (q : Nat) (append : Bool) (slba n : Nat) (fua : Bool) (cdw2 cdw3 : Nat) (data : Option Bytes) : State :=
  let u := s.acceptTake q append slba n fua cdw2 cdw3
  match data with
  | some d => u.moveNow q d
  | none => u

/-- WRITE (R335, R341). -/
def execWrite (h : Hdr) (nsid slba nlb : Nat) (fua : Bool) (cdw2 cdw3 : Nat) (data : Option Bytes) (s : State) : Out :=
  .next (s.ioNs h nsid (fun q t => t.takeWriteCmd q false slba (nlb + 1) fua cdw2 cdw3 data)
    (fun q t => t.sideWriteCmd q slba (nlb + 1) fua data)).goOn

/-- ZONE_APPEND (R335). -/
def execZoneAppend (h : Hdr) (nsid slba nlb : Nat) (fua : Bool) (cdw2 cdw3 : Nat) (data : Option Bytes) (s : State) : Out :=
  .next (s.ioNs h nsid (fun q t => t.takeWriteCmd q true slba (nlb + 1) fua cdw2 cdw3 data) (fun q t => t.done q stOpcode)).goOn

/-- WRITE_DATA_TRANSFER (R344): the data of a held write is moved once the write area has room; host memory that answers with an error fails
the command alone (R332). -/
def execWriteDataTransfer (sq cid : Nat) (data : Option Bytes) (s : State) : Out :=
  match s.nv.held.find? (fun h => h.sq = sq && h.cid = some cid && h.wait = .write) with
  | some h =>
    match s.nv.writes.find? (fun w => w.seq = h.seq) with
    | some w =>
      if s.mag.st.alive && s.mag.st != .drain && s.mayMove w then
        match data with
        | some d => .next (s.applyWrite w d).goOn
        | none => .next (s.done h.seq stTransfer).goOn
      else .next s
    | none => .next s
  | none => .next s

/-- WRITE_CREDIT_GRANT (R342): waiting writes are acknowledged as the credit and their persistence let through. -/
def execWriteCreditGrant (s : State) : Out := .next s.goOn

/-- CREDIT_WAIT_TIMEOUT (R343): take data that waits for credit is persisted by flush extents. -/
def execCreditWaitTimeout (s : State) : Out :=
  let waits (a : Nat) : Bool := s.nv.writes.any (fun w => w.nsid = 1 && w.moved && !w.fua && w.app = a)
  .next (s.flushWhere (fun _ w => !w.acked && waits w.app)).goOn

/-! ### Reads (R336, R345, R513) -/

/-- The checks of R513 in their order, after SAFE; a transfer beyond MDTS, 2 MiB (R333), fails before them (DESIGN CHOICE, log 77). -/
def State.readCheck (s : State) (slba n : Nat) : Option Status :=
  if 512 < n then some stField
  else if s.takeLbas < slba + n then some stRange
  else if !s.keys.session || s.sp.foreign.isSome then some stDenied
  else if (lbaList slba n).any (fun l => (s.zone (zoneOf l)).st = .offline) then some stZoneOffline
  else if s.tapeBarred && (lbaList slba n).any s.tapeOnly then some stNotReady
  else none

/-- A read of the take namespace: it waits for what its LBAs need, and completes when they are all decided. -/
def State.takeReadCmd (s : State) (q slba n : Nat) (limited : Bool) : State :=
  match s.readCheck slba n with
  | some st => s.done q st
  | none => (s.modNv (fun v => v.setWait q (.read slba n limited))).readAll

/-- What a sidecar LBA reads as: the write area first, then the Carousel (R12). -/
def State.sideLba (s : State) (lba : Nat) : SideRead :=
  match NMap.find? s.car.sbuf lba with
  | some w => .data w.data
  | none => s.sideRead lba

/-- The LBA is found through the host memory buffer: C16 with the buffer in use, a fine-mapped extent, not in the write area (R318). -/
def State.viaHmb (s : State) (lba : Nat) : Bool :=
  s.pn pCSL_CONFIG = 16 && s.car.hmb = 2 && (NMap.find? s.car.sbuf lba).isNone
    && (match NMap.find? s.car.exts (lba / 256) with | some (.fine _ _) => true | _ => false)

/-- A read of the sidecar, its range accepted. Whether the host has left the buffer as the device wrote it is a free value: on a mismatch no
data is returned and the device stops using the buffer (R320). -/
def State.sideReadNow (s : State) (q slba n : Nat) : State :=
  let via := (lbaList slba n).any s.viaHmb
  let t := if via then s.drawn 1 else s
  let rs := (lbaList slba n).map s.sideLba
  if via && s.free 7 % 2 = 1 then ((t.modCar (fun c => { c with hmb := 0 })).raise 0x5D3 1 []).done q stNotReady
  else if rs.contains .unreadable then
    (t.modNv (fun v => { v with readCmds := v.readCmds + 1, mediaErrors := v.mediaErrors + 1 })).done q (stRead true)
  else
    (t.modNv (fun v => { v with readCmds := v.readCmds + 1, unitsRead := v.unitsRead + 8 * n })).complete q stOk 0 0
      (rs.flatMap (fun r => match r with | .data b => fitBytes 4096 b | _ => zeroBytes 4096))

/-- A read of the sidecar, at most 2 MiB (MDTS, R333). -/
def State.sideReadCmd (s : State) (q slba n : Nat) : State :=
  if 512 < n then s.done q stField else s.sideGate q slba n false (.hmb slba n 0 []) (fun t => t.sideReadNow q slba n)

/-- READ (R345, R513). -/
def execRead (h : Hdr) (nsid slba nlb : Nat) (limited : Bool) (s : State) : Out :=
  .next (s.ioNs h nsid (fun q t => t.takeReadCmd q slba (nlb + 1) limited) (fun q t => t.sideReadCmd q slba (nlb + 1))).goOn

/-! ### Deallocation (R312, R341) -/

/-- Deallocate a list of ranges, each checked before any changes: the highest LBA of all decides on the cap. -/
def State.deallocate (s : State) (q : Nat) (ranges : List (Nat × Nat)) : State :=
  let top := ranges.foldl (fun m r => if r.2 = 0 then m else max m (r.1 + r.2)) 0
  s.sideGate q 0 top true (.hmb 0 top 2 (ranges.flatMap (fun r => leBytes 8 r.1 ++ leBytes 8 r.2)))
    (fun t => (ranges.foldl (fun u r => u.sideDrop r.1 r.2) t).done q stOk)

/-- WRITE_ZEROES (R341): the range is deallocated. -/
def execWriteZeroes (h : Hdr) (nsid slba nlb : Nat) (s : State) : Out :=
  .next (s.ioNs h nsid (fun q t => t.done q stField) (fun q t => t.deallocate q [(slba, nlb + 1)])).goOn

/-- DATASET_MANAGEMENT (R341): only the Deallocate attribute acts. -/
def execDatasetManagement (h : Hdr) (nsid : Nat) (deallocate : Bool) (ranges : List (Nat × Nat)) (s : State) : Out :=
  .next (s.ioNs h nsid (fun q t => t.done q stField)
    (fun q t => if deallocate then t.deallocate q (ranges.take 256) else t.done q stOk)).goOn

/-- The ranges a waiting deallocation kept. -/
def readRanges : Nat → Bytes → List (Nat × Nat)
  | 0, _ => []
  | n + 1, b => if b.length < 16 then [] else (leAt b 0 8, leAt b 8 8) :: readRanges n (b.drop 16)

/-- Run again the sidecar commands that waited for the map (R319). -/
def State.runHmb (s : State) : State :=
  s.nv.held.foldl (fun t h =>
    match h.wait with
    | .hmb slba n op data =>
      if op = 0 then t.sideReadCmd h.seq slba n
      else if op = 2 then t.deallocate h.seq (readRanges 256 data)
      else t.sideWriteCmd h.seq slba n (op = 17) (if data.isEmpty then none else some data)
    | _ => t) s

/-! ### Zone management (R337) -/

/-- A zone action: sent to namespace 1, in a context that lets the namespace change (R22, R264). -/
def State.zoneCmd (s : State) (h : Hdr) (nsid : Nat) (body : Nat → State → State) : State :=
  s.ioNs h nsid (fun q t => if t.takeProtected then t.done q stProtected else body q t) (fun q t => t.done q stOpcode)

/-- The zone that starts at `slba`. -/
def State.onZone (s : State) (q slba : Nat) (act : Nat → State) : State :=
  if s.takeLbas ≤ slba then s.done q stRange
  else if slba % 65536 != 0 then s.done q stField
  else act (zoneOf slba)

/-- Open one zone explicitly. -/
def State.zoneOpenCmd (s : State) (q z : Nat) : State :=
  match (s.zone z).st with
  | .empty | .closed | .implicit | .explicit =>
    match (if (s.zone z).st.isOpen then none else s.openCheck z) with
    | some st => s.refuseTake q st
    | none => (s.openZone z true).done q stOk
  | .full | .readOnly | .offline => s.done q stZoneTransition

/-- Zones chosen by their record, in index order. -/
def State.zonesWhere (s : State) (p : Zone → Bool) : List Nat := (s.sp.zones.filter (fun e => p e.2)).map Prod.fst

/-- ZONE_OPEN (R337). With Select All every Closed zone is opened. -/
def execZoneOpen (h : Hdr) (nsid slba : Nat) (all : Bool) (s : State) : Out :=
  .next (s.zoneCmd h nsid (fun q t =>
    if all then
      let zs := t.zonesWhere (fun x => x.st = .closed)
      match zs.findSome? t.openCheck with
      | some st => t.refuseTake q st
      | none => (zs.foldl (fun u z => u.openZone z true) t).done q stOk
    else t.onZone q slba (fun z => t.zoneOpenCmd q z))).goOn

/-- ZONE_CLOSE (R337). With Select All every open zone is closed. -/
def execZoneClose (h : Hdr) (nsid slba : Nat) (all : Bool) (s : State) : Out :=
  .next (s.zoneCmd h nsid (fun q t =>
    if all then ((t.zonesWhere (fun x => x.st.isOpen)).foldl (fun u z => u.closeZone z) t).done q stOk
    else t.onZone q slba (fun z =>
      if (t.zone z).st.isOpen then (t.closeZone z).done q stOk
      else if (t.zone z).st = .closed then t.done q stOk
      else t.done q stZoneTransition))).goOn

/-- ZONE_FINISH (R337). With Select All every open or Closed zone becomes Full. -/
def execZoneFinish (h : Hdr) (nsid slba : Nat) (all : Bool) (s : State) : Out :=
  .next (s.zoneCmd h nsid (fun q t =>
    if all then ((t.zonesWhere (fun x => x.st.isActive)).foldl (fun u z => u.fullZone z false) t).done q stOk
    else t.onZone q slba (fun z =>
      if (t.zone z).st = .empty || (t.zone z).st.isActive then (t.fullZone z false).done q stOk
      else if (t.zone z).st = .full then t.done q stOk
      else t.done q stZoneTransition))).goOn

/-- ZONE_RESET (R337): only a zone whose write pointer is at its start, which becomes Empty. -/
def execZoneReset (h : Hdr) (nsid slba : Nat) (s : State) : Out :=
  .next (s.zoneCmd h nsid (fun q t => t.onZone q slba (fun z =>
    if (t.zone z).st.isActive && (t.zone z).wp = 0 then (t.closeZone z).done q stOk
    else if (t.zone z).st = .empty then t.done q stOk
    else t.done q stZoneTransition))).goOn

/-- ZONE_RESET_ALL (R337). -/
def execZoneResetAll (h : Hdr) (nsid : Nat) (s : State) : Out :=
  .next (s.zoneCmd h nsid (fun q t => ((t.zonesWhere (fun x => x.st.isActive && x.wp = 0)).foldl (fun u z => u.closeZone z) t).done q stOk)).goOn

/-- ZONE_OFFLINE (R337): Offline and Set Zone Descriptor Extension are refused. -/
def execZoneOffline (h : Hdr) (nsid _slba : Nat) (s : State) : Out :=
  .next (s.ioNs h nsid (fun q t => t.done q stField) (fun q t => t.done q stOpcode)).goOn

/-- The zone state a reporting option asks for. -/
def reportState : Nat → Option ZState
  | 1 => some .empty | 2 => some .implicit | 3 => some .explicit | 4 => some .closed | 5 => some .full | 6 => some .readOnly | 7 => some .offline
  | _ => none

/-- A 64-byte zone descriptor of the Zoned Namespace Command Set; attribute bit 0 for a zone that Take Mark finished (R337). -/
def State.zoneDesc (s : State) (z : Nat) : Bytes :=
  let x := s.zone z
  leBytes 1 2 ++ leBytes 1 (16 * x.st.code) ++ leBytes 1 x.byTakeMark.toNat ++ zeroBytes 5 ++ leBytes 8 65536 ++ leBytes 8 (65536 * z)
    ++ leBytes 8 (65536 * z + x.wp) ++ zeroBytes 32

/-- Report Zones from zone `z0` into `len` bytes: the header with the number of zones, then descriptors as far as they fit (R337). -/
def State.reportZones (s : State) (z0 len zrasf : Nat) (part : Bool) : Bytes :=
  let room := (len - 64) / 64
  let listed := s.sp.zones.filter (fun e => decide (z0 ≤ e.1) && decide (e.1 < s.sp.nz))
  let hit (z : Nat) : Bool := match reportState zrasf with | some st => (s.zone z).st = st | none => true
  let total :=
    if zrasf = 0 then s.sp.nz - z0
    else if zrasf = 1 then s.sp.nz - z0 - listed.countP (fun e => e.2.st != .empty)
    else listed.countP (fun e => hit e.1)
  let zs :=
    if zrasf ≤ 1 then
      ((List.range (min (s.sp.nz - z0) (room + (if zrasf = 1 then listed.length else 0)))).map (· + z0)).filter hit
    else (listed.filter (fun e => hit e.1)).map Prod.fst
  let out := zs.take room
  fitBytes len (leBytes 8 (if part then out.length else total) ++ zeroBytes 56 ++ out.flatMap s.zoneDesc)

/-- ZONE_MANAGEMENT_RECEIVE (R337): Report Zones; Extended Report Zones is refused. -/
def execZoneManagementReceive (h : Hdr) (nsid slba dwords zra zrasf : Nat) (part : Bool) (s : State) : Out :=
  .next (s.ioNs h nsid (fun q t =>
    if zra != 0 || decide (7 < zrasf) then t.done q stField
    else if t.takeLbas ≤ slba then t.done q stRange
    else t.complete q stOk 0 0 (t.reportZones (zoneOf slba) (4 * (dwords + 1)) zrasf part)) (fun q t => t.done q stOpcode)).goOn

/-! ### Flush, Spool Commit, Take Mark -/

/-- FLUSH (R346): acknowledged take data in no DS image goes to flush extents (R296); it completes once all it covers has persisted. -/
def execFlush (h : Hdr) (nsid : Nat) (s : State) : Out :=
  .next (s.ioCmd h (fun q t =>
    if (nsid = 1 && t.nv.css != 0) || nsid = 2 || nsid = 0xFFFFFFFF then
      t.modNv (fun v => v.setWait q (.flush (nsid != 2) (nsid != 1) t.nv.applied t.openApps))
    else t.done q stNamespace)).goOn

/-- SPOOL_COMMIT (R96, R347): open records are closed; it completes once every take write it covers is spool-committed. -/
def execSpoolCommit (h : Hdr) (nsid : Nat) (s : State) : Out :=
  .next (s.ioCmd h (fun q t =>
    if nsid = 1 then
      let zs := (t.sp.recs.filter (fun r => r.closed.isNone)).map (fun r => r.zone)
      (zs.foldl (fun u z => u.closeRec z false) t).modNv (fun v => v.setWait q (.spoolCommit t.nv.applied t.openApps))
    else t.done q stField)).goOn

/-- TAKE_MARK (R338). -/
def execTakeMark (h : Hdr) (nsid : Nat) (s : State) : Out :=
  .next (s.ioCmd h (fun q t =>
    if nsid != 1 then t.done q stField
    else if t.mag.ctx != .camera then t.done q stProtected
    else t.modNv (fun v => v.setWait q .takeMark))).goOn

end Sys2Proof.Machine
end

