-- ==== Sys2Proof/Machine/CarWork.lean ====
section
/-! DEFINITION. Work of the Carousel controller that several families share: erasing a die block (R304, R308), unmapping the whole sidecar
namespace (R341). -/

namespace Sys2Proof.Machine

/-- Erase a die block: its units are gone, its erase count rises, and it is free again; the change is journalled (R304, R308). -/
def State.eraseBlock (s : State) (d b : Nat) : State :=
  let t := (s.modCar (fun c => { c with units := c.units.filter (fun e => !(e.2.die = d && e.2.block = b)) })).modBlock d b (fun k =>
    { k with erases := k.erases + 1, use := 0, space := 0, next := 0, age := 0, temp := 0, rtc := 0 })
  t.mapCommit [.block d b (t.block d b)] []

/-- Die blocks that hold sidecar units. -/
def State.sideBlockList (s : State) : List (Nat × Nat) :=
  ((s.car.units.filter (fun e => e.2.kind.sidecar)).map (fun e => (e.2.die, e.2.block))).eraseDups

/-- Unmap every sidecar extent; data not yet persisted there counts no more (R312, R341). -/
def State.sideClear (s : State) : State :=
  (s.car.exts.foldl (fun t (e : Nat × Ext) => t.dropExtent e.1 (fun _ => true)) s).modCar (fun c => { c with sbuf := [] })

end Sys2Proof.Machine
end

