-- ==== Sys2Proof/Machine/Owner.lean ====
section
/-! DEFINITION. Owner access and key changes: NOR writes and what follows them (R260, R506, R511), Owner Challenge and Response (R266 to R269),
Key Deposit (R270), master key rotation and the erases that rest on it (R271 to R275), the TRNG (R281), key slots (R257). -/

namespace Sys2Proof.Machine

/-! ### Writes of the key record (R260, R511) -/

/-- The part of the record in force that one change of a key replaces. -/
def keyMerge (cur k : KeyRec) : KeyStep → KeyRec
  | .claim | .owner => { cur with owner := k.owner }
  | .escrow | .noEscrow => { cur with escrow := k.escrow }
  | .rotateNew => { cur with gen := k.gen, cur := k.cur, prev := k.prev }
  | .rotateEnd => { cur with prev := zeroBytes 48, escrow := k.escrow }

/-- The key record as a write puts it into the NOR: the record in force with the change, and the next sequence. -/
def State.keyImage (s : State) (act : NorAct) : KeyRec :=
  let c := s.krec
  let k := match act with
    | .key _ k st => keyMerge c k st
    | _ => c
  { k with seq := (c.seq + 1) % 2 ^ 32 }

/-- The session ends: staged parameter values are discarded; SERVICE is left by what serves the tape (R269, R480). -/
def State.endSession (s : State) : State :=
  if s.keys.session then { s.modKeys (fun k => { k with session := false }) with staged := [] } else s

/-! ### Cryptographic erase (R271 to R274) -/

/-- The take's key does not survive and its zones are Offline (R272). A slot that queued work still names keeps its key until that is done. -/
def State.eraseTakeKey (s : State) (t : Nat) : State :=
  let id := s.takeKey t
  let zs := (s.sp.zones.filter (fun e => e.2.take = t && e.2.st != .empty)).map Prod.fst
  let a := zs.foldl (fun u z =>
    (u.modZone z (fun x => { x with st := .offline, wp := 65536, ctx := none })).journalZone z) s
  let b := a.modSp (fun p => { p with takes := NMap.modify p.takes t (fun x => { x with erased := true }) })
  let c := (b.modKeys (fun k =>
    { k with
      medias := NMap.del k.medias id
      slots := if s.slotBound id then k.slots else k.slots.filter (fun e => !(decide (e.1 < 256) && e.2.id == id)) })).modNv (fun n =>
        { n with changedZones := (n.changedZones ++ zs).eraseDups })
  let d := c.indexCommit ((match NMap.find? c.sp.takes t with | some x => [.take t x] | none => []) ++ [.media id none])
  if zs.isEmpty then d else d.asyncEvent 2 0xEF 0xBF

/-- Every surviving key is wrapped under the new master key, and the journal gets the new entries and the erasures (R271 step 2). `old` and
`new` are the master keys. -/
def State.rewrapKeys (s : State) (old new : Bytes) : State :=
  let macs := s.keys.macs.map (fun e =>
    match entryKey old (macHead e.1 e.2.inst) e.2.wrapped with
    | some k => (e.1, { e.2 with wrapped := kwWrap new (macHead e.1 e.2.inst ++ k) })
    | none => e)
  let medias := s.keys.medias.map (fun e =>
    match entryKey old (mediaHead e.1 e.2.take) e.2.wrapped with
    | some k => (e.1, { e.2 with wrapped := kwWrap new (mediaHead e.1 e.2.take ++ k) })
    | none => e)
  let t := s.modKeys (fun k => { k with macs, medias })
  t.indexCommit (macs.map (fun (e : Nat × MacKey) => JRec.mac e.1 (some e.2) (t.keys.macCur = some e.1))
    ++ medias.map (fun (e : Nat × MediaKey) => JRec.media e.1 (some e.2)))

/-- No key of the cartridge survives (R273 step 1). -/
def State.dropKeys (s : State) : State :=
  (s.indexCommit (s.keys.macs.map (fun (e : Nat × MacKey) => JRec.mac e.1 none false) ++ s.keys.medias.map (fun (e : Nat × MediaKey) => JRec.media e.1 none))).modKeys
    (fun k => { k with macs := [], macCur := none, medias := [], slots := k.slots.filter (fun e => keptSlot e.1) })

/-- An index generation is due at the next park (R93, R272). -/
def State.dueGen (s : State) : State := (s.modSp (fun p => { p with genDue := true })).indexCommit [.gen s.sp.newest s.sp.lastGen true s.sp.sinceGen]

/-- A new initialisation: what is left of the take namespace goes, its count rises (R273 steps 2 to 4). -/
def State.initialise (s : State) : State :=
  let t := (s.clearTake).modSp (fun p => { p with initCount := (p.initCount + 1) % 65536, foreign := none })
  let dead := t.car.units.filter (fun e => (e.2.kind = .image || e.2.kind = .flush) && e.2.mapped)
  let u := ((t.modCar (fun c =>
    { c with units := dead.foldl (fun (m : NMap CUnit) (e : Nat × CUnit) => NMap.put m e.1 { e.2 with mapped := false }) c.units })).mapCommit
      (dead.map (fun (e : Nat × CUnit) => JRec.release e.1)) []).modRc (fun r => { r with idx := [] })
  (u.indexCommit [.wipe, u.counterRec]).dueGen

/-- Step 2 of a rotation, the new master key in force (R271). -/
def State.rotateKeys (s : State) (r : Rotation) (old : Bytes) : State :=
  let t := match r.take with
    | some k => s.eraseTakeKey k
    | none => s
  let u := if r.format then t.dropKeys else t.rewrapKeys old t.masterKey
  u.modKeys (fun k => { k with rot := some { r with step := 2 } })

/-! ### What follows a change of a key -/

/-- A change of a key has verified in a copy and is in force. -/
def State.keyApply (s : State) (q : Option Nat) (step : KeyStep) : State :=
  let fin (t : State) : State := match q with
    | some n => t.done n stOk
    | none => t
  match step with
  | .claim => fin (s.loadWrapped 258 kWrap s.krec.owner 0 1)
  | .owner => fin (s.loadWrapped 258 kWrap s.krec.owner 0 1).endSession
  | .escrow | .noEscrow => fin (s.loadWrapped 259 kWrap s.krec.escrow 8 1)
  | .rotateNew =>
    let old := s.masterKey
    let t := s.loadWrapped 257 kWrap s.krec.cur 8 1
    match t.keys.rot with
    | some r => t.rotateKeys r old
    | none => t
  | .rotateEnd =>
    let t := (s.loadWrapped 259 kWrap s.krec.escrow 8 1).modKeys (fun k => { k with rot := none })
    match s.keys.rot with
    | some r =>
      if r.format then fin t.initialise
      else if r.take.isSome then fin t.dueGen
      else fin (t.raise 0x7C5 1 [])
    | none => fin t

/-- What follows a write of `data` to a NOR area, of which a copy verified (`ok`) or none did (R506, R511). -/
def State.norDone (s : State) (area : Nat) (data : Bytes) (act : NorAct) (ok : Bool) : State :=
  let s1 := s.modNor (fun n => { n with failed := if ok then n.failed.filter (· != area) else if n.failed.contains area then n.failed else n.failed ++ [area] })
  let a := if ok then s1 else (s1.noteFault 8).raise 0x7F3 (norCause area) []
  let t :=
    if area = 1 then
      if ok then (a.modKeys (fun k => { k with krec := some (KeyRec.read data), recDirty := false })).modPw (fun p => { p with retFails := none })
      else a
    else a
  match act with
  | .plain | .boot => t
  | .auth q sct sc dnr dw0 =>
    let u := if ok then t
             else (t.modKeys (fun k => { k with recDirty := true })).modPw (fun p => { p with retFails := some (s.krec.fails, s.krec.lockLen) })
    u.complete q ⟨sct, sc, dnr⟩ dw0 0 []
  | .key q _ step =>
    if ok then t.keyApply q step
    else
      let u := if step = .rotateNew || step = .rotateEnd then t.modKeys (fun k => { k with rot := none }) else t
      match q with
      | some n => u.done n stInternal
      | none => u
  | .profile =>
    let u := t.modNor (fun n => { n with impBusy := 0, impStat := if ok then (5, 0, 0) else (3, 0, 0) })
    if ok then u.raise 0x7E3 1 [] else u
  | .patch q sct sc dnr =>
    if ok then (t.modNv (fun n => { n with fwSlot2 := some data, fwMarked := n.fwMarked || sc = stFwReset.sc })).done q ⟨sct, sc, dnr⟩
    else t.done q stInternal

/-- Change the key record: the write waits for its turn; with the NOR failed it fails in both copies at once (R506). -/
def State.keyWrite (s : State) (act : NorAct) : State :=
  if s.nor.dead then s.norDone 1 (s.keyImage act).bytes act false else s.norWrite 1 (s.keyImage act).bytes act

/-- Put one copy of a NOR area in place. -/
def State.putCopy (s : State) (area i : Nat) (data : Bytes) (both : Bool) : State :=
  s.modNor (fun n =>
    let c := NMap.get { c0 := none, c1 := none, newer := none } n.areas area
    let d : Copies := { c0 := if i = 0 then some data else c.c0, c1 := if i = 0 then c.c1 else some data, newer := if both then none else some i }
    { n with areas := NMap.put n.areas area d })

/-- Step 3 of a rotation once its journal records have persisted (R271). -/
def State.settleRot (s : State) : State :=
  match s.keys.rot with
  | some r =>
    if r.step = 2 && !s.car.journal.any (fun c => c.index) then
      let k := { s.krec with prev := zeroBytes 48, escrow := r.escrow.getD s.krec.escrow }
      (s.modKeys (fun y => { y with rot := some { r with step := 3 } })).keyWrite (.key r.seq k .rotateEnd)
    else s
  | none => s

/-- NOR_PROGRAM_COMPLETE (R260, R506): a write of one copy verified or failed. The older copy comes first; after the other one the write
is done. In DRAIN the copy under way is finished and the other one not started (R414). -/
def execNorProgramComplete (area copy : Nat) (ok : Bool) (s : State) : Out :=
  match s.nor.ops.find? (fun o => o.area = area) with
  | none => .next s
  | some o =>
    let want := if o.r0.isNone then o.first else 1 - o.first
    if copy != want || !s.mag.st.alive then .next s
    else if s.mag.st = .drain then
      let data := if area = 1 && o.r0.isNone then (s.keyImage o.act).bytes else o.data
      .next (((if ok then s.putCopy area copy data (o.r0 = some true) else s).modNor (fun n => { n with ops := n.ops.erase o })).goOn)
    else
      match o.r0 with
      | none =>
        let data := if area = 1 then (s.keyImage o.act).bytes else o.data
        let t := if ok then s.putCopy area copy data false else s
        .next (t.modNor (fun n => { n with ops := n.ops.map (fun x => if x = o then { o with r0 := some ok, data } else x) })).goOn
      | some r =>
        let t := if ok then s.putCopy area copy o.data r else s
        .next (((t.modNor (fun n => { n with ops := n.ops.erase o })).norDone area o.data o.act (r || ok)).settleRot).goOn

/-! ### Authentication (R266 to R269) -/

/-- An authentication failure: counted, with a lockout from CPH_AUTH_TRIES on; the command completes with Access Denied once the record has been
written (R268). -/
def State.authFail (s : State) (q : Nat) : State :=
  let k := s.krec
  let n := min 65535 (k.fails + 1)
  let tries := s.pn pCPH_AUTH_TRIES
  let lock := decide (tries ≤ n)
  let len := if 11 ≤ n - tries then 86400 else min 86400 (60 * 2 ^ (n - tries))
  let k' := if lock then { k with fails := n, lockLen := len } else { k with fails := n }
  let t := (s.modKeys (fun y => { y with krec := some k', lockout := if lock then len * 32768 else y.lockout })).raise 0x7C1 1 []
  (if lock then t.raise 0x7C1 2 [] else t).keyWrite (.auth q stDenied.sct stDenied.sc stDenied.dnr 0)

/-- Remaining lockout, seconds. -/
def State.lockoutSec (s : State) : Nat := (s.keys.lockout + 32767) / 32768

/-- The 80 bytes of Owner Challenge (R266). -/
def State.challengeData (s : State) (nonce : Bytes) (num : Nat) : Bytes :=
  fitBytes 32 nonce ++ leBytes 4 num ++ leBytes 4 s.instNo ++ leBytes 8 Config.fuseId ++ leBytes 1 s.claimed.toNat
    ++ leBytes 1 (min 255 s.krec.fails) ++ zeroBytes 14 ++ fitBytes 16 s.keys.proof.2

/-- OWNER_CHALLENGE (R266, R281). -/
def execOwnerChallenge (h : Hdr) (s : State) : Out :=
  .next (s.adminCmd h true (fun q t =>
    if t.keys.lockout != 0 then t.complete q stDenied t.lockoutSec 0 []
    else if !t.keys.trngOk then t.done q stSequence
    else
      let nonce := t.trngBytes 32
      let u := ((t.drawn 1).endSession).modKeys (fun k => { k with challenges := (k.challenges + 1) % 2 ^ 32, challenge := some nonce })
      u.complete q stOk 0 0 (u.challengeData nonce u.keys.challenges))).goOn

/-- OWNER_CHALLENGE_QUERY (R266). -/
def execOwnerChallengeQuery (h : Hdr) (s : State) : Out :=
  .next (s.adminCmd h true (fun q t =>
    if t.keys.lockout != 0 then t.complete q stDenied t.lockoutSec 0 []
    else t.complete q stOk 0 0 (t.challengeData [] t.keys.proof.1))).goOn

/-- The message whose CMAC is a response or a device proof (R267). -/
def ownerMessage (tag : String) (a b : Bytes) (num inst : Nat) : Bytes := ascii tag ++ fitBytes 32 a ++ fitBytes 32 b ++ leBytes 4 num ++ leBytes 4 inst

/-- OWNER_RESPONSE (R267, R268, R511). -/
def execOwnerResponse (h : Hdr) (data : Bytes) (s : State) : Out :=
  .next (s.adminCmd h true (fun q t =>
    match t.keys.challenge with
    | none => t.done q stSequence
    | some nonce =>
      let host := slice data 0 32
      let num := t.keys.challenges
      let u := t.modKeys (fun k => { k with challenge := none })
      if t.claimed && leAt data 0x20 4 = num
          && slice data 0x28 16 = cmac t.ownerKey (ownerMessage "UHOR" nonce host num t.instNo) then
        let v := u.modKeys (fun k =>
          { k with session := true, proof := (num, cmac t.ownerKey (ownerMessage "UHOD" host nonce num t.instNo)) })
        if t.krec.fails = 0 && !t.keys.recDirty then v.done q stOk
        else (v.modKeys (fun k => { k with krec := some { t.krec with fails := 0 } })).keyWrite (.auth q 0 0 false 0)
      else u.authFail q)).goOn

/-- CHALLENGE_EXPIRY (R267). -/
def execChallengeExpiry (s : State) : Out := .next (s.modKeys (fun k => { k with challenge := none }))

/-- A lockout ends: while Ringmaster runs its length in the key record is cleared (R268). -/
def State.lockoutEnd (s : State) : State :=
  let t := s.modKeys (fun k => { k with lockout := 0 })
  if s.mag.st.alive && s.mag.st != .drain && s.krec.lockLen != 0 then
    (t.modKeys (fun k => { k with krec := some { s.krec with lockLen := 0 } })).keyWrite .plain
  else t

/-- LOCKOUT_EXPIRY (R268). -/
def execLockoutExpiry (s : State) : Out := .next (if s.keys.lockout = 0 then s else s.lockoutEnd)

/-- SESSION_IDLE_TIMEOUT (R269). -/
def execSessionIdleTimeout (s : State) : Out := .next s.endSession.goOn

/-- TRNG_HEALTH_FAILURE (R281): a spell begins. -/
def execTrngHealthFailure (repetition proportion : Bool) (s : State) : Out :=
  .next (
    if s.keys.trngOk && (repetition || proportion) then
      ((s.noteFault 0x0F).modKeys (fun k => { k with trngOk := false, spells := min 255 (k.spells + 1) })).raise 0x7C2 (if repetition then 1 else 2) []
    else s)

/-- TRNG_RETEST (R281): the spell ends at the first retest that both tests pass. -/
def execTrngRetest (pass : Bool) (s : State) : Out := .next (if pass then (s.modKeys (fun k => { k with trngOk := true })).goOn else s)

/-- KEY_SLOT_LOAD (R257, R258). -/
def execKeySlotLoad (keyId : Nat) (s : State) : Out := .next (s.keySlotLoad keyId).goOn

/-! ### Key Deposit (R270 to R275) -/

/-- A command that has not completed waits for the write of the key record. -/
def State.holdForRecord (s : State) (q : Nat) : State :=
  s.modNv (fun n => { n with held := n.held.map (fun x => if x.seq = q && x.wait = .running then { x with wait := .keyRecord } else x) })

/-- A Key Deposit operation other than Claim: without a session it is denied. -/
def State.deposit (s : State) (h : Hdr) (body : Nat → State → State) : Out :=
  .next (s.adminCmd h false (fun q t =>
    if !t.keys.session then t.done q stDenied
    else (body q t).holdForRecord q)).goOn

/-- The key field of a deposit. -/
def depositKey (data : Bytes) : Bytes := slice data 0x10 40

/-- Unwrap the key field under the owner key; a failure counts as an authentication failure (R270). -/
def State.withDeposit (s : State) (q : Nat) (data : Bytes) (body : Bytes → State → State) : State :=
  match kwUnwrap s.ownerKey (depositKey data) with
  | some key => body key s
  | none => (s.raise 0x7C3 4 []).authFail q

/-- KEY_DEPOSIT_CLAIM (R270). -/
def execKeyDepositClaim (h : Hdr) (data : Bytes) (s : State) : Out :=
  .next (s.adminCmd h true (fun q t =>
    if t.claimed then t.done q stSequence
    else
      let k := { t.krec with owner := kwWrap kWrap (slice data 0x10 32) }
      (t.modNv (fun n => n.setWait q .keyRecord)).keyWrite (.key (some q) k .claim))).goOn

/-- KEY_DEPOSIT_REPLACE_OWNER_KEY (R270). -/
def execKeyDepositReplaceOwnerKey (h : Hdr) (data : Bytes) (s : State) : Out :=
  s.deposit h (fun q t => t.withDeposit q data (fun key u =>
    u.keyWrite (.key (some q) { u.krec with owner := kwWrap kWrap key } .owner)))

/-- The escrow field of the key record for a label and a key. -/
def escrowField (data key : Bytes) : Bytes := kwWrap kWrap (slice data 0 8 ++ key)

/-- KEY_DEPOSIT_ESCROW_KEY (R270). -/
def execKeyDepositEscrowKey (h : Hdr) (data : Bytes) (s : State) : Out :=
  s.deposit h (fun q t => t.withDeposit q data (fun key u =>
    u.keyWrite (.key (some q) { u.krec with escrow := escrowField data key } .escrow)))

/-- KEY_DEPOSIT_REMOVE_ESCROW_KEY (R270). -/
def execKeyDepositRemoveEscrowKey (h : Hdr) (_data : Bytes) (s : State) : Out :=
  s.deposit h (fun q t => t.keyWrite (.key (some q) { t.krec with escrow := zeroBytes 48 } .noEscrow))

/-- Start a rotation: step 1 writes the new master key beside the old one (R271). -/
def State.startRotation (s : State) (seq take : Option Nat) (format : Bool) (escrow : Option Bytes) : State :=
  let k := s.krec
  let gen := (k.gen + 1) % 2 ^ 32
  let new := { k with gen, cur := kwWrap kWrap (leBytes 4 k.inst ++ leBytes 4 gen ++ s.trngBytes 32), prev := k.cur }
  ((s.drawn 1).modKeys (fun y => { y with rot := some { seq, step := 1, take, format, escrow } })).keyWrite (.key seq new .rotateNew)

/-- A rotation cannot start: one is under way, or the TRNG fails (R281). -/
def State.noRotation (s : State) : Bool := s.keys.rot.isSome || !s.keys.trngOk

/-- KEY_DEPOSIT_ERASE_TAKE (R272). -/
def execKeyDepositEraseTake (h : Hdr) (data : Bytes) (s : State) : Out :=
  s.deposit h (fun q t =>
    let k := leAt data 0x08 4
    if t.mag.st != .service || !((NMap.find? t.sp.takes k).map (fun x => x.closed)).getD false || t.noRotation then t.done q stSequence
    else if allZero (depositKey data) then t.startRotation (some q) (some k) false none
    else t.withDeposit q data (fun key u => u.startRotation (some q) (some k) false (some (escrowField data key))))

/-- The newest complete generation whose escrow block carries this label and yields its keys, with every tag verified (R263, R275). -/
def State.escrowGen (s : State) (label key : Bytes) : Option (Nat × Nat × Bytes × List (Nat × Nat × Bytes) × List (Nat × Nat × Bytes)) :=
  s.gensFound.findSome? (fun (num, w, cs) => cs.findSome? (fun ds =>
    let c := genContent ds
    let e := contentEscrow c
    if e.isEmpty || slice e 0x14 8 != label || !indexHeadOk c then none
    else
      match blockMacs key e, blockMedias key e with
      | some a, some b => if genTagsOk ds a then some (num, w, c, a, b) else none
      | _, _ => none))

/-- Generations found whose escrow block carries the label while an entry of it fails its unwrap under the deposited key (R258, R262). -/
def State.escrowFails (s : State) (label key : Bytes) : Nat :=
  s.gensFound.countP (fun (_, _, cs) => !cs.isEmpty && cs.all (fun ds =>
    let e := contentEscrow (genContent ds)
    !e.isEmpty && slice e 0x14 8 = label && indexHeadOk (genContent ds) && ((blockMacs key e).isNone || (blockMedias key e).isNone)))

/-- EVT 0x7C3 for each of them. -/
def State.tellEscrow (s : State) (label key : Bytes) : State := (List.range (s.escrowFails label key)).foldl (fun t _ => t.raise 0x7C3 3 []) s

/-- KEY_DEPOSIT_RECOVER_AND_ADOPT (R275); each generation whose escrow block carries the label and fails its unwrap raises EVT 0x7C3 (R258). -/
def execKeyDepositRecoverAndAdopt (h : Hdr) (data : Bytes) (s : State) : Out :=
  s.deposit h (fun q t =>
    if t.mag.st != .service || t.mag.unloaded || t.noRotation then t.done q stSequence
    else t.withDeposit q data (fun key v =>
      let u := v.tellEscrow (slice data 0 8) key
      match u.escrowGen (slice data 0 8) key with
      | none => u.done q stField
      | some (num, w, c, macs, medias) =>
        if 12 ≤ macs.length then u.done q stCapacity
        else ((((u.useGen num w c macs medias).newMacKey).journalCartridge).dueGen).done q stOk))

end Sys2Proof.Machine
end

