-- ==== Sys2Proof/Machine/HostCtl.lean ====
section
/-! DEFINITION. The controller: resets (R326, R512), enabling and shutdown (R325, R327), queues and doorbells (R328, R332, R349),
arbitration and fetch (R329, R330), Abort (R348), Asynchronous Event Request (R358), the PCI Express link (R323, R324, R359). -/

namespace Sys2Proof.Machine

/-! ### Controller reset (R326, R512) -/

/-- The state of the controller after every reset: CC is 0, no queue, no held command. Features, the Error log and the counters stay. -/
def Nvme.resetState (n : Nvme) : Nvme :=
  { n with en := false, ams := 0, css := 0, shn := 0, shst := 0, rdy := false, pp := false, sqs := [], cqs := [], held := [], rr := [],
           wrr := (1, 0), writes := [], masked := [], asyncQ := [], fwBuf := [] }

/-- Zones after a reset: every open one becomes Closed, or Empty with nothing written (R326). -/
def State.closeOpenZones (s : State) : State := (s.zonesWhere (fun x => x.st.isOpen)).foldl (fun t z => t.closeZone z) s

/-- Compute work at a controller reset: running invocations are stopped and queued ones dropped; instances stay loaded (R377). -/
def State.dropInvocations (s : State) : State :=
  s.modComp (fun c =>
    { c with queue := [], cores := c.cores.map (fun e =>
      (e.1, if e.2.run.isSome then { e.2 with run := none, dma := [], exiting := none, wfi := false } else e.2)) })

/-- The activity without the command that asked for it. -/
def Task.uncommanded : Task → Task
  | .tensionOn _ => .tensionOn none
  | .tensionOff _ => .tensionOff none
  | .park _ e => .park none e
  | .locate _ t => .locate none t
  | .shuttle _ => .shuttle none
  | .calibrate _ => .calibrate none
  | .unload _ => .unload none
  | .load _ => .load none
  | t => t

/-- At a controller reset a transport command that has not begun to act is dropped; one that has goes on without its command, as does what the
device asked for itself (R27, R326 step 2). -/
def State.dropTransport (s : State) : State :=
  let begun := s.ctl.stage != 0 || s.ctl.begun || s.ctl.aim.isSome
  s.modCtl (fun c =>
    { c with tasks := ((c.tasks.take (if begun then 1 else 0)).map Task.uncommanded)
        ++ ((c.tasks.drop (if begun then 1 else 0)).filter (fun t => t.uncommanded = t)) })

/-- A controller reset (R326): its cause is that of EVT 0x601. Writes whose data has not been moved apply no LBA. The session ends; a marked
patch package activates when the tape does not move (R351). What ran on the tape goes on without its command (R27). -/
def State.controllerReset (s : State) (cause : Nat) : State :=
  let a := (((s.modNv Nvme.resetState).closeOpenZones.dropInvocations).modCar (fun c => { c with hmb := 0 })).endSession
  let b := (a.raise 0x601 cause []).dropTransport.dropUnwanted
  if b.nv.fwMarked && !b.moves then b.activateFw false else b

/-! ### Enabling and shutdown -/

/-- The controller is ready once it is enabled and BOOT has ended, with no restart on its way (R325, R438, R462). -/
def State.readyNow (s : State) : Bool := s.mag.st.alive && s.mag.st != .boot && s.mag.st != .drain && s.mag.restart = 0

/-- CC_EN_SET (R325): the admin queues come into being; `asqs` and `acqs` are 0's based. -/
def execCcEnSet (ams css asqs acqs : Nat) (s : State) : Out :=
  .next (
    if s.nv.en || !s.mag.st.alive || s.mag.st = .drain then s
    else
      s.modNv (fun n =>
        { n with
          en := true, ams, css, rdy := s.readyNow
          sqs := NMap.put n.sqs 0 { size := asqs + 1, cq := 0, cls := 0, head := 0, tail := 0, frozen := false }
          cqs := NMap.put n.cqs 0 { size := acqs + 1, head := 0, tail := 0, vector := 0, ien := true, entries := [] } }))

/-- CC_EN_CLEAR (R326): CSTS.CFS clears with it (R512). -/
def execCcEnClear (s : State) : Out :=
  .next (
    if !s.mag.st.alive then s
    else if s.nv.en then ((s.modNv (fun n => { n with cfs := false })).controllerReset 1).goOn
    else s.modNv (fun n => { n with cfs := false }))

/-- SHUTDOWN_NORMAL (R327): fetching stops; the shutdown is complete once what has started and persisted is all there is. -/
def execShutdownNormal (s : State) : Out :=
  .next (
    if s.nv.en && s.nv.shn = 0 then
      ((s.modNv (fun n => { n with shn := 1, shst := 1 })).raise 0x602 1 []
        |>.flushWhere (fun _ w => w.acked)).goOn
    else s)

/-- SHUTDOWN_ABRUPT (R327): started commands are abandoned as at a reset, and the shutdown is complete at once. -/
def execShutdownAbrupt (s : State) : Out :=
  .next (
    if s.nv.en && s.nv.shst != 2 then
      let t := ((s.modNv (fun n => { n with shn := 2, shst := 2, held := n.held.filter (fun h => h.wait = .aer), writes := [] })).closeOpenZones.dropInvocations)
      ((t.raise 0x602 2 []).dropUnwanted).goOn
    else s)

/-- PERST_N_ASSERT (R326). -/
def execPerstNAssert (s : State) : Out := .next (if s.mag.st.alive then (s.controllerReset 2).goOn else s)

/-- FUNCTION_LEVEL_RESET (R326). -/
def execFunctionLevelReset (s : State) : Out := .next (if s.mag.st.alive then (s.controllerReset 3).goOn else s)

/-! ### The link (R323, R324, R359) -/

/-- LINK_TRAINED (R323): reported in HIF_LINK_STAT; below x4 or 16 GT/s it raises an event. A rate above HIF_LINK_MAX is not offered. -/
def execLinkTrained (rate width : Nat) (flit : Bool) (s : State) : Out :=
  .next (
    if !s.mag.st.alive || s.pn pHIF_LINK_MAX < rate then s
    else
      let t := s.modNv (fun n => { n with link := some (rate, width, flit), linkPower := 0, wake := false })
      if rate < 4 || width < 4 then t.raise 0x600 1 [] else t)

/-- LINK_DOWN (R323): one that the host did not request acts as a controller reset. -/
def execLinkDown (requested : Bool) (s : State) : Out :=
  .next (
    if s.nv.link.isNone then s
    else
      let t := s.modNv (fun n => { n with link := none })
      if requested then t else ((t.raise 0x600 2 []).controllerReset 4).goOn)

/-- LINK_POWER_STATE_CHANGE (R17, R324): leaving L2 releases WAKE_N. -/
def execLinkPowerStateChange (state : Nat) (s : State) : Out :=
  .next (if s.nv.link.isNone || 4 < state then s else s.modNv (fun n => { n with linkPower := state, wake := n.wake && state = 4 }))

/-- UNCORRECTABLE_AER_ERROR (R359). -/
def execUncorrectableAerError (s : State) : Out := .next (if s.mag.st.alive then s.raise 0x600 3 [] else s)

/-! ### Queues (R328, R349) -/

/-- CREATE_IO_COMPLETION_QUEUE (R328, R468). -/
def execCreateIoCompletionQueue (h : Hdr) (qid size vector : Nat) (ien pc : Bool) (s : State) : Out :=
  .next (s.adminCmd h false (fun q t =>
    if qid = 0 || 1024 < qid || (NMap.find? t.nv.cqs qid).isSome then t.done q stQueueId
    else if size = 0 || 4096 < size + 1 then t.done q stQueueSize
    else if !pc then t.done q stField
    else if 2047 < vector || (ien && t.pn pEVT_MSIX_VEC != 0 && vector = t.pn pEVT_MSIX_VEC) then t.done q stVector
    else
      (t.modNv (fun n => { n with cqs := NMap.put n.cqs qid { size := size + 1, head := 0, tail := 0, vector, ien, entries := [] } })).done q stOk)).goOn

/-- CREATE_IO_SUBMISSION_QUEUE (R328). -/
def execCreateIoSubmissionQueue (h : Hdr) (qid size prio cqid : Nat) (pc : Bool) (s : State) : Out :=
  .next (s.adminCmd h false (fun q t =>
    if qid = 0 || 1024 < qid || (NMap.find? t.nv.sqs qid).isSome || cqid = 0 || (NMap.find? t.nv.cqs cqid).isNone then t.done q stQueueId
    else if size = 0 || 4096 < size + 1 then t.done q stQueueSize
    else if !pc then t.done q stField
    else
      (t.modNv (fun n => { n with sqs := NMap.put n.sqs qid { size := size + 1, cq := cqid, cls := prio, head := 0, tail := 0, frozen := false } })).done
        q stOk)).goOn

/-- The queue is deleted: every command still held from it gets the aborted status once; one whose completion is built already keeps it
(R349); one fetched whose content is still to come gets it when it comes. A write whose data has not been moved applies no LBA. -/
def State.dropSq (s : State) (qid : Nat) : State :=
  let hs := s.nv.held.filter (fun h => h.sq = qid)
  let t := hs.foldl (fun u h =>
    match h.wait with
    | .posting _ | .aborting _ => u
    | _ => if h.cid.isNone then u else u.done h.seq stSqDeleted) s
  (t.modNv (fun n =>
    { n with
      writes := n.writes.filter (fun w => hs.all (fun h => h.seq != w.seq))
      sqs := NMap.modify n.sqs qid (fun x => { x with frozen := true }) })).modComp (fun c =>
        { c with
          queue := c.queue.filter (fun v => hs.all (fun h => h.seq != v.seq))
          cores := c.cores.map (fun e => (e.1,
            match e.2.run with
            | some v => if hs.any (fun h => h.seq = v.seq) then { e.2 with run := none, dma := [], exiting := none, wfi := false } else e.2
            | none => e.2)) })

/-- DELETE_IO_SUBMISSION_QUEUE (R349): the deletion completes after every completion of the queue's commands has been posted. -/
def execDeleteIoSubmissionQueue (h : Hdr) (qid : Nat) (s : State) : Out :=
  .next (s.adminCmd h false (fun q t =>
    if qid = 0 || (NMap.find? t.nv.sqs qid).isNone then t.done q stQueueId
    else ((t.dropSq qid).dropUnwanted).modNv (fun n => n.setWait q (.deleteSq qid)))).goOn

/-- DELETE_IO_COMPLETION_QUEUE (R349). -/
def execDeleteIoCompletionQueue (h : Hdr) (qid : Nat) (s : State) : Out :=
  .next (s.adminCmd h false (fun q t =>
    if qid = 0 || (NMap.find? t.nv.cqs qid).isNone then t.done q stQueueId
    else if t.nv.sqs.any (fun e => e.2.cq = qid) then t.done q stQueueDelete
    else (t.modNv (fun n => { n with cqs := NMap.del n.cqs qid })).done q stOk)).goOn

/-! ### Doorbells (R332) -/

/-- An invalid doorbell: EVT 0x603 names the queue, and the Error event is reported. -/
def State.badDoorbell (s : State) (cause qid : Nat) (hit : Nat → Sq → Bool) : State :=
  (((s.noteFault 0x0E).modNv (fun n => { n with sqs := n.sqs.map (fun e => (e.1, if hit e.1 e.2 then { e.2 with frozen := true } else e.2)) })).raise 0x603 cause
    (leBytes 2 qid)).asyncEvent 0 1 1

/-- SQ_TAIL_DOORBELL (R332). -/
def execSqTailDoorbell (qid value : Nat) (s : State) : Out :=
  .next (
    if !s.nv.rdy then s
    else
      match NMap.find? s.nv.sqs qid with
      | none => s.badDoorbell 1 qid (fun i _ => i = qid)
      | some x =>
        let new := (value + x.size - x.tail) % x.size
        if x.size ≤ value || x.size ≤ x.waiting + new then s.badDoorbell 1 qid (fun i _ => i = qid)
        else s.modNv (fun n => { n with sqs := NMap.put n.sqs qid { x with tail := value } }))

/-- Post what waits for room in a completion queue, oldest first. -/
def State.postWaiting (s : State) (cqid : Nat) : State :=
  s.nv.held.foldl (fun t h =>
    match h.wait with
    | .posting e | .aborting e => if (t.nv.cqOf e.sq).map Prod.fst = some cqid then t.post h.seq e else t
    | _ => t) s

/-- CQ_HEAD_DOORBELL (R332): the entries up to the new head are released. -/
def execCqHeadDoorbell (qid value : Nat) (s : State) : Out :=
  .next (
    if !s.nv.rdy then s
    else
      match NMap.find? s.nv.cqs qid with
      | none => s.badDoorbell 2 qid (fun _ _ => false)
      | some c =>
        let k := (value + c.size - c.head) % c.size
        if c.size ≤ value || c.entries.length < k then s.badDoorbell 2 qid (fun _ x => x.cq = qid)
        else ((s.modNv (fun n => { n with cqs := NMap.put n.cqs qid { c with head := value, entries := c.entries.drop k } })).postWaiting qid).goOn)

/-! ### Arbitration (R330) -/

/-- Weight of a class, 1 high, 2 medium, 3 low: Feature 01h, 0's based. -/
def Nvme.weight (n : Nvme) (cls : Nat) : Nat :=
  let v := n.feature 0 0x01
  1 + (if cls = 1 then bitsOf v 31 24 else if cls = 2 then bitsOf v 23 16 else bitsOf v 15 8)

/-- Commands in a row from one queue: 2 to the arbitration burst; 7 sets no limit. -/
def Nvme.burst (n : Nvme) : Nat := let b := n.feature 0 0x01 % 8; if b = 7 then 8192 else 2 ^ b

/-- The queue served next in a ring of queues: the last one while its burst lasts, else the next one round. -/
def Nvme.ring (n : Nvme) (key : Nat) (cands : List Nat) : Option (Nat × Nvme) :=
  let last := NMap.get 0 n.rr key
  let left := NMap.get 0 n.rr (8 + key)
  if cands.contains last && left != 0 then some (last, { n with rr := NMap.put n.rr (8 + key) (left - 1) })
  else
    match (cands.find? (fun c => decide (last < c))).or cands.head? with
    | some c => some (c, { n with rr := NMap.put (NMap.put n.rr key c) (8 + key) (n.burst - 1) })
    | none => none

/-- The queue to fetch from: round robin over all queues, or the admin queue, the urgent class, and the others by weight (R330). -/
def State.arbitrate (s : State) : Option (Nat × Nvme) :=
  let n := s.nv
  let can := (n.sqs.filter (fun e => s.fetchable e.1 e.2))
  let qs (p : Nat → Sq → Bool) : List Nat := (can.filter (fun e => p e.1 e.2)).map Prod.fst
  if !n.wrrOn then n.ring 4 (qs (fun _ _ => true))
  else if (qs (fun i _ => i = 0)) != [] then some (0, n)
  else if (qs (fun _ x => x.cls = 0)) != [] then n.ring 0 (qs (fun _ x => x.cls = 0))
  else
    let have_ (c : Nat) : Bool := (qs (fun _ x => x.cls = c)) != []
    let cur := n.wrr.1
    if n.wrr.2 != 0 && have_ cur then ({ n with wrr := (cur, n.wrr.2 - 1) }).ring cur (qs (fun _ x => x.cls = cur))
    else
      match [cur % 3 + 1, (cur + 1) % 3 + 1, (cur + 2) % 3 + 1].find? have_ with
      | some c => ({ n with wrr := (c, n.weight c - 1) }).ring c (qs (fun _ x => x.cls = c))
      | none => none

/-- COMMAND_FETCH (R329, R330). -/
def execCommandFetch (s : State) : Out :=
  .next (
    match s.arbitrate with
    | some (qid, n) =>
      match NMap.find? n.sqs qid with
      | some q => ({ s with nv := n }).fetchFrom qid q
      | none => s
    | none => s)

/-! ### Abort and Asynchronous Event Request -/

/-- An Abort whose completion waits to be posted. -/
def Held.isAborting (x : Held) : Bool :=
  match x.wait with
  | .aborting _ => true
  | _ => false

/-- The Abort with fetch number `q` waits to be posted as an Abort. -/
def Held.toAborting (q : Nat) (x : Held) : Held :=
  match x.wait with
  | .posting e => if x.seq = q then { x with wait := .aborting e } else x
  | _ => x

/-- ABORT (R348): never aborts; Dword 0 bit 0 says so. A fifth outstanding one is refused. -/
def execAbort (h : Hdr) (_sqid _cid : Nat) (s : State) : Out :=
  .next (s.adminCmd h false (fun q t =>
    if 4 ≤ t.nv.held.countP Held.isAborting then t.done q stAbortLimit
    else (t.complete q stOk 1 0 []).modNv (fun n => { n with held := n.held.map (Held.toAborting q) }))).goOn

/-- ASYNCHRONOUS_EVENT_REQUEST (R358): takes the oldest event that waits, or stays outstanding, at most 16 at once. -/
def execAsynchronousEventRequest (h : Hdr) (s : State) : Out :=
  .next (s.adminCmd h false (fun q t =>
    match t.nv.asyncQ with
    | (ty, info, log) :: rest =>
      (t.modNv (fun n => { n with asyncQ := rest, masked := (256 * ty + info) :: n.masked })).complete q stOk (ty + 256 * info + 65536 * log) 0 []
    | [] =>
      if 16 ≤ t.nv.held.countP (fun x => x.wait = .aer) then t.done q stAerLimit
      else t.modNv (fun n => n.setWait q .aer))).goOn

end Sys2Proof.Machine
end

