-- ==== Sys2Proof/Machine/Params.lean ====
section
/-! DEFINITION. Rules of the parameter space: commit groups (R480 and the block chapters), conditions of elements (R477), busy conditions
(R478, R482, R485), group conditions (R481), the check of a write and what it changes (R484). -/

namespace Sys2Proof.Machine

/-- A power of two. -/
def pow2 (n : Int) : Bool := (List.range 24).any (fun k => n = 2 ^ k)

/-- Number of bits set among the low `w`. -/
def popCount (w n : Nat) : Nat := (List.range w).countP (fun i => Nat.testBit n i)

/-! ### Commit groups -/

/-- The commit group of an RW-S element, as the first PID and lowest index among its members: crawl pair (R83), FIFO geometry (R113), zone
group and equaliser group (R150), banks, reel tables, radius, schedule and CTL_MDL (R200), geometry descriptors (R228), thresholds
(R322), power bank and temperature limits (R425); any other element is a group of its own. -/
def groupOf (pid i : Nat) : Nat × Nat :=
  if pid = pTFM_CRAWL_ENTRY || pid = pTFM_CRAWL_EXIT then (pTFM_CRAWL_ENTRY, 0)
  else if pid = pSFQ_DEPTH || pid = pSFQ_EXT_SIZE then (pSFQ_DEPTH, 0)
  else if pid = pTRC_ZEDGE || pid = pTRC_ZTAB then (pTRC_ZEDGE, 0)
  else if pid = pTRC_TGT_SEL || pid = pTRC_TGT_USER || pid = pTRC_FIR_INIT then (pTRC_TGT_SEL, 0)
  else if pid = pCTL_SEC_CNT then (pCTL_SEC_CNT, i)
  else if pid = pCTL_COEF then (pCTL_SEC_CNT, i / 40)
  else if pid = pCTL_EXP then (pCTL_SEC_CNT, i / 8)
  else if pid = pCTL_AFF then (pCTL_SEC_CNT, i)
  else if pid = pCTL_FC_TAB then (pCTL_FC_TAB, i / 1024 * 1024)
  else if pid = pCTL_RAD_MIN || pid = pCTL_RAD_MAX || pid = pCTL_RGN_HYST then (pCTL_RAD_MIN, 0)
  else if pid = pCTL_PHASE || pid = pCTL_AUX_INS || pid = pCTL_AUX_NODE then (pCTL_PHASE, 0)
  else if pid = pCTL_MDL then (pCTL_MDL, 0)
  else if pid = pCMP_GEOM then (pCMP_GEOM, i / 8 * 8)
  else if pid = pCSL_RT_TAB then (pCSL_RT_TAB, 0)
  else if pPWR_BANK_FULL ≤ pid && pid ≤ pPWR_DERATE then (pPWR_BANK_FULL, 0)
  else if pid = pCHV_TEMP_MIN || pid = pCHV_TEMP_MAX then (pCHV_TEMP_MIN, 0)
  else (pid, i)

/-- A group as a number, ordered by PID and then by index. -/
def groupKey (k : Nat) : Nat :=
  let g := groupOf (k / 2 ^ 20) (k % 2 ^ 20)
  pkey g.1 g.2

/-- Groups that a set of elements belongs to, ordered by PID and then by index. -/
def groupsOf (m : NMap Nat) : List Nat :=
  NMap.keys (m.foldl (fun (a : NMap Nat) e => NMap.put a (groupKey e.1) 0) [])

/-- The group of an element is pending (R482). -/
def State.groupPending (s : State) (pid i : Nat) : Bool :=
  s.pend.any (fun e => groupKey e.1 = groupKey (pkey pid i))

/-! ### Conditions of elements (R476, R477) -/

/-- Offset minimum and maximum of the profile's NAND descriptor (R322, R435); without a profile, the whole field. -/
def State.rtRange (s : State) : Int × Int :=
  let sgn8 (x : Nat) : Int := if x < 128 then x else (x : Int) - 256
  match s.nor.profile with
  | some b => let o := leAt b 0x38 4; (sgn8 (leAt b (o + 8) 1), sgn8 (leAt b (o + 9) 1))
  | none => (-128, 127)

/-- Conditions a row states beyond its range, with the values `get` of the other parameters. -/
def State.rowCond (s : State) (get : Nat → Nat → Int) (pid i : Nat) (v : Int) : Bool :=
  let n := v.toNat
  if pid = pTFM_REWRITE_MAX then decide (get pTFM_SKIP_AFTER 0 < v)
  else if pid = pTFM_SKIP_AFTER then decide (v < get pTFM_REWRITE_MAX 0)
  else if pid = pCTL_OUT_MAX then decide (get pCTL_OUT_MIN i < v)
  else if pid = pCTL_OUT_MIN then decide (v < get pCTL_OUT_MAX i)
  else if pid = pCTL_ENC_CPR || pid = pCMP_BLOCK_KIB || pid = pEVT_JNL_ENTRIES then pow2 v
  else if pid = pCTL_TRC_SEL then decide (n < 136)
  else if pid = pCTL_AUX_INS then decide (n % 16 < 4) && decide (n / 16 < 6)
  else if pid = pCTL_MDL then decide (i < 9) || v = 0
  else if pid = pTRC_ZTAB then bitsOf n 7 6 = 0 && bitsOf n 30 23 = 0
  else if pid = pCSL_RT_TAB then decide (s.rtRange.1 ≤ v) && decide (v ≤ s.rtRange.2)
  else if pid = pCCA_WAY_EN then decide (2 ≤ popCount 16 n)
  else if pid = pCCA_RNG_BASE then n % 64 = 0
  else if pid = pCCA_RNG_LEN then n % 64 = 0 && decide (v ≤ get pCCL_MEM_GIB 0 * 2 ^ 30)
  else if pid = pCCA_RNG_OP then decide (get pCCA_RNG_BASE 0 + get pCCA_RNG_LEN 0 ≤ get pCCL_MEM_GIB 0 * 2 ^ 30)
  else if pid = pCCL_MEM_GIB then decide (get pCCA_RNG_LEN 0 ≤ v * 2 ^ 30)
  else if pid = pSFQ_CT_THRESH then fifoPrivilegedN i
  else if pid = pEVT_MSIX_VEC then v = 0 || s.nv.cqs.all (fun q => !(q.2.ien && q.2.vector == n))
  else true
where
  /-- The eight privileged FIFOs (R101). -/
  fifoPrivilegedN (n : Nat) : Bool := [61, 62, 63, 71, 72, 73, 74, 75].contains n

/-- An element value lies in its field, its range and its row's conditions (R476, R477). -/
def State.elemOk (s : State) (d : PDesc) (get : Nat → Nat → Int) (i e : Nat) : Bool :=
  match d.ofElem e with
  | some v => decide (d.lo ≤ v) && decide (v ≤ d.hi) && s.rowCond get d.pid i v
  | none => false

/-! ### Busy (R478, R482, R485) -/

/-- Every loop slot is OFF. -/
def State.slotsOff (s : State) : Bool := s.ctl.slots.all (fun e => e.2.st = .off)

/-- No XTS or GMAC work waits on the bulk lanes (R284). -/
def State.bulkIdle (s : State) : Bool :=
  s.sp.recs.all (fun r => r.coded.isEmpty && r.closed.isNone) && s.sp.filled.isEmpty && s.rc.recs.all (fun r => r.decoded)
    && s.comp.cores.all (fun c => c.2.dma.isEmpty)

/-- An RW-F element whose condition does not hold now, or a parameter command that a running operation holds off. -/
def State.elemBusy (s : State) (d : PDesc) (i : Nat) : Bool :=
  let p := d.pid
  if p = pTFM_WR_GAP || p = pCTL_END_MARGIN || p = pCSL_CKPT_MIB || p = pEVT_JNL_ENTRIES || p = pTRC_PA_REG then s.moves
  else if p = pCTL_ENC_CPR then (List.range 4).any (fun n => (s.slot n).st != .off)
  else if p = pCMP_OVF_BUFS then s.sp.recs.any (fun r => decide (0 < r.nextBlock)) || s.sp.ovf.any (fun e => e.2 != 0)
  else if p = pTRC_HOLD_MIB then !s.rc.recs.isEmpty || (s.rc.pass.map (fun x => decide (x.kind ≤ 2))).getD false
  else if p = pCPH_XTS_LANES then !s.bulkIdle
  else if p = pHIF_WBUF_GIB then s.nv.sqs.any (fun q => q.1 != 0) || s.nv.cqs.any (fun q => q.1 != 0)
  else if p = pCCL_MEM_GIB then !s.comp.kerns.isEmpty || !s.comp.queue.isEmpty
  else if p = pCCA_ENABLE || p = pCCA_WAY_EN then s.cache.clean.isSome
  else if p = pCCA_RNG_OP then s.cache.clean.isSome || s.cache.range.isSome
  else if p = pBOOT_IMPORT || p = pBOOT_IMP_LEN then s.nor.impBusy != 0
  else if p = pBOOT_IMP_CTL then s.nor.impBusy != 0 || s.mag.st != .service
  else d.access = .rws && s.groupPending p i

/-! ### Commit conditions (R481) -/

/-- The state condition of a group's Effect column: SERVICE, or all slots OFF. -/
def State.groupState (s : State) (pid : Nat) : Bool :=
  if pid = pSFQ_DEPTH || pid = pTRC_ZEDGE || pid = pPWR_BANK_FULL || pid = pCHV_TEMP_MIN then s.mag.st = .service
  else if pid = pCTL_PHASE || pid = pCTL_MDL then s.slotsOff
  else true

/-- Window [phase, phase + 200) of slot `n` in the super-frame: its starts (R173). -/
def windowStarts (n phase : Nat) : List Nat :=
  let period := if n < 2 then 20000 else if n < 4 then 80000 else 10000
  (List.range (80000 / period)).map (fun k => k * period + phase)

/-- The schedule: every phase at most its period minus 200, and no two windows of L0 to L5 overlap (R173). -/
def scheduleOk (phase : Nat → Nat) : Bool :=
  (List.range 6).all (fun n => decide (phase n + 200 ≤ (if n < 2 then 20000 else if n < 4 then 80000 else 10000)))
    && (List.range 6).all (fun a => (List.range a).all (fun b =>
      (windowStarts a (phase a)).all (fun x => (windowStarts b (phase b)).all (fun y => decide (x + 200 ≤ y) || decide (y + 200 ≤ x)))))

/-- Conditions of a commit group on its candidate, `get` giving every parameter's value once the commit has acted. -/
def groupOk (get : Nat → Nat → Int) (g : Nat × Nat) : Bool :=
  let pid := g.1
  let n (p i : Nat) : Nat := (get p i).toNat
  let auxSecs (m : Nat) : Nat := (List.range 2).foldl (fun a k =>
    if n pCTL_AUX_INS k % 16 != 0 && n pCTL_AUX_INS k / 16 = m then a + n pCTL_SEC_CNT (16 * (6 + k)) else a) 0
  let hostOk (m : Nat) : Bool := (List.range 16).all (fun r => decide (n pCTL_SEC_CNT (16 * m + r) + auxSecs m ≤ 8))
  if pid = pTFM_CRAWL_ENTRY then decide (get pTFM_CRAWL_ENTRY 0 < get pTFM_CRAWL_EXIT 0)
  else if pid = pSFQ_DEPTH then
    decide ((List.range 64).foldl (fun a k => a + n pSFQ_DEPTH k) 0 ≤ 131072)
      && decide ((List.range 32).foldl (fun a k => a + n pSFQ_DEPTH (64 + k)) 0 ≤ 65536)
      && (List.range 96).all (fun k => pow2 (get pSFQ_DEPTH k) && (n pSFQ_EXT_SIZE k = 0 || (extended k && ext2 (n pSFQ_EXT_SIZE k))))
  else if pid = pTRC_ZEDGE then
    get pTRC_ZEDGE 0 = 500 && decide (get pTRC_ZEDGE 15 ≤ 5950)
      && (List.range 15).all (fun k => decide (get pTRC_ZEDGE k + 2 * get pTFM_ZONE_HYST 0 + 50 ≤ get pTRC_ZEDGE (k + 1)))
  else if pid = pTRC_TGT_SEL then
    let user := (List.range 5).foldl (fun a k => a + (get pTRC_TGT_USER k).natAbs) 0
    (List.range 16).all (fun z =>
      decide (n pTRC_TGT_SEL z ≤ 4) && (n pTRC_TGT_SEL z != 4 || (decide (8 ≤ user) && decide (user ≤ 60)))
        && decide ((List.range 11).foldl (fun a k => a + (get pTRC_FIR_INIT (11 * z + k)).natAbs) 0 ≤ 1024))
  else if pid = pCTL_SEC_CNT then
    let m := g.2 / 16
    if m < 6 then hostOk m
    else
      let ins := n pCTL_AUX_INS (m - 6)
      ins % 16 = 0 || hostOk (ins / 16)
  else if pid = pCTL_RAD_MIN then decide (get pCTL_RAD_MIN 0 + 16 * (2 * get pCTL_RGN_HYST 0 + 100) ≤ get pCTL_RAD_MAX 0)
  else if pid = pCTL_PHASE then scheduleOk (n pCTL_PHASE) && (List.range 6).all hostOk
  else if pid = pCMP_GEOM then (Geom.of ((List.range 8).map (fun w => n pCMP_GEOM (g.2 + w)))).ok
  else if pid = pPWR_BANK_FULL then decide (get pPWR_BANK_MIN 0 + 8000 ≤ get pPWR_BANK_FULL 0)
  else if pid = pCHV_TEMP_MIN then decide (get pCHV_TEMP_MIN 0 < get pCHV_TEMP_MAX 0)
  else true
where
  /-- FIFOs with an extended body (R101). -/
  extended (k : Nat) : Bool := k = 64 || k = 66 || k = 68 || k = 76 || (80 ≤ k && k ≤ 87) || (92 ≤ k && k ≤ 95)
  /-- A power of two of up to 32 bits. -/
  ext2 (x : Nat) : Bool := (List.range 32).any (fun j => x = 2 ^ j)

/-- Value of an element once a commit of `staged` has acted. -/
def State.candidate (s : State) (staged : NMap Nat) (pid i : Nat) : Int :=
  match NMap.find? staged (pkey pid i) with
  | some e => elemInt pid e
  | none => s.pv pid i

/-- Check a commit of staged elements: none when it is accepted, else the status and the key of the first failing group (R481, R485). -/
def State.commitCheck (s : State) (staged : NMap Nat) : Option (Status × Nat) :=
  let gs := groupsOf staged
  let get := s.candidate staged
  match gs.find? (fun g => !s.groupState (g / 2 ^ 20)) with
  | some g => some (stParamBusy, g)
  | none =>
    match gs.find? (fun g => !groupOk get (g / 2 ^ 20, g % 2 ^ 20)) with
    | some g => some (stParamGroup, g)
    | none => none

/-- Groups whose boundary is the commit itself: the FIFO geometry, the schedule and CTL_MDL. -/
def actsAtOnce (pid : Nat) : Bool :=
  let g := (groupOf pid 0).1
  g = pSFQ_DEPTH || g = pCTL_PHASE || g = pCTL_MDL

/-- Make staged elements pending; a group that acts at once takes effect (R481). -/
def State.commitStaged (s : State) (staged : NMap Nat) : State :=
  ({ s with pend := staged.foldl (fun (m : NMap Nat) (e : Nat × Nat) => NMap.put m e.1 e.2) s.pend }).applyPend (fun p _ => actsAtOnce p)

/-! ### Writes (R484, R485) -/

/-- Check a write whole: none when every element may be written, else the status and the index of the first failing element. -/
def State.writeCheck (s : State) (pid first : Nat) (vals : List Nat) : Option (Status × Nat) :=
  match pdesc? pid with
  | none => some (stParamUnknown, first)
  | some d =>
    if !s.keys.session then some (stDenied, 0)
    else if vals.isEmpty || d.count < first + vals.length || 2 ^ 21 < vals.length * d.width then some (stParamIndex, first)
    else if d.access = .ro then some (stParamReadOnly, first)
    else
      match vals.zipIdx.find? (fun x => !s.elemOk d s.pv (first + x.2) x.1) with
      | some x => some (stParamValue, first + x.2)
      | none =>
        match (List.range vals.length).find? (fun k => s.elemBusy d (first + k)) with
        | some k => some (stParamBusy, first + k)
        | none => none

/-- Note that an element has been written since BOOT (R483). -/
def State.noteWrite (s : State) (pid i : Nat) : State := { s with wrote := NMap.put s.wrote (pkey pid i) 1 }

/-- Store a written element by its class: at once for RW-L and RW-F, staged for RW-S; the import array for BOOT_IMPORT (R438, R478). -/
def State.storeElem (s : State) (d : PDesc) (i e : Nat) : State :=
  let t := s.noteWrite d.pid i
  match d.access with
  | .rwl | .rwf => t.setElem d.pid i e
  | .rws => { t with staged := NMap.put t.staged (pkey d.pid i) e }
  | .wo => if d.pid = pBOOT_IMPORT then t.modNor (fun n => { n with imp := NMap.set 0 n.imp i e }) else t
  | _ => t

/-- A register write that has a row of its own: Ringmaster's own acts at once; a host's is a Parameter Write of one element under the
checks of R485, and then acts and completes (R484). -/
def State.regWrite (s : State) (w : Option Hdr) (pid i e : Nat) (act : State → State) : State :=
  match w with
  | none => act s
  | some h =>
    s.adminCmd h false (fun q t =>
      match t.writeCheck pid i [e] with
      | some (st, k) => t.complete q st k 0 []
      | none => (act (t.noteWrite pid i)).done q stOk)

end Sys2Proof.Machine
end

