-- ==== Sys2Proof/Machine/Features.lean ====
section
/-! DEFINITION. Set and Get Features (R353 to R355), the operating context (R21), the host memory buffer (R319), the timestamp. -/

namespace Sys2Proof.Machine

/-! ### Vendor features (R354, R355) -/

/-- One field of a vendor feature: PID, place of its least significant bit in the feature's data or Dword, width. -/
structure FField where
  /-- Parameter. -/
  pid : Nat
  /-- Bit offset. -/
  lo : Nat
  /-- Width in bits. -/
  width : Nat
  deriving DecidableEq, Repr

/-- Fields of a vendor feature. -/
def featureFields : Nat → List FField
  | 0xC0 =>
    [⟨pTFM_BKLG_TARGET, 0, 16⟩, ⟨pTFM_CRAWL_ENTRY, 16, 16⟩, ⟨pTFM_CRAWL_EXIT, 32, 16⟩, ⟨pTFM_CRAWL_LIMIT, 48, 16⟩, ⟨pTFM_VMAX_REC, 64, 16⟩,
     ⟨pTRC_PB_VMAX, 80, 16⟩, ⟨pCTL_AMAX, 96, 16⟩, ⟨pCTL_VMAX_SHTL, 112, 16⟩, ⟨pCTL_IDLE_TENS, 128, 32⟩, ⟨pCTL_IDLE_PB, 160, 32⟩,
     ⟨pTRC_RA_GROUPS, 192, 8⟩, ⟨pTFM_FF_SOURCE, 200, 1⟩]
  | 0xC1 => [⟨pHIF_CREDIT_LIMIT, 0, 16⟩]
  | 0xC2 => [⟨pCMP_MODE, 0, 2⟩, ⟨pCMP_ACTIVE, 8, 6⟩]
  | 0xC4 => [⟨pTFM_VERIFY_ROWS, 0, 8⟩, ⟨pTFM_REWRITE_MAX, 8, 8⟩, ⟨pTRC_RETRY_MAX, 16, 8⟩, ⟨pTRC_RETRY_TIME, 32, 32⟩]
  | 0xC5 => [⟨pCCL_CORES, 0, 5⟩, ⟨pCCL_INST_MAX, 8, 9⟩]
  | _ => []

/-- Every bit of a feature value outside its fields is clear; in C0h the keep flag, bit 201, may be set. -/
def reservedClear (fid bits value : Nat) : Bool :=
  (List.range bits).all (fun i =>
    !Nat.testBit value i || (featureFields fid).any (fun f => decide (f.lo ≤ i) && decide (i < f.lo + f.width)) || (fid = 0xC0 && i = 201))

/-- Fields that a Set writes, with their element values: a field of 8 bits or more whose bits are all 1 stays in a data structure, and so does
TFM_FF_SOURCE under its keep flag. -/
def writtenFields (fid value : Nat) : List (Nat × Nat) :=
  ((featureFields fid).filter (fun f =>
    let v := value / 2 ^ f.lo % 2 ^ f.width
    !((fid = 0xC0 || fid = 0xC4) && decide (8 ≤ f.width) && v = 2 ^ f.width - 1) && !(fid = 0xC0 && f.lo = 200 && Nat.testBit value 201))).map
      (fun f => (f.pid, value / 2 ^ f.lo % 2 ^ f.width))

/-- A field whose parameter acts through a commit. -/
def isStagedField (f : Nat × Nat) : Bool := match pdesc? f.1 with | some d => d.access = .rws | none => false

/-- The fields a Set writes are in range and meet their conditions, the other fields of the same Set taken at their new values (R354, R477). -/
def State.vendorFits (s : State) (fid bits value : Nat) : Bool :=
  let fs := writtenFields fid value
  let get (p i : Nat) : Int :=
    match fs.find? (fun f => f.1 = p) with
    | some f => if i = 0 then elemInt p f.2 else s.pv p i
    | none => s.pv p i
  reservedClear fid bits value && fs.all (fun f =>
    match pdesc? f.1 with
    | some d => if d.access = .rws then s.elemOk d s.pv 0 f.2 else s.elemOk d get 0 f.2
    | none => false)

/-- A field of the Set may not be written now (R485). -/
def State.vendorBusy (s : State) (fid value : Nat) : Bool :=
  (writtenFields fid value).any (fun f => match pdesc? f.1 with | some d => s.elemBusy d 0 | none => false)

/-- The RW-S fields of a Set as one commit. -/
def vendorStaged (fid value : Nat) : NMap Nat :=
  ((writtenFields fid value).filter isStagedField).foldl (fun (m : NMap Nat) (f : Nat × Nat) => NMap.put m (pkey f.1 0) f.2) []

/-- RW-L fields at once, RW-S fields as one commit (R354). -/
def State.vendorWrite (s : State) (fid value : Nat) : State :=
  let fs := writtenFields fid value
  let t := (fs.filter (fun f => !isStagedField f)).foldl (fun u f => (u.noteWrite f.1 0).setElem f.1 0 f.2) s
  let st := fs.filter isStagedField
  if st.isEmpty then t else (st.foldl (fun u f => u.noteWrite f.1 0) t).commitStaged (vendorStaged fid value)

/-- Set a vendor feature: checked whole, then written (R354). -/
def State.setVendor (s : State) (q fid bits value : Nat) : State :=
  if !s.vendorFits fid bits value then s.done q stField
  else if s.vendorBusy fid value then s.done q stParamBusy
  else
    match s.commitCheck (vendorStaged fid value) with
    | some (st, _) => s.done q st
    | none => (s.vendorWrite fid value).done q stOk

/-- Value of a vendor feature with the elements `val` gives. -/
def featureValue (fid : Nat) (val : Nat → Nat) : Nat := (featureFields fid).foldl (fun n f => n + val f.pid % 2 ^ f.width * 2 ^ f.lo) 0

/-! ### Operating context (R20, R21) -/

/-- Set Features C3h (R20, R21); v_ff is 0 in dock context (R80). -/
def State.setContext (s : State) (q d11 : Nat) : State :=
  let st := s.mag.st
  if d11 / 4 != 0 || d11 % 4 = 3 then s.done q stField
  else if st != .ready && st != .parked && st != .safe && st != .service then s.done q stSequence
  else if d11 % 4 = 2 then
    if !s.keys.session then s.done q stDenied
    else if st = .service then (s.modMag (fun g => { g with ctx := .service })).done q stOk
    else (s.modMag (fun g => { g with st := .service, from_ := st, ctx := .service })).done q stOk
  else if st = .safe then s.done q stSequence
  else ((s.modMag (fun g => { g with ctx := if d11 % 4 = 0 then .camera else .dock })).modSp (fun p => { p with vff := if d11 % 4 = 0 then p.vff else 0 })).done q stOk

/-! ### Standard features (R353) -/

/-- Feature identifiers that exist. -/
def featureKnown (fid : Nat) : Bool :=
  [0x01, 0x02, 0x04, 0x06, 0x07, 0x08, 0x09, 0x0B, 0x0D, 0x0E, 0xC0, 0xC1, 0xC2, 0xC3, 0xC4, 0xC5].contains fid

/-- Keys of a temperature threshold: sensor 0 composite, 1 magazine; 0 over, 1 under temperature. -/
def thresholdKey (sensor kind : Nat) : Nat := 0x400 + 2 * sensor + kind

/-- A threshold in force, kelvin. -/
def Nvme.threshold (n : Nvme) (sensor kind : Nat) : Nat := n.feature (if kind = 0 then 373 else 0) (thresholdKey sensor kind)

/-- Set Features 04h: sensor 0 or 1, or all of them. -/
def State.setThreshold (s : State) (q d11 : Nat) : State :=
  let sel := bitsOf d11 19 16
  let kind := bitsOf d11 21 20
  if 1 < kind || (1 < sel && sel != 15) then s.done q stField
  else
    let put (n : Nvme) (x : Nat) : Nvme := { n with features := NMap.put n.features (thresholdKey x kind) (d11 % 65536) }
    (s.modNv (fun n => if sel = 15 then put (put n 0) 1 else put n sel)).done q stOk

/-- Set Features 0Dh (R319): `size` in units of 4 KiB. Commands that waited for the map are served again. -/
def State.setHmb (s : State) (q d11 size : Nat) : State :=
  if d11 % 2 = 0 then ((s.modCar (fun c => { c with hmb := 0 })).done q stOk).runHmb
  else if s.car.hmb != 0 then s.done q stSequence
  else if size < s.hmMin then s.done q stField
  else if s.pn pCSL_CONFIG != 16 then (s.modCar (fun c => { c with hmb := 3 })).done q stOk
  else if size < s.hmPre then ((s.modCar (fun c => { c with hmb := 3 })).raise 0x5D3 2 []).done q stOk
  else (s.modCar (fun c => { c with hmb := 1 })).done q stOk

/-- Set Features 0Eh: milliseconds since 1970. -/
def State.setTime (s : State) (q ms : Nat) : State :=
  if !s.keys.session then s.done q stDenied
  else (s.modPw (fun p => { p with rtc := ms * 32768 / 1000, rtcOk := true })).done q stOk

/-- Bits of Dword 11 of a standard feature that are not reserved: the others are ignored and return as zero (R7, R358; for 01h, 08h and 09h as NVM Express
lays them out, PRESUMED, log 75). -/
def featureBits : Nat → Nat
  | 0x01 => 0xFFFFFF07
  | 0x08 => 0xFFFF
  | 0x09 => 0x1FFFF
  | 0x0B => 0x080F0FFF
  | _ => 0xFFFFFFFF

/-- Set one feature whose data or Dword is at hand. -/
def State.setFeature (s : State) (q fid d11 d12 : Nat) (data : Bytes) : State :=
  let keep (key : Nat) : State := (s.modNv (fun n => { n with features := NMap.set 0 n.features key (d11 &&& featureBits fid) })).done q stOk
  match fid with
  | 0x01 => keep 0x01
  | 0x02 => if d11 % 32 = 0 then s.done q stOk else s.done q stField
  | 0x04 => s.setThreshold q d11
  | 0x06 => (s.modNv (fun n => { n with vwc := decide (d11 % 2 = 1) })).done q stOk
  | 0x07 => s.complete q stOk 0x03FF03FF 0 []
  | 0x08 => keep 0x08
  | 0x09 => if 2047 < d11 % 65536 then s.done q stField else keep (0x900 + d11 % 65536)
  | 0x0B => keep 0x0B
  | 0x0D => s.setHmb q d11 d12
  | 0x0E => s.setTime q (leAt data 0 6)
  | 0xC0 => s.setVendor q 0xC0 256 (leAt data 0 32)
  | 0xC3 => s.setContext q d11
  | 0xC4 => s.setVendor q 0xC4 128 (leAt data 0 16)
  | _ => s.setVendor q fid 32 d11

/-- The checks before any feature is set: known, and not saved (R353). -/
def State.setFeatures (s : State) (h : Hdr) (fid : Nat) (save : Bool) (act : Nat → State → State) : Out :=
  .next (s.adminCmd h (fid = 0xC3) (fun q t =>
    if !featureKnown fid then t.done q stField
    else if save then t.done q stNotSaveable
    else act q t)).goOn

/-- SET_FEATURES (R353). -/
def execSetFeatures (h : Hdr) (fid : Nat) (save : Bool) (d11 d12 : Nat) (data : Bytes) (s : State) : Out :=
  s.setFeatures h fid save (fun q t => t.setFeature q fid d11 d12 data)

/-- SET_VOLATILE_WRITE_CACHE (R342, R353). -/
def execSetVolatileWriteCache (h : Hdr) (save : Bool) (d11 : Nat) (s : State) : Out :=
  s.setFeatures h 0x06 save (fun q t => t.setFeature q 0x06 d11 0 [])

/-- SET_HOST_MEMORY_BUFFER (R319). -/
def execSetHostMemoryBuffer (h : Hdr) (save : Bool) (d11 size : Nat) (s : State) : Out :=
  s.setFeatures h 0x0D save (fun q t => t.setHmb q d11 size)

/-- SET_TIMESTAMP (R353). -/
def execSetTimestamp (h : Hdr) (save : Bool) (ms : Nat) (s : State) : Out := s.setFeatures h 0x0E save (fun q t => t.setTime q ms)

/-- SET_SPEED_POLICY (R355). -/
def execSetSpeedPolicy (h : Hdr) (save : Bool) (data : Bytes) (s : State) : Out :=
  s.setFeatures h 0xC0 save (fun q t => t.setFeature q 0xC0 0 0 data)

/-- SET_ACKNOWLEDGE_CREDIT_POLICY (R355). -/
def execSetAcknowledgeCreditPolicy (h : Hdr) (save : Bool) (d11 : Nat) (s : State) : Out :=
  s.setFeatures h 0xC1 save (fun q t => t.setFeature q 0xC1 d11 0 [])

/-- SET_COMPRESSION_POLICY (R355). -/
def execSetCompressionPolicy (h : Hdr) (save : Bool) (d11 : Nat) (s : State) : Out :=
  s.setFeatures h 0xC2 save (fun q t => t.setFeature q 0xC2 d11 0 [])

/-- SET_OPERATING_CONTEXT (R21). -/
def execSetOperatingContext (h : Hdr) (save : Bool) (d11 : Nat) (s : State) : Out :=
  s.setFeatures h 0xC3 save (fun q t => t.setContext q d11)

/-- SET_REWRITE_POLICY (R355). -/
def execSetRewritePolicy (h : Hdr) (save : Bool) (data : Bytes) (s : State) : Out :=
  s.setFeatures h 0xC4 save (fun q t => t.setFeature q 0xC4 0 0 data)

/-- SET_COMPUTE_POLICY (R355). -/
def execSetComputePolicy (h : Hdr) (save : Bool) (d11 : Nat) (s : State) : Out :=
  s.setFeatures h 0xC5 save (fun q t => t.setFeature q 0xC5 d11 0 [])

/-! ### Get Features -/

/-- Dword 0 of a feature, now or by default; none where Dword 11 names nothing. -/
def State.getDword (s : State) (fid d11 : Nat) (now : Bool) : Option Nat :=
  let n := s.nv
  let val (p : Nat) : Nat := if now then s.elem p 0 else s.presetElem p 0
  match fid with
  | 0x01 => some (if now then n.feature 0 0x01 else 0)
  | 0x02 => some 0
  | 0x04 =>
    if 1 < bitsOf d11 19 16 || 1 < bitsOf d11 21 20 then none
    else some (if now then n.threshold (bitsOf d11 19 16) (bitsOf d11 21 20) else if bitsOf d11 21 20 = 0 then 373 else 0)
  | 0x06 => some (if now then n.vwc.toNat else 1)
  | 0x07 => some 0x03FF03FF
  | 0x08 => some (if now then n.feature 0 0x08 else 0)
  | 0x09 => if 2047 < d11 % 65536 then none else some (if now then n.feature 0 (0x900 + d11 % 65536) else 0)
  | 0x0B => some (if now then n.feature 0 0x0B else 0)
  | 0x0D => some (if now && s.car.hmb != 0 then 1 else 0)
  | 0xC1 => some (featureValue 0xC1 val + (if now then 65536 * (s.creditK / 2 ^ 20) else 0))
  | 0xC3 => some (if now then s.mag.ctx.code else s.mag.dflt.code)
  | _ => some (featureValue fid val)

/-- The timestamp data structure: milliseconds, and origin 001b once a host has set the clock. -/
def State.timeData (s : State) : Bytes := leBytes 6 (s.pw.rtc * 1000 / 32768) ++ leBytes 1 (if s.pw.rtcOk then 2 else 0) ++ zeroBytes 1

/-- GET_FEATURES (R353, R355): select 0 the current value, 1 and 2 the default, 3 what the feature supports: changeable. -/
def execGetFeatures (h : Hdr) (fid sel d11 : Nat) (s : State) : Out :=
  .next (s.adminCmd h (fid = 0xC3) (fun q t =>
    if !featureKnown fid || 3 < sel then t.done q stField
    else if sel = 3 then t.complete q stOk 4 0 []
    else
      let now : Bool := sel = 0
      let val (p : Nat) : Nat := if now then t.elem p 0 else t.presetElem p 0
      if fid = 0x0E then t.complete q stOk 0 0 (if now then t.timeData else zeroBytes 8)
      else if fid = 0xC0 then t.complete q stOk 0 0 (leBytes 32 (featureValue 0xC0 val))
      else if fid = 0xC4 then t.complete q stOk 0 0 (leBytes 16 (featureValue 0xC4 val))
      else
        match t.getDword fid d11 now with
        | some v => t.complete q stOk v 0 []
        | none => t.done q stField)).goOn

end Sys2Proof.Machine
end

