-- ==== Sys2Proof/Machine/Signal.lean ====
section
/-! DEFINITION. The signal chain of a data lane (R117): gain, offset and asymmetry with the ADC (R118), interpolated timing recovery (R119), the
adaptive equaliser (R120), the detector's targets (R121), the sequence detector with NRZI decoding (R122), the dropout detector (R133), and
the words in which rows and erasure pointers leave the lane (R136, R137). Where the manual does not state a resolution or a rounding, log 74 says
what is taken. -/

namespace Sys2Proof.Machine

/-! ### Stages 1 to 4 (R118) -/

/-- The factor 10^(g/40) of gain code `g` in 1/65,536, rounded down. -/
def gainScale (g : Nat) : Nat :=
  ((List.range 22).map (fun i => 2 ^ (21 - i))).foldl (fun k b => if (k + b) ^ 40 ≤ 10 ^ g * 2 ^ 640 then k + b else k) 0

/-- The ADC input for an input `u` of stage 1 under gain, offset and asymmetry codes, both in 1/256 LSB. -/
def adcInput (gain offset asym u : Int) : Int :=
  let w := u * gainScale gain.toNat / 65536 - 64 * offset
  w - asym * w * w / (16384 * 256)

/-- The ADC's code: whole LSB, from -64 to 63, beyond which the input is clipped. -/
def adcCode (x : Int) : Int := max (-64) (min 63 ((x + 128) / 256))

/-- A code at an ADC limit (R133). -/
def atLimit (c : Int) : Bool := c = -64 || c = 63

/-! ### Timing recovery (R119) -/

/-- Nominal bit period at a speed in µm/s, in 1/65,536 of the 1 ns sample interval: 66,667 bits to the millimetre. -/
def bitPeriod (speed : Nat) : Nat := 65536 * 10 ^ 12 / (66667 * max 1 speed)

/-- The sample at `p` sixty-fourths between two ADC samples, in 1/64 LSB. -/
def interpolate (a b : Int) (p : Nat) : Int := 64 * a + (b - a) * p

/-- The residual of the loop, held within ±2 % of the nominal period. -/
def clampFreq (f : Int) : Int := max (-20971) (min 20971 f)

/-- The loop's gain set: acquisition for the first 256 bits of the separator, preamble for the first 96 bits of each row, else tracking. `bits` counts from
the start of the search, or in a DS from its bit 480. -/
def gainSet (inDs : Bool) (bits : Nat) : Nat := if !inDs then (if bits < 256 then 0 else 2) else if bits % rowBits < 96 then 1 else 2

/-- The loop is locked: the mean squared phase error over the last 64 bits is below 1/64 of a bit period squared. -/
def loopLocked (errs : List Nat) : Bool := errs.length = 64 && decide (errs.sum < 64 * 64)

/-! ### Equaliser (R120) -/

/-- A coefficient as applied: 10 bits signed, in 1/128. -/
def appliedTap (t : Int) : Int := max (-512) (min 511 (t / 256))

/-- Sum of products. -/
def dot : List Int → List Int → Int
  | a :: as, b :: bs => a * b + dot as bs
  | _, _ => 0

/-- The equaliser's output for the samples `line`, newest first: 9 bits signed, in LSB. -/
def firOut (taps line : List Int) : Int := max (-256) (min 255 ((dot (taps.map appliedTap) line + 4096) / 8192))

/-- The adaptation step 2^(-mu) in the unit of the 8 fractional bits, 1/32,768. -/
def lmsStep (mu : Nat) : Int := (2 ^ 15 / 2 ^ mu : Nat)

/-- Sign of a number. -/
def signOf (x : Int) : Int := if 0 < x then 1 else if x < 0 then -1 else 0

/-- One step of sign-sign least mean squares for the error `e`: each coefficient stays within `reach` (in 1/128) of the one loaded (R120, R125). -/
def lmsTaps (mu reach : Nat) (e : Int) : List Int → List Int → List Int → List Int
  | i :: is, t :: ts, x :: xs =>
    max (256 * (i - reach)) (min (256 * (i + reach)) (t - signOf e * signOf x * lmsStep mu)) :: lmsTaps mu reach e is ts xs
  | _, ts, _ => ts

/-! ### Detector (R121, R122) -/

/-- Taps t0 to t4 of a target: EQ-A to EQ-D, or the user's. -/
def targetTaps (user : List Int) : Nat → List Int
  | 0 => [4, 8, 4, 0, 0]
  | 1 => [4, 10, 8, 2, 0]
  | 2 => [3, 9, 10, 5, 1]
  | 3 => [2, 7, 10, 7, 2]
  | _ => user

/-- Magnetisation of a bit. -/
def nrz (b : Bool) : Int := if b then 1 else -1

/-- Ideal input for the newest five magnetisations, newest in bit 0 of `h`. -/
def idealLevel (taps : List Int) (h : Nat) : Int := 2 * dot taps ((List.range 5).map (fun i => nrz (Nat.testBit h i)))

/-- The survivor of the detector state `j` (its newest four bits) after the input `y`: squared Euclidean metrics, a path memory of 64 bits. -/
def survivor (taps : List Int) (y : Int) (paths : List (Nat × Nat)) (j : Nat) : Nat × Nat :=
  let way (p : Nat) : Nat × Nat :=
    let old := paths.getD p (0, p)
    let e := y - idealLevel taps (2 * p + j % 2)
    (old.1 + (e * e).toNat, (2 * old.2 + j % 2) % 2 ^ 64)
  let a := way (j / 2)
  let b := way (j / 2 + 8)
  if b.1 < a.1 then b else a

/-- One step of the detector: the survivors, their metrics counted from the best. -/
def viterbi (taps : List Int) (y : Int) (paths : List (Nat × Nat)) : List (Nat × Nat) :=
  let l := (List.range 16).map (survivor taps y paths)
  let m := l.foldl (fun m x => min m x.1) (l.headD (0, 0)).1
  l.map (fun x => (x.1 - m, x.2))

/-- The path of the best survivor, the first among equals. -/
def bestPath (paths : List (Nat × Nat)) : Nat :=
  (paths.foldl (fun (b : Nat × Nat) x => if x.1 < b.1 then x else b) (paths.headD (0, 0))).2

/-- NRZI decoding: channel bit 1 where the magnetisation changes. -/
def nrziBit (before : Option Bool) (b : Bool) : Bool := before.any (fun a => a != b)

/-! ### Dropout detector (R133) -/

/-- The mean of the window is above `pct` percent of the reference mean. -/
def Sig.above (g : Sig) (pct : Nat) : Bool := decide (pct * g.ref.sum * g.win.length < 100 * g.win.sum * g.ref.length)

/-- The mean of the window is below `pct` percent of the reference mean. -/
def Sig.below (g : Sig) (pct : Nat) : Bool := decide (100 * g.win.sum * g.ref.length < pct * g.ref.sum * g.win.length)

/-- Amplitude loss and thermal asperity, for an equaliser output of magnitude `m`. The reference, the 4,096 magnitudes before the window, is frozen
during a span. -/
def Sig.amplitude (g : Sig) (p : RowPar) (m : Nat) : Sig :=
  let all := m :: g.win
  let ref := if g.span.isSome then g.ref else ((all.drop p.win).reverse ++ g.ref).take 4096
  let h := { g with win := all.take p.win, ref }
  match h.span with
  | none =>
    if h.ref.isEmpty || decide (h.win.length < p.win) then h
    else if h.below p.thr then { h with span := some { kind := 1, first := h.n, last := h.n, back := 0, counted := false } }
    else if h.above p.ta then { h with span := some { kind := 2, first := h.n, last := h.n, back := 0, counted := false }, paused := h.paused + 1 }
    else h
  | some x =>
    let still := if x.kind = 1 then !h.above (p.thr + 10) else h.above p.ta
    let y := { x with last := h.n, back := if still then 0 else x.back + 1 }
    let k := { h with paused := if x.kind = 2 then h.paused + 1 else h.paused }
    if y.back < p.win then { k with span := some y } else { k with span := none, done := k.done ++ [y] }

/-- Clipping: 8 or more samples at an ADC limit within 8 consecutive bits. -/
def Sig.clipping (g : Sig) : Sig :=
  let now := decide (8 ≤ g.clips.sum)
  let h := { g with clips := 0 :: g.clips.take 7 }
  match now, h.clip with
  | true, none => { h with clip := some { kind := 3, first := h.n - 7, last := h.n, back := 0, counted := false } }
  | true, some x => { h with clip := some { x with last := h.n } }
  | false, some x => { h with clip := none, done := h.done ++ [x] }
  | false, none => h

/-! ### One sample through the lane -/

/-- What does not change while a lane hears a run of samples: the nominal bit period, the target's taps, and the parameters that a row start takes. -/
structure Hearing where
  /-- Nominal bit period, 1/65,536 sample. -/
  period : Nat
  /-- Detector target. -/
  taps : List Int
  /-- Row parameters now in force. -/
  par : RowPar
  deriving DecidableEq, Repr

/-- DS bit of a number of bits sampled, while a DS is framed: `bitsAt` is DS bit 480. -/
def Lane.dsBit (l : Lane) (n : Nat) : Int := 480 + ((n : Int) - l.bitsAt)

/-- Expected sync position of slot `k` (R129). -/
def Lane.expected (l : Lane) (k : Nat) : Int :=
  match l.confirmed with
  | some (j, a) => a + 8227 * ((k : Int) - j)
  | none => 600 + 8227 * k

/-- Parameters of the row: those in force at the start of the row whose window comes next; outside a DS always those now in force (R150). -/
def Lane.atRow (l : Lane) (h : Hearing) : Lane :=
  if !l.inDs || l.dsBit l.sig.n = l.expected l.next - 120 then { l with par := h.par } else l

/-- A detected channel bit joins those waiting for framing. A lane that searches keeps the newest 1,024. -/
def Lane.take (l : Lane) (c : Bool) : Lane :=
  if l.inDs then { l with bits := l.bits ++ [c] }
  else
    let cut := l.bits.length - 1023
    { l with bits := l.bits.drop cut ++ [c], bitsAt := l.bitsAt + cut }

/-- One bit sample `x` in 1/64 LSB: equaliser, detector, adaptation of the equaliser, timing loop, dropout detector; and the channel bit that leaves the
path memory (R119 to R122, R133). -/
def Lane.bit (l : Lane) (h : Hearing) (x : Int) : Lane :=
  let l := l.atRow h
  let g := l.sig
  let line := (x :: g.line).take 11
  let y := firOut l.fir line
  let paths := viterbi h.taps y g.paths
  let path := bestPath paths
  let ideal := idealLevel h.taps path
  let e := Config.phaseError g.y.1 g.y.2 y ideal
  let gains := Config.loopGains (gainSet l.inDs (g.n - l.mark))
  let freq := clampFreq (g.freq + gains.2 * e)
  let errs := ((e * e).toNat :: g.errs).take 64
  let wait := ((g.wait : Int) + h.period + h.period * freq / 2 ^ 20 + gains.1 * e).toNat
  let reach := if Nat.testBit l.bnd.adapt 3 then l.bnd.factor * l.bnd.fir else 0
  let locked := loopLocked errs
  let b := Nat.testBit path 63
  let g1 := (({ g with freq, errs, wait, line, y := (y, ideal), paths }).amplitude l.par y.natAbs).clipping
  let l1 := { l with sig := { g1 with n := g.n + 1, mag := if g.n < 63 then none else some b }, fir := lmsTaps l.bnd.mu reach (y - ideal) l.fir0 l.fir line
                     locked, unlocked := if l.inDs && !locked then l.unlocked + 1 else 0, late := l.late && !locked }
  if g.n < 63 then l1 else l1.take (nrziBit g.mag b)

/-- One sample of the input, 1/256 LSB at 0 dB: the ADC code, and the bit samples that lie before it. -/
def Lane.sample (h : Hearing) (codes : Int × Int × Int) (l : Lane) (u : Int) : Lane :=
  let c := adcCode (adcInput codes.1 codes.2.1 codes.2.2 u)
  let g := l.sig
  let lim := (atLimit c).toNat
  let g1 := { g with prev := c, samples := g.samples + 1, clipped := g.clipped + lim, clips := (g.clips.headD 0 + lim) :: g.clips.drop 1 }
  if g.wait < 65536 then
    let l1 := ({ l with sig := g1 }).bit h (interpolate g.prev c (g.wait / 1024))
    { l1 with sig := { l1.sig with wait := l1.sig.wait - 65536 } }
  else { l with sig := { g1 with wait := g.wait - 65536 } }

/-- A run of samples. -/
def Lane.hears (h : Hearing) (codes : Int × Int × Int) (l : Lane) (us : List Int) : Lane := us.foldl (Lane.sample h codes) l

/-! ### Framing of detected bits (R126, R127, R130) -/

/-- Number of separator periods at the head of a list of bits. -/
def periodsAt : Nat → List Bool → Nat
  | 0, _ => 0
  | n + 1, l => if l.take 6 = [true, false, false, false, false, false] then periodsAt n (l.drop 6) + 1 else 0

/-- The first transition in the preamble's 4-bit spacing. -/
def preambleAt (l : List Bool) : Bool := l.take 5 = [true, false, false, false, true]

/-- Where the separator ends in a list of bits: after at least `least` periods, at the first transition in the spacing of the preamble (R126). -/
def separatorEnd (least : Nat) : List Bool → Option Nat
  | [] => none
  | b :: l =>
    let n := periodsAt (l.length / 6 + 1) (b :: l)
    if least ≤ n && preambleAt ((b :: l).drop (6 * n)) then some (6 * n) else (separatorEnd least l).map (· + 1)

/-- Differing bits. -/
def hamming : List Bool → List Bool → Nat
  | a :: as, b :: bs => (a ^^ b).toNat + hamming as bs
  | as, bs => as.length + bs.length

/-- Bits of a DS from DS bit `d` on, where `bits` begins with DS bit 480. -/
def bitsFrom (bits : List Bool) (d : Int) : List Bool := bits.drop (d - 480).toNat

/-- Candidates for a mark within `w` bits around DS bit `d`: offset and number of differing bits. -/
def markCands (mark bits : List Bool) (d : Int) (w : Nat) : List (Int × Nat) :=
  (List.range (2 * w + 1)).map (fun i =>
    let o : Int := (i : Int) - w
    (o, hamming mark ((bitsFrom bits (d + o)).take mark.length)))

/-- Candidate `x` ranks before `y`: by distance, by nearness to the expected position, then the earlier one (R127). -/
def candBefore (x y : Int × Nat) : Bool :=
  decide (x.2 < y.2) || (x.2 = y.2 && (decide (x.1.natAbs < y.1.natAbs) || (x.1.natAbs = y.1.natAbs && decide (x.1 < y.1))))

/-- Insert a candidate by rank. -/
def candInsert (x : Int × Nat) : List (Int × Nat) → List (Int × Nat)
  | [] => [x]
  | y :: ys => if candBefore x y then x :: y :: ys else y :: candInsert x ys

/-- Candidates with at most `maxd` differing bits, best first. -/
def rankCands (maxd : Nat) (l : List (Int × Nat)) : List (Int × Nat) := (l.filter (fun x => decide (x.2 ≤ maxd))).foldr candInsert []

/-- The resync candidate of a row whose sync starts at DS bit `a`: within ±8 bits, the lowest distance and the nearest (R130). -/
def resyncOf (maxd : Nat) (bits : List Bool) (a : Int) : Option (Int × Nat) := (rankCands maxd (markCands patResync bits (a + 4049) 8)).head?

/-- The 972 row bytes of a row whose sync starts at DS bit `a`: the second half from the resync, or from the sync when it was missed (R130, R137). -/
def frameRow (bits : List Bool) (a : Int) (resync : Option (Int × Nat)) : Bytes :=
  let r := a + 4049 + resync.elim 0 Prod.fst
  bytesOfBits 972 (removeOnes 0 ((bitsFrom bits (a + 40)).take 4009 ++ (bitsFrom bits (r + 24)).take 4010))

/-! ### Words of rows and pointers (R136, R137) -/

/-- A signed number in `w` bits. -/
def twos (w : Nat) (x : Int) : Nat := (x % 2 ^ w).toNat

/-- A two's complement field of `w` bits. -/
def sField (w x : Nat) : Int := if x % 2 ^ w < 2 ^ (w - 1) then (x % 2 ^ w : Nat) else ((x % 2 ^ w : Nat) : Int) - 2 ^ w

/-- The erasure pointer word (R136). -/
def Pointer.word (p : Pointer) : Nat :=
  p.chan % 512 + 2 ^ 9 * (p.slot % 8) + 2 ^ 12 * (p.first % 1024) + 2 ^ 22 * (p.last % 1024) + 2 ^ 32 * p.whole.toNat + 2 ^ 33 * (p.cand % 2)
    + 2 ^ 34 * (p.cause % 16) + 2 ^ 40 * (p.tag % 2 ^ 24)

/-- The pointer that a word stands for. -/
def Pointer.ofWord (w : Nat) : Pointer :=
  { chan := bitsOf w 8 0, slot := bitsOf w 11 9, cand := bitsOf w 33 33, first := bitsOf w 21 12, last := bitsOf w 31 22, whole := Nat.testBit w 32
    cause := bitsOf w 37 34, tag := bitsOf w 63 40 }

/-- The row descriptor, word 0 of a row packet (R137). -/
def RowPkt.word (p : RowPkt) (chan slot cand : Nat) : Nat :=
  chan % 512 + 2 ^ 9 * (slot % 8) + 2 ^ 12 * (cand % 2) + 2 ^ 13 * p.two.toNat + 2 ^ 14 * (p.dist % 8) + 2 ^ 17 * twos 6 p.offset
    + 2 ^ 23 * (p.resync % 4) + 2 ^ 25 * twos 5 p.rsOff + 2 ^ 30 * (p.zone % 16) + 2 ^ 34 * p.retired.toNat + 2 ^ 35 * p.erased.toNat
    + 2 ^ 36 * (p.variant % 16) + 2 ^ 40 * (p.tag % 2 ^ 32) + 2 ^ 72 * (p.time % 2 ^ 32)

/-- The packet of a row: the descriptor and the 972 row bytes, or the descriptor alone (R137). -/
def RowPkt.packet (p : RowPkt) (chan slot cand : Nat) : List FWord :=
  if p.bytes.isEmpty then [{ payload := p.word chan slot cand, last := true, count := 0 }]
  else { payload := p.word chan slot cand, last := false, count := 0 } :: dataPacket p.bytes

/-- Read tag of the copy at a position: it identifies the DS copy (R137; its layout is the model's own, log 74). -/
def readTag (wrap pos : Nat) : Nat := 2 ^ 20 * wrap + pos

/-- Key of a row packet: channel, slot and candidate. -/
def rowKey (lane slot cand : Nat) : Nat := (8 * lane + slot) * 2 + cand

/-- A row packet as the decoder reads it, with its key. -/
def RowPkt.ofPacket (ws : List FWord) : Nat × RowPkt :=
  let w := (ws.headD { payload := 0, last := true, count := 0 }).payload
  (rowKey (bitsOf w 8 0) (bitsOf w 11 9) (bitsOf w 12 12),
   { two := Nat.testBit w 13, tag := bitsOf w 71 40, bytes := packetBytes (ws.drop 1), offset := sField 6 (bitsOf w 22 17), dist := bitsOf w 16 14
     resync := bitsOf w 24 23, rsOff := sField 5 (bitsOf w 29 25), zone := bitsOf w 33 30, retired := Nat.testBit w 34, erased := Nat.testBit w 35
     variant := bitsOf w 39 36, time := bitsOf w 103 72 })

/-! ### Servo bands and readers (R63, R114) -/

/-- Module and servo band of servo reader `i`: reader i mod 2 of module i div 2, on the band below or above its data band. -/
def servoPlace (i : Nat) : Nat × Nat :=
  let b := servoBandsOf (i / 2)
  (i / 2, if i % 2 = 0 then b.1 else b.2)

end Sys2Proof.Machine
end

