-- ==== Sys2Proof/Machine/ReadCal.lean ====
section
/-! DEFINITION. Zone table entries (R123) and the background calibration of the read channel (R146). -/

namespace Sys2Proof.Machine

/-- Gain code of an entry. -/
def entryGain (e : Nat) : Int := (e % 64 : Nat)
/-- Offset code of an entry. -/
def entryOffset (e : Nat) : Int := sField 8 (e / 2 ^ 8)
/-- Asymmetry code of an entry. -/
def entryAsym (e : Nat) : Int := sField 7 (e / 2 ^ 16)

/-- An entry of these codes, with the calibrated bit. -/
def entryOf (gain offset asym : Int) (calibrated : Bool) : Nat :=
  (max 0 (min 63 gain)).toNat + 2 ^ 8 * (max (-128) (min 127 offset) % 256).toNat + 2 ^ 16 * (max (-64) (min 63 asym) % 128).toNat
    + (if calibrated then 2 ^ 31 else 0)

/-- Rounded mean of a sum of `n` values, ties upwards. -/
def roundMean (sum : Int) (n : Nat) : Int := (2 * sum + n) / (2 * max 1 n : Nat)

/-- A code moved towards a mean by at most `step`; the result says whether the step limited it. -/
def stepTo (step : Nat) (x mean : Int) : Int × Bool :=
  if (mean - x).natAbs ≤ step then (mean, false) else (if x < mean then x + step else x - step, true)

/-- Clear sums. -/
def CalSum.zero : CalSum := { n := 0, gain := 0, offset := 0, asym := 0, need := 0 }

/-- Add a reference row to a lane's sums in zone `z`: the row count needed is latched with the first (R146, R150). -/
def State.calAdd (s : State) (z lane cur : Nat) : State :=
  s.modRc (fun r => { r with cal := NMap.upd CalSum.zero r.cal (512 * z + lane) (fun c =>
    { n := c.n + 1, gain := c.gain + entryGain cur, offset := c.offset + entryOffset cur, asym := c.asym + entryAsym cur
      need := if c.n = 0 then s.pn pTRC_CAL_MIN else c.need }) })

/-- Update one entry from its sums (R146): the calibrated bit is set and the sums cleared; a limited update is reported on the lane. -/
def State.calEntry (s : State) (k : Nat) (c : CalSum) : State :=
  let e := s.pni pTRC_ZTAB k
  let st := s.pn pTRC_CAL_STEP
  let g := stepTo st (entryGain e) (roundMean c.gain c.n)
  let o := stepTo st (entryOffset e) (roundMean c.offset c.n)
  let a := stepTo st (entryAsym e) (roundMean c.asym c.n)
  let t := (s.setPv pTRC_ZTAB k (entryOf g.1 o.1 a.1 true : Nat)).modRc (fun r => { r with cal := NMap.del r.cal k, calDirty := true })
  if g.2 || o.2 || a.2 then t.raise (k % 512) 7 [] else t

/-- Apply the background updates of the zones that `p` chooses (R146): suspended in SERVICE and while TRC_CAL_EN is 0. -/
def State.calUpdate (s : State) (p : Nat → Bool) : State :=
  if s.mag.st = .service || s.pn pTRC_CAL_EN = 0 then s
  else
    s.rc.cal.foldl (fun (t : State) (e : Nat × CalSum) =>
      if p (e.1 / 512) && decide (max 1 e.2.need ≤ e.2.n) then t.calEntry e.1 e.2 else t) s

end Sys2Proof.Machine
end

