-- ==== Sys2Proof/Machine/Spooling.lean ====
section
/-! DEFINITION. The formatter: speed requests and crawl (R78, R83, R84, R98), FSYNC (R79, R80, R465), position boundaries (R58 to R62, R81, R82,
R88), verify results (R86 to R90, R94), group spool commit (R77, R92, R93), wrap turnarounds (R85, R210), the tape-tail scan (R443). -/

namespace Sys2Proof.Machine

/-! ### Speed requests and crawl (R78, R83, R84, R98) -/

/-- v_req of R78 in SPOOLING, mm/s, rounded down; v_ff is 0 in dock context and with TFM_FF_SOURCE at 1 (R80). -/
def State.requestedSpeed (s : State) : Nat :=
  let above : Int := (s.backlog : Int) - 2 ^ 20 * s.pn pTFM_BKLG_TARGET
  let v : Int := (if s.mag.ctx = .dock || s.pn pTFM_FF_SOURCE = 1 then 0 else s.sp.vff : Nat) + (s.pn pTFM_BKLG_GAIN : Int) * above / (100 * 2 ^ 20)
  (min (max v 500) (s.pn pTFM_VMAX_REC)).toNat

/-- A take LBA lies in the open DS, a data DS of the open group, or on its way there (R98). -/
def State.lbaOpen (s : State) (lba : Nat) : Bool :=
  let open_ (q : Nat) : Bool := s.sp.groupFirst.elim false (fun f => decide (f ≤ q))
  match NMap.find? s.sp.wbuf lba with
  | some w => w.ds.elim true open_
  | none => s.sp.images.any (fun e => open_ e.1 && e.2.lbas.any (fun r => decide (r.1 ≤ lba) && decide (lba < r.1 + r.2)))

/-- A Spool Commit or FUA write is pending whose data a commit close has to close (R98). -/
def State.commitPending (s : State) : Bool :=
  s.sp.uncommitted.any (fun e => s.lbaOpen e.1 && s.commitCovers e.2)

/-- A commit close is called for when the crawl limit expires: for a pending commit, and in dock context whenever a DS or group is open. -/
def State.closeDue (s : State) : Bool :=
  s.commitPending || (s.mag.ctx = .dock && (!s.sp.cur.payload.isEmpty || s.sp.groupFirst.isSome))

/-- The crawl limit has expired and the spool queue is empty: the commit close, or the controlled stop (R84, R98). A generation being recorded is
completed first (DESIGN CHOICE, log 79). -/
def State.crawlEnd (s : State) : State :=
  if s.mag.st = .crawl && s.sp.crawl = some 0 && s.queueEmpty && s.ctl.after.isNone && !s.sp.closing && s.sp.gen.isNone then
    if s.closeDue then (s.modSp (fun p => { p with closing := true, closeAt := none, closeGrp := none, crawl := none })).drainStep
    else (s.modSp (fun p => { p with crawl := none })).stopTape .hold false
  else s

/-- Every copy of the groups that begin before DS `q` has a verify result, and none of them is to be sent again. -/
def State.verifiedBefore (s : State) (q : Nat) : Bool :=
  (s.inFlight ++ s.queued).all (fun c => (s.groupOfCopy c).elim true (fun f => decide (q ≤ f)))

/-- A commit close is over once the copies it closed have been verified: the stop follows (R98). Data that has arrived meanwhile is not waited for. -/
def State.closeEnd (s : State) : State :=
  if s.sp.closing && s.sp.closeGrp.elim false s.verifiedBefore && s.ctl.after.isNone then
    (s.modSp (fun p => { p with closing := false, closeAt := none, closeGrp := none })).stopTape .hold false
  else s

/-- Enter CRAWL: its timer starts with the limit of now (R84). -/
def State.enterCrawl (s : State) : State := (s.enter .crawl).modSp (fun p => { p with crawl := some (s.pn pTFM_CRAWL_LIMIT) })

/-- SPOOLING and CRAWL by the backlog (R83). -/
def State.crawlSwitch (s : State) : State :=
  let b := s.backlog
  if s.mag.st = .spooling && s.queueEmpty && decide (b < 2 ^ 20 * s.pn pTFM_CRAWL_ENTRY) then s.enterCrawl
  else if s.mag.st = .crawl && decide (2 ^ 20 * s.pn pTFM_CRAWL_EXIT < b) then (s.enter .spooling).modSp (fun p => { p with crawl := none })
  else s

/-- SPEED_REQUEST_UPDATE (R78, R83, R171): every 200 µs; a playback in progress takes TRC_PB_VMAX. -/
def execSpeedRequestUpdate (s : State) : Out :=
  .next (
    let t := s.crawlSwitch
    let u := t.modSp (fun p => { p with vreq := if t.mag.st = .spooling then t.requestedSpeed else if t.mag.st = .crawl then 500 else p.vreq })
    (u.when (u.mag.st = .playback && u.rc.pass.elim false (fun p => p.running && p.kind != 1)) (fun v =>
      v.modCtl (fun c => { c with target := c.dir * (v.pn pTRC_PB_VMAX : Nat) }))).crawlEnd)

/-- CRAWL_LIMIT_EXPIRY (R84, R98): the crawl timer has run out. With copies still awaiting recording or results, crawl goes on until there are
none. -/
def execCrawlLimitExpiry (s : State) : Out :=
  .next (
    if s.mag.st = .crawl && s.sp.crawl.isSome then ((s.modSp (fun p => { p with crawl := some 0 })).crawlEnd).serve
    else s)

/-! ### FSYNC (R79, R80, R465) -/

/-- The feed-forward from the latched counts, mm/s (R79). -/
def State.feedForward (s : State) (hist : List (Nat × Nat)) : Nat :=
  let n := s.pn pTFM_FF_FRAMES
  let l := hist.take n
  let period := (hist.headD (0, 1)).2
  (l.foldl (fun a e => a + e.1) 0) * 1000000 / (max 1 l.length * max 1 period * 2965609)

/-- FSYNC_EDGE (R79, R80, R465): a rising edge after `lowNs` low that stays high for `highNs`, `periodUs` after the one before. A pulse shorter
than 2 µs is no edge; a period outside 1 ms to 1 s is discarded and breaks a run of consecutive ones. -/
def execFsyncEdge (lowNs highNs periodUs : Nat) (s : State) : Out :=
  .next (
    if !s.mag.st.alive || decide (lowNs < 2000) || decide (highNs < 2000) then s
    else if periodUs < 1000 || 1000000 < periodUs then
      s.modSp (fun p => { p with ffHist := if p.ffRun then p.ffHist else [] })
    else
      let h := ((s.sp.latch, periodUs) :: s.sp.ffHist).take 15
      let run := s.sp.ffRun || decide (s.pn pTFM_FF_FRAMES ≤ h.length)
      let back := run && !s.sp.ffRun && !s.sp.fsyncOk
      let v := if run && s.pn pTFM_FF_SOURCE = 0 && s.mag.ctx != .dock then s.feedForward h else 0
      let t := s.modSp (fun p => { p with ffHist := h, latch := 0, ffRun := run, fsyncOk := p.fsyncOk || back, vff := v })
      if back then t.raise 0x47C 2 [] else t)

/-- FSYNC_TIMEOUT (R80, R465): no valid period has ended for 2 s. -/
def execFsyncTimeout (s : State) : Out :=
  .next (
    if !s.mag.st.alive || !s.sp.fsyncOk then s
    else (s.modSp (fun p => { p with fsyncOk := false, ffRun := false, ffHist := [], vff := 0 })).raise 0x47C 1 [])

/-! ### Position boundaries (R58 to R62, R81, R82, R88) -/

/-- The zone of the position that begins (R81). -/
def State.zoneSelect (s : State) : State :=
  if s.rc.speedOk then s.modSp (fun p => { p with zone := s.nextZone p.zone s.rc.speed }) else s

/-- A position passes blank: no write current. -/
def State.blank (s : State) (skip : Bool) : State :=
  let w := s.recWrap
  let t := (s.modSp (fun p =>
    { p with
      sinceBoot := NMap.bumpSat (2 ^ 64 - 1) p.sinceBoot 1 1
      perWrap := NMap.bumpSat (2 ^ 32 - 1) p.perWrap (8 * w + 3) 1
      life := if skip then NMap.bumpSat (2 ^ 64 - 1) p.life 3 1 else p.life
      skip := if skip then p.skip - 1 else p.skip
      wrapUsed := p.wrapUsed || p.gen.isNone, resume := p.resume && p.gen.isSome })).modCtl (fun c => { c with writing := false })
  match t.sp.gen with
  | some g => t.modSp (fun p => { p with gen := some { g with pos := g.pos + 1 } })
  | none => t.modSp (fun p => { p with pos := p.pos + 1 })

/-- Bytes of one copy that one head module writes: 32 channels of 8 rows of 972 bytes (R45, R54). -/
abbrev moduleBytes : Nat := 32 * 8 * 972

/-- What a copy consists of passes from DS assembly to the C2 encoder, and from the C1 encoder and interleave to the write lanes of every head module; an
index DS comes from the index path (R11, R101). -/
def State.passCopy (s : State) (c : Copy) : State :=
  (List.range 16).foldl (fun (t : State) m => t.passBytes (20 + m) moduleBytes) ((if c.kind = .index then s.pass 73 1 1 else s).passBytes 19 dsInfo)

/-- The stages that a copy passes move: none of their FIFOs is halted (R101, R111). -/
def State.writeFlows (s : State) : Bool :=
  s.flows 19 && (List.range 16).all (fun m => s.flows (20 + m)) && (if s.sp.gen.isSome then s.flows 73 else s.flows 66)

/-- A copy starts at the position that begins (R60, R61). -/
def State.startCopy (s0 : State) (c : Copy) (wrap pos : Nat) : State :=
  let s := s0.passCopy c
  let rw := s.sp.copied.contains c
  let one (b : Bool) : Nat := if b then 1 else 0
  (s.modSp (fun p =>
    { p with
      started := p.started ++ [{ copy := c, wrap, pos, rewrite := rw, fresh := true, cut := false, zone := p.zone, good := [], c1Fail := [], heads := [], result := none }]
      copied := if rw then p.copied else p.copied ++ [c]
      life := NMap.bumpSat (2 ^ 64 - 1) p.life 0 (one rw)
      sinceBoot := NMap.bumpSat (2 ^ 64 - 1) p.sinceBoot 0 (one rw)
      perWrap := NMap.bumpSat (2 ^ 32 - 1) (NMap.bumpSat (2 ^ 32 - 1) p.perWrap (8 * wrap + 1) 1) (8 * wrap + 2) (one rw) })).modCtl (fun c => { c with writing := true })

/-- Code under which the failed copies of a DS are counted on the wrap. -/
def Copy.failKey (c : Copy) : Nat := c.word

/-- Failed copies of a DS in a row on this wrap. The count is held in the low 4 bits; bit 4 says that its skip has been taken. -/
def State.failCount (s : State) (c : Copy) : Nat := NMap.get 0 s.sp.fails c.failKey % 16

/-- The skip before the next copy of a DS is due: its count has reached TFM_SKIP_AFTER and the skip has not been taken (R88). -/
def State.skipDue (s : State) (c : Copy) : Bool :=
  decide (s.pn pTFM_SKIP_AFTER ≤ s.failCount c) && decide (NMap.get 0 s.sp.fails c.failKey < 16)

/-- Take the skip of a DS: this position is the first of TFM_SKIP_LEN blank ones. -/
def State.takeSkip (s : State) (c : Copy) : State :=
  ((s.modSp (fun p => { p with fails := NMap.upd 0 p.fails c.failKey (· + 16), skip := s.pn pTFM_SKIP_LEN }))).blank true

/-- A generation has ended, complete or abandoned: a park or unload goes on to its move, a turnaround to the next data wrap (R93, R94, R210). -/
def State.afterGen (s : State) : State :=
  match s.ctl.tasks with
  | .park _ _ :: _ =>
    if 2 ≤ s.ctl.stage then (s.modCtl (fun c => { c with stage := 3, writing := false })).stopTape .park false
    else (s.modCtl (fun c => { c with writing := false })).startMove (.position s.sp.wrap s.sp.pos)
  | .unload _ :: _ => (s.modCtl (fun c => { c with stage := 3, writing := false })).stopTape .park false
  | _ => (s.modCtl (fun c => { c with writing := false })).startMove (.position s.sp.wrap s.sp.pos)

/-- Index DS to be recorded next: after the last one started since the last rewind, else the next to be verified (R68, R94). -/
def State.nextIndex (s : State) (g : IndexGen) : Nat :=
  match (s.sp.started.filter (fun x => x.copy.kind = .index && x.fresh)).getLast? with
  | some x => x.copy.seq + 1
  | none => g.at_

/-- An index position begins (R67, R68, R93, R94). -/
def State.indexBoundary (s : State) (g : IndexGen) (ready : Bool) : State :=
  let n := s.nextIndex g
  let c : Copy := { kind := .index, seq := n, m := 0 }
  if g.ds.length ≤ n then s.blank false
  else if 8000 ≤ g.pos then s.abandonGen.afterGen
  else if s.sp.skip != 0 then s.blank true
  else if !ready then s.blank false
  else if s.skipDue c then s.takeSkip c
  else (s.startCopy c g.wrap g.pos).modSp (fun p => { p with gen := some { g with pos := g.pos + 1 } })

/-- A group whose recording has begun on the wrap still needs positions (R59). -/
def State.groupUnfinished (s : State) : Bool := s.begunGroup s.sp.groupFirst || s.queued.any (fun c => s.begunGroup (s.groupOfCopy c))

/-- A position of the append wrap begins while recording goes on. -/
def State.dataBoundary (s : State) (ready : Bool) : State :=
  if s.sp.wrapEnd then s.modCtl (fun c => { c with writing := false })
  else if wrapPositions ≤ s.sp.pos then
    (s.modSp (fun p => { p with wrapEnd := true, carry := p.carry || s.groupUnfinished })).modCtl (fun c => { c with writing := false })
  else if s.noRoom then (s.modSp (fun p => { p with wrapEnd := true, carry := p.carry || s.groupUnfinished })).modCtl (fun c => { c with writing := false })
  else if s.sp.skip != 0 then s.blank true
  else
    match s.queued.head? with
    | none => s.blank false
    | some c =>
      if !ready then s.blank false
      else if s.skipDue c then s.takeSkip c
      else
        (s.spoolStart.startCopy c s.sp.wrap s.sp.pos).modSp (fun p =>
          { p with pos := p.pos + 1, wrapUsed := true, resume := false
                   recGroup := if s.begunGroup (s.groupOfCopy c) then p.recGroup else s.groupOfCopy c
                   crawl := if s.mag.st = .crawl then some (s.pn pTFM_CRAWL_LIMIT) else p.crawl })

/-- A position of the wrap begins while the tape is recorded. -/
def State.boundary (s : State) (ready : Bool) : State :=
    if !s.recording || s.ctl.tsub = .dwell then s
    else
      let t := (((s.applyPend (fun p i => (groupOf p i).1 = pTFM_CRAWL_ENTRY)).zoneSelect).modCtl (fun c => { c with target := 0 }))
      let u := if t.mag.st = .crawl then t.calUpdate (fun z => z != 0) else t
      if u.ctl.tsub = .stopping then (if u.sp.wrapEnd || u.sp.gen.isSome then u else u.blank false)
      else
        match u.sp.gen with
        | some g => u.indexBoundary g (ready && u.writeFlows)
        | none => u.dataBoundary (ready && u.writeFlows)

/-! ### Verify results (R86 to R90, R92, R94) -/

/-- The row of channel `c`, slot `k` of a copy has failed: no header passed, or C1 could not correct it (R86). -/
def Started.rowFailed (x : Started) (c k : Nat) : Bool := !Nat.testBit (NMap.get 0 x.good c) k || Nat.testBit (NMap.get 0 x.c1Fail c) k

/-- Channels all of whose 8 rows failed on a copy. -/
def Started.deadChannels (x : Started) : List Nat :=
  (List.range 512).filter (fun c => (List.range 8).all (x.rowFailed c))

/-- Retire a channel, when the limits of R90 allow it. -/
def State.retireChannel (s : State) (c : Nat) : State :=
  if s.sp.retired.contains c || 16 ≤ s.sp.retired.length || 4 ≤ s.sp.retired.countP (fun x => x % 4 = c % 4) then s
  else ((s.noteFault 0x0C).modSp (fun p => { p with retired := p.retired ++ [c] })).raise (0x200 + c) 1 (leBytes 2 c)

/-- Count the runs of all-slot failures and retire the channels that reach TFM_RETIRE_RUN (R90). -/
def State.retireCheck (s : State) (x : Started) : State :=
  let dead := x.deadChannels
  let t := s.modSp (fun p => { p with retireRun := dead.foldl (fun (m : NMap Nat) c => NMap.put m c (min 255 (NMap.get 0 p.retireRun c + 1))) [] })
  dead.foldl (fun u c => if s.pn pTFM_RETIRE_RUN ≤ NMap.get 0 u.sp.retireRun c then u.retireChannel c else u) t

/-- A copy passes verify (R86): no header failed on an active channel, and no SDS has more than TFM_VERIFY_ROWS rows that C1 cannot correct. -/
def State.copyPasses (s : State) (x : Started) : Bool :=
  let act := (List.range 512).filter (fun c => !s.sp.retired.contains c)
  let bad : List Nat := act.flatMap (fun c => ((List.range 8).filter (Nat.testBit (NMap.get 0 x.c1Fail c))).map (fun k => (rowAt c k).1))
  !x.cut && act.all (fun c => NMap.get 0 x.good c % 256 = 255)
    && bad.all (fun d => decide (bad.countP (fun e => e = d) ≤ s.pn pTFM_VERIFY_ROWS))

/-- Where a copy of a group's DS was first verified on the append wrap. -/
def State.verifiedAt (s : State) (c : Copy) : Option Nat :=
  (s.sp.verified.find? (fun v => v.copy.kind = c.kind && v.copy.seq = c.seq && v.wrap = s.sp.wrap)).map (fun v => v.pos)

/-- Data runs of a group from the positions of its DS, in sequence order (R95). -/
def dataRuns (w f : Nat) : List (Nat × Nat) → List Loc
  | [] => []
  | (q, p) :: rest =>
    match dataRuns w f rest with
    | l :: ls => if l.seq = q + 1 && l.pos = p + 1 then { l with seq := q, pos := p, count := l.count + 1 } :: ls
                 else { seq := q, count := 1, wrap := w, kind := 0, pos := p, group := f } :: l :: ls
    | [] => [{ seq := q, count := 1, wrap := w, kind := 0, pos := p, group := f }]

/-- Location entries of group `f` of `m` data DS, once every DS of it has a verified copy on the append wrap (R92, R95). The parity pair has one entry,
with parity DS 0's position and Count 2, whether or not the two copies adjoin (DEDUCED from the table of R95, log 15): a reader looks for parity DS 1
behind it, within its copy window. -/
def State.groupLocs (s : State) (f m : Nat) : Option (List Loc) :=
  ((List.range m).mapM (fun i => (s.verifiedAt { kind := .data, seq := f + i, m := 0 }).map (fun p => (f + i, p)))).bind (fun ds =>
    match s.verifiedAt { kind := .parity0, seq := f, m }, s.verifiedAt { kind := .parity1, seq := f, m } with
    | some a, some _ => some (dataRuns s.sp.wrap f ds ++ [{ seq := f, count := 2, wrap := s.sp.wrap, kind := 1, pos := a, group := f }])
    | _, _ => none)

/-- Zones with data in the data DS of group `f` of `m`. -/
def State.groupZones (s : State) (f m : Nat) : List Nat :=
  ((List.range m).flatMap (fun i => ((NMap.find? s.sp.images (f + i)).map (fun v => v.lbas.map (fun r => zoneOf r.1))).getD [])).eraseDups

/-- Group `f` has become complete: its locations and the take and zone state it completes go to the index journal (R92). -/
def State.groupDone (s : State) (f m : Nat) : State :=
  match s.groupLocs f m with
  | none => s
  | some ls =>
    let t := s.modSp (fun p =>
      { p with locs := p.locs ++ ls, verified := p.verified.filter (fun v => s.groupOfCopy v.copy != some f), carried := false })
    let ts := (t.sp.takes.filter (fun e => e.2.firstDs.elim false (fun a => decide (a < f + m)) && e.2.lastDs.elim false (fun b => decide (f ≤ b)))).map
      (fun e => JRec.take e.1 e.2)
    let zs := (t.groupZones f m).map (fun z => JRec.zone z (if t.zone z = Zone.zero then none else some (t.zone z)))
    t.indexCommit (ls.map .loc ++ ts ++ zs ++ [.append t.sp.wrap t.sp.pos, t.counterRec])

/-- A copy passed: its first verified position is kept, the mark moves past a copy started since the last rewind, and a group or generation
that this completes goes on (R77, R87, R92, R109). -/
def State.copyPassed (s : State) (x : Started) : State :=
  let t := s.modSp (fun p =>
    { p with
      started := p.started.drop 1, fails := NMap.del p.fails x.copy.failKey, life := NMap.bumpSat (2 ^ 64 - 1) p.life 1 1
      verified := if x.copy.kind = .index || p.verified.any (fun v => v.copy = x.copy && v.wrap = x.wrap) then p.verified
                  else p.verified ++ [{ copy := x.copy, wrap := x.wrap, pos := x.pos }] })
  if x.copy.kind = .index then
    match t.sp.gen with
    | some g =>
      if x.fresh && x.copy.seq = g.at_ then
        let u := t.modSp (fun p => { p with gen := some { g with at_ := g.at_ + 1 }, copied := if g.at_ + 1 = g.ds.length then p.copied.filter (fun c => c.kind != .index) else p.copied })
        if g.at_ + 1 = g.ds.length then u.completeGen.afterGen else u
      else t
    | none => t
  else
    let u := if x.fresh then t.retain .advance else t
    match t.groupOfCopy x.copy with
    | some f => (match NMap.find? u.sp.groups f with | some m => u.groupDone f m | none => u)
    | none => u

/-- A copy failed: its DS and every DS after it are sent again, or the ladder of R88 and R89 takes its next step (R87 to R89, R94, R109). -/
def State.copyFailed (s : State) (x : Started) : State :=
  let t := s.modSp (fun p =>
    { p with
      started := (p.started.drop 1).map (fun y => if x.fresh then { y with fresh := false } else y)
      fails := NMap.upd 0 p.fails x.copy.failKey (fun v => if v % 16 = 15 then v else v + 1)
      life := NMap.bumpSat (2 ^ 64 - 1) p.life 2 1 })
  let out := decide (s.pn pTFM_REWRITE_MAX ≤ t.failCount x.copy)
  if x.copy.kind = .index then
    (if t.sp.gen.isNone then t else if out then (t.modSp (fun p => { p with fails := NMap.del p.fails x.copy.failKey })).abandonGen.afterGen else t)
  else
    let u := if x.fresh then t.retain .rewindMark else t
    if u.sp.suspended then u
    else if out && u.sp.carried then
      (((u.modSp (fun p =>
        { p with suspended := true, suspendedAt := p.wrap % 256 + 256 * (x.copy.seq % 2 ^ 24), life := NMap.bumpSat (2 ^ 64 - 1) p.life 5 1
                 closing := false, closeAt := none, closeGrp := none, draining := false })).journalOpen (leBytes 1 x.wrap ++ leBytes 4 x.copy.seq)).asyncEvent 7 1 0xC4).stopTape .hold false
    else if out || (u.sp.wrapEnd && x.fresh) then u.modSp (fun p => { p with wrapEnd := true, carry := true })
    else u

/-- The results that are available take effect, oldest copy first, each as far as the one before it has; each comes through FIFO 67 (R87, R101). -/
def State.takeResults : Nat → State → State
  | 0, s => s
  | n + 1, s =>
    match s.sp.started with
    | x :: _ =>
      match x.result with
      | some ok => State.takeResults n (let t := s.pass 67 1 1; if ok then t.copyPassed x else t.copyFailed x)
      | none => s
    | [] => s

/-- Act on the results that are available, and on what follows from them: sequences, the end of a commit close, the end of crawl (R84, R87, R98). Behind a
halted FIFO 67 they wait (R111). -/
def State.actOnResults (s : State) : State :=
  if s.flows 67 && s.sp.started.head?.elim false (fun x => x.result.isSome) then ((s.takeResults s.sp.started.length).serve.closeEnd).crawlEnd else s

/-- No position boundary follows on which a result could take effect: the tape is not recorded now, or the wrap has ended (R85, R87). -/
def State.noBoundary (s : State) : Bool := !s.recording || s.sp.wrapEnd

/-- VERIFY_RESULT (R86, R87, R90): the oldest copy without a result is judged, channel retirement taking effect first. The formatter acts on the result
at the first position boundary after it; where none follows, at once (log 15). -/
def execVerifyResult (s : State) : Out :=
  .next (
    match s.sp.started.find? (fun x => x.result.isNone) with
    | none => s
    | some x =>
      let t := s.retireCheck x
      let ok := t.copyPasses x
      let u := t.modSp (fun p => { p with started := p.started.map (fun y => if y = x then { y with result := some ok } else y) })
      if u.noBoundary then u.actOnResults else u)

/-- DS_POSITION_BOUNDARY (R58 to R62, R66, R81 to R84, R87, R88, R94, R124, R146): the leading edge of a position passes the write elements. The
results available take effect; then `ready` says that the copy at the head of the queue is coded, and it starts. Positions that pass during a stop
are consumed blank. The crawl pair acts here. -/
def execDsPositionBoundary (ready : Bool) (s : State) : Out :=
  .next (if s.recording && s.ctl.tsub != .dwell then s.actOnResults.boundary ready else s)

/-! ### Group spool commit (R77, R93, R97, R314, R340) -/

/-- GROUP_SPOOL_COMMIT (R77, R93, R96, R97, R112, R314, R340): the oldest group that is complete, journalled and persisted releases its Carousel space
and its retained entries; where FIFO 66 refuses the RELEASE, that is reported and the commit does not take place; what waited for it completes; the count of groups makes a generation due; the capacity is evaluated. -/
def execGroupSpoolCommit (s : State) : Out :=
  .next (
    match s.sp.ready with
    | [] => s
    | f :: rest =>
      let m := NMap.get 0 s.sp.groups f
      let imgs := (List.range m).map (· + f)
      if !imgs.all (fun q => (NMap.find? s.sp.images q).elim false (fun v => v.persisted)) then s
      else
        match (s.fifo 66).release (m + 2) with
        | none => s.retain (.release (m + 2))
        | some _ =>
          let lbas := imgs.flatMap (fun q => ((NMap.find? s.sp.images q).map (fun v => v.lbas)).getD [])
          let gone (l : Nat) : Bool := lbas.any (fun r => decide (r.1 ≤ l) && decide (l < r.1 + r.2))
          let t := (s.retain (.release (m + 2))).modSp (fun p =>
            { p with
              ready := rest, groups := NMap.del p.groups f, images := p.images.filter (fun e => !imgs.contains e.1)
              uncommitted := p.uncommitted.filter (fun e => !gone e.1), lastCommit := some (f + m - 1), sinceGen := p.sinceGen + 1
              genDue := p.genDue || decide (s.pn pTFM_INDEX_GROUPS ≤ p.sinceGen + 1)
              copied := p.copied.filter (fun c => c.kind = .index || decide (c.seq < f) || decide (f + m ≤ c.seq)) })
          let u := (t.mapCommit [.commit f m] []).indexCommit [t.genRec]
          (u.trimLog.growZones false).goOn)

/-! ### Wrap turnaround (R85, R93, R146, R210) -/

/-- A pass goes on with the next wrap: the first position needed is reached from the wrap stop point (R208, R210). -/
def State.turnPass (s : State) : State :=
  match s.rc.pass with
  | none => (s.modCtl (fun c => { c with turn := false })).stopTape .hold false
  | some p =>
    let at_ := if p.kind = 2 then some (s.rc.wrap + 1, 0) else (s.groupSpan p.group).map (fun x => (x.1, s.windowStart x.2.1))
    match at_ with
    | none => (s.modCtl (fun c => { c with turn := false })).stopTape .hold false
    | some (w, a) =>
      let d : Int := if wrapForward w then 1 else -1
      (s.clearCapture.modRc (fun r => { r with wrap := w, pos := a, runAt := a, took := [] })).modCtl (fun c => { c with turn := false, dir := d, target := d * 500, wrapGoal := w })

/-- The tape stands at the wrap stop point. -/
def State.atRest (s : State) : Bool := s.ctl.vlim = 0 && s.ctl.alim = 0

/-- WRAP_TURNAROUND (R85, R93, R146, R208, R210): the wrap has ended, the last verify result is in, and the tape has come to rest at the wrap stop point,
to which it ran on under the cap of R204. The formatter's wrap advances; a generation that is due is recorded after an odd wrap; else the tape
turns round and the first copy starts at position 0 without an approach point. A pass that goes on with the next wrap turns round likewise. After
wrap 47 the cartridge is full and the tape stops. -/
def execWrapTurnaround (s : State) : Out :=
  .next (
    if s.ctl.turn && s.ctl.tsub = .moving && s.atRest then s.turnPass
    else if !(s.recording && s.sp.gen.isNone && s.sp.wrapEnd && s.sp.started.isEmpty && s.ctl.after.isNone && s.atRest) then s
    else
      let odd := s.sp.wrap % 2 = 1
      let t := (s.calUpdate (fun _ => true)).nextWrap
      if t.sp.full then (t.modSp (fun p => { p with draining := false, closing := false, closeAt := none, closeGrp := none })).stopTape .hold false
      else
        let plain (v : State) : State :=
          v.modCtl (fun c => { c with dir := if wrapForward v.sp.wrap then 1 else -1, target := 0, aim := none, wrapGoal := v.sp.wrap })
        if odd && t.sp.genDue then
          match t.buildGen with
          | some u => u.startMove (.index ((u.sp.gen.map (fun g => g.wrap)).getD 0))
          | none => plain t
        else plain t)

/-! ### Tape-tail scan (R443) -/

/-- TAPE_TAIL_SCAN (R443): the last position with a separator on any lane, if one was found, and the position under the write elements at find
position. The resume position is the second one after the later of the two. -/
def execTapeTailScan (lastSeparator : Option Nat) (headPosition : Nat) (s : State) : Out :=
  .next (
    if !s.sp.tailScan || s.ctl.aim.isNone || !s.moves || s.ctl.after.isSome then s
    else
      let p := max (lastSeparator.getD 0) headPosition + 2
      let t := (s.modSp (fun q => { q with pos := p, resume := true, tailScan := false, tailPos := q.wrap % 256 + 256 * (p % 2 ^ 24) })).raise 0x7E5 1 []
      let u := if wrapPositions < p + 32 then t.nextWrap else t
      if u.sp.full then (u.stopTape .hold false).serve
      else u.startMove (.position u.sp.wrap u.sp.pos))

end Sys2Proof.Machine
end

