-- ==== Sys2Proof/Machine/ParamRead.lean ====
section
/-! DEFINITION. What every read-only parameter shows (the parameter tables of the block chapters), and Parameter Read, Parameter Commit
and its discard (R483, R484, R485). -/

namespace Sys2Proof.Machine

/-! ### Figures that several reports share -/

/-- Usable die blocks: all but the retired ones (R322). -/
def State.usableBlocks (s : State) : Nat := s.dieCount * s.car.blocksPerDie - s.car.blocks.countP (fun e => e.2.use = 3)

/-- CSL_PE_MEAN, rounded down (R322). -/
def State.peMean (s : State) : Nat :=
  s.car.blocks.foldl (fun n e => if e.2.use = 3 then n else n + e.2.erases) 0 / max 1 s.usableBlocks

/-- CSL_PE_MAX. -/
def State.peMax (s : State) : Nat := s.car.blocks.foldl (fun n e => max n e.2.erases) 0

/-- CSL_DIE_STAT[D] (R322). -/
def State.dieStat (s : State) (d : Nat) : Nat :=
  (s.dieThere d).toNat + 2 * (s.die d).retired.toNat + 65536 * (s.die d).retiredBlocks

/-- CSL_SC_STATE (R322). -/
def State.scState (s : State) : Nat :=
  s.car.readOnly.toNat + 2 * (decide (s.car.hmb = 2)).toNat + 4 * s.capOn.toNat + 2 ^ 32 * (if s.capOn then s.sideCap / 256 else 0)

/-- Bytes of the compute region that an instance holds: its image region and its scratch windows (R364, R365). -/
def Kern.bytes (k : Kern) : Nat := k.region + 4096 * k.wins.foldl (fun n w => if w.kind = 1 then n + w.pages else n) 0

/-- Bytes of memory in whole pages. -/
def pageRound (n : Nat) : Nat := (n + 4095) / 4096 * 4096

/-- Bytes that an invocation holds: its argument window and its result window, each in whole pages (R366). -/
def Invoc.bytes (v : Invoc) : Nat := 2 * pageRound v.block.length

/-- Free bytes of the compute region (R381). -/
def State.compFree (s : State) : Nat :=
  s.pn pCCL_MEM_GIB * 2 ^ 30 - s.comp.kerns.foldl (fun n e => n + e.2.bytes) 0 - s.comp.queue.foldl (fun n v => n + v.bytes) 0
    - s.comp.cores.foldl (fun n e => n + e.2.run.elim 0 Invoc.bytes) 0

/-- The core that runs an instance, or that it holds frozen. -/
def State.coreOf (s : State) (i : Nat) : Option Nat :=
  (s.comp.cores.filter (fun (e : Nat × Core) => e.2.frozen = some i || e.2.run.elim false (fun v => decide (v.inst = i)))).head?.map Prod.fst

/-- The core that runs an instance's invocation. -/
def State.runCore (s : State) (i : Nat) : Option Nat :=
  (s.comp.cores.filter (fun (e : Nat × Core) => e.2.run.elim false (fun v => decide (v.inst = i)))).head?.map Prod.fst

/-- CCL_INST_STAT[i] (R381). -/
def State.instStat (s : State) (i : Nat) : Nat :=
  match NMap.find? s.comp.kerns i with
  | some k =>
    1 + 2 * (s.runCore i).isSome.toNat + 4 * k.frozen.toNat + 8 * k.rom.isSome.toNat + 256 * (s.coreOf i).getD 0
      + 65536 * s.comp.queue.countP (fun v => v.inst = i)
  | none => 0

/-- CCL_CORE_STAT[k] (R381). -/
def State.coreStat (s : State) (k : Nat) : Nat :=
  let c := NMap.get Core.zero s.comp.cores k
  c.powered.toNat + 2 * c.run.isSome.toNat + 4 * c.frozen.isSome.toNat + 256 * (c.frozen.getD (c.run.elim 0 (fun v => v.inst)))

/-- A calibrate pass is under way (R138, R147). -/
def State.calibrating (s : State) : Bool := !s.recording && s.rc.pass.any (fun p => p.kind = 3)

/-- A lane is powered when its engine group is awake and its channel is not retired, or a calibrate pass runs (R114, R138). -/
def State.lanePowered (s : State) (c : Nat) : Bool := s.rc.awake.contains (c / 32) && (!s.sp.retired.contains c || s.calibrating)

/-- A module's preamplifier has failed: HMC_FLT asserted, or its control link lost (R138, R497). -/
def State.moduleBad (s : State) (m : Nat) : Bool := s.rc.hmcFlt.contains m || s.rc.hmcBad.contains m

/-- A signal chain that has seen nothing. -/
def Sig.zero : Sig :=
  { prev := 0, wait := 0, freq := 0, errs := [], n := 0, line := [], y := (0, 0), paths := [], mag := none, win := [], ref := [], span := none,
    clips := [], clip := none, done := [], samples := 0, clipped := 0, paused := 0 }

/-- The state of a lane before it has been used. -/
def Lane.zero : Lane :=
  { sig := Sig.zero, locked := false, zone := none, reload := true, cur := 0, start := 0, fir := [], fir0 := [], target := 0
    bnd := { gain := 0, offset := 0, asym := 0, fir := 0, mu := 0, adapt := 0, factor := 0 }
    par := { sync := 0, resync := 0, loss := 0, thr := 0, win := 0, ta := 0, ext := 0, rowMax := 0 }
    sepMin := none, bits := [], bitsAt := 0, mark := 0, tag := none, inDs := false, next := 0, confirmed := none, expect := 600, expects := []
    cands := [], framed := 0, ptrs := [], unlocked := 0, lost := false, late := false, missRun := 0, fault := false, boundRun := 0 }

/-- Lane `c`. -/
def State.lane (s : State) (c : Nat) : Lane := NMap.get Lane.zero s.rc.lanes c

/-- TRC_LANE_STAT[c] (R150). -/
def State.laneStat (s : State) (c : Nat) : Nat :=
  let l := s.lane c
  l.locked.toNat + 2 * (s.sp.retired.contains c).toNat + 4 * (s.lanePowered c).toNat + 8 * (l.fault || s.moduleBad (c / 32)).toNat
    + 16 * (l.zone.getD 0)

/-- CPH_SLOT_STAT[i] (R284). -/
def State.slotStat (s : State) (i : Nat) : Nat :=
  match NMap.find? s.keys.slots i with
  | some k => k.id + 2 ^ 16 + 2 ^ 17 * (decide (i < 256) && s.slotBound k.id).toNat
  | none => 0

/-- CPH_AUTH_STATE (R284). -/
def State.authState (s : State) : Nat :=
  s.claimed.toNat + 2 * s.keys.session.toNat + 4 * (!allZero s.krec.escrow).toNat + 8 * s.sp.foreign.isSome.toNat
    + 256 * min 255 s.krec.fails + 65536 * min 65535 s.lockoutSec

/-- Frozen submission queues (R332): a queue that is being deleted is not one of them. -/
def State.frozenSqs (s : State) : Nat := s.nv.sqs.countP (fun e => e.2.frozen && !s.nv.held.any (fun h => h.wait = .deleteSq e.1))

/-- SFQ_STATUS[n] (R113). -/
def State.fifoStat (s : State) (n : Nat) : Nat :=
  let f := s.fifo n
  (decide (f.fill = 0)).toNat + 2 * (fifoFull n (s.fifoDepth n) f).toNat + 4 * f.halted.toNat

/-! ### The read-only parameters -/

/-- Value of a read-only element that the state shows elsewhere, none for one that is kept as a parameter. -/
def State.roVal (s : State) (pid i : Nat) : Option Int :=
  if pid = pTFM_RETIRED then some (s.retiredWord i)
  else if pid = pTFM_BACKLOG then some ((s.backlog / 2 ^ 20 : Nat))
  else if pid = pTFM_VREQ then some s.sp.vreq
  else if pid = pTFM_PASSES then some (passesOf s.travelAll)
  else if pid = pTFM_HEAD_S then some ((s.ev.headTicks / 32768 : Nat))
  else if pid = pTRC_LANE_STAT then some (s.laneStat i)
  else if pid = pTRC_LANE_CUR then some (s.lane i).cur
  else if pid = pTRC_SVO_ERR then some s.rc.lateral
  else if pid = pTRC_POS then some s.rc.pos10
  else if pid = pTRC_SPEED then some ((s.rc.speed.natAbs / 1000 : Nat))
  else if pid = pCTL_SLOT_STATE then
    let z := s.slotSeen i
    some (((match z.st with | .off => 0 | .armed => 1 | .hold => 2) + 16 * z.cause : Nat))
  else if pid = pCTL_RADIUS then some (s.radius i)
  else if pid = pCTL_REGION then some (s.slot i).region
  else if pid = pCTL_SP_NOW then some (s.ctl.vlim / 25000000)
  else if pid = pCTL_ACC_NOW then some (s.ctl.alim / 5000)
  else if pid = pCTL_TRC_STAT then some ((s.ctl.trace.st + 65536 * s.ctl.trace.trigAt : Nat))
  else if pid = pCTL_TSUB then some s.ctl.tsub.code
  else if pid = pCTL_POS_HELD then some s.positionKept.isSome.toNat
  else if pid = pCPH_LOCK then some ((s.keys.lock + 65536 * s.keys.suspended.isSome.toNat : Nat))
  else if pid = pCPH_AUTH_STATE then some s.authState
  else if pid = pCPH_INSTANCE then some s.instNo
  else if pid = pCPH_MASTER_GEN then some s.krec.gen
  else if pid = pCPH_IV_NEXT then some s.keys.iv
  else if pid = pCPH_SLOT_STAT then some (s.slotStat i)
  else if pid = pCPH_TRNG_STAT then some ((s.keys.trngOk.toNat + 256 * s.keys.spells : Nat))
  else if pid = pCSL_PE_MEAN then some s.peMean
  else if pid = pCSL_PE_MAX then some s.peMax
  else if pid = pCSL_SPARE_LEFT then some s.car.spares
  else if pid = pCSL_STAGE_FREE then some s.stageFree
  else if pid = pCSL_STAGE_USED then some s.stageUsed
  else if pid = pCSL_AGE_CLOCK then some s.car.age
  else if pid = pCSL_DIE_STAT then some (s.dieStat i)
  else if pid = pCSL_SC_STATE then some s.scState
  else if pid = pCSL_ORPHANS then some s.car.orphans
  else if pid = pHIF_LINK_STAT then some (s.nv.link.elim 0 (fun l => ((l.1 % 16 + 16 * (l.2.1 % 64) + 1024 * l.2.2.toNat : Nat) : Int)))
  else if pid = pHIF_CREDIT_EFF then some ((s.creditK / 2 ^ 20 : Nat))
  else if pid = pHIF_UNPERSISTED then some s.creditU
  else if pid = pHIF_HELD then some s.heldCount
  else if pid = pHIF_NZ then some s.sp.nz
  else if pid = pHIF_TAKE_CUR then some (s.sp.current.getD 0 : Nat)
  else if pid = pHIF_LIFE then some ((s.ev.life.1 + 256 * s.ev.life.2 : Nat))
  else if pid = pHIF_FROZEN then some s.frozenSqs
  else if pid = pCCL_INST_STAT then some (s.instStat i)
  else if pid = pCCL_CORE_STAT then some (s.coreStat i)
  else if pid = pCCL_MEM_FREE then some s.compFree
  else if pid = pCCA_STATUS then
    some ((s.pn pCCA_ENABLE % 2 + 2 * s.cache.clean.isSome.toNat + 4 * s.cache.range.isSome.toNat + 65536 * popCount 16 s.cache.ways : Nat))
  else if pid = pCCA_WAY_FAIL then some s.cache.fail
  else if pid = pCCA_WAY_PWR then some ((s.cache.ways ||| s.cache.waking : Nat))
  else if pid = pSFQ_FILL then some (s.fifo i).fill
  else if pid = pSFQ_PKTS then some (s.fifo i).packets
  else if pid = pSFQ_STATUS then some (s.fifoStat i)
  else if pid = pSFQ_STICKY then some (s.fifo i).sticky
  else if pid = pSFQ_DROPS then some (s.fifo i).drops
  else if pid = pSFQ_PEAK then some (s.fifo i).peak
  else if pid = pPWR_CREDIT then some s.pw.credit
  else if pid = pPWR_BANK_C then some ((s.pw.cap.1 / s.pw.cap.2 : Nat))
  else if pid = pPWR_BANK_ESR then some ((s.pw.esr.1 / s.pw.esr.2 : Nat))
  else if pid = pPWR_TEST_STAT then
    some ((s.pw.passed.toNat + 2 * (decide (s.pw.test ≠ .idle)).toNat + 256 * min 255 s.pw.testFails
      + 65536 * min 65535 (s.pw.testAge / 32768) : Nat))
  else if pid = pPWR_RAIL_STAT then some ((s.pw.en + 65536 * s.pw.pgood : Nat))
  else if pid = pPWR_LINE_MV then some s.pw.lineMv
  else if pid = pPWR_BANK_MV then some s.pw.bankMv
  else if pid = pPWR_TJ then some s.pw.tj
  else if pid = pPWR_TJ_PEAK then some s.pw.tjPeak
  else if pid = pCHV_STATUS then
    some ((s.pw.rtcOk.toNat + 2 * s.pw.crystal.toNat + 4 * s.pw.lid.toNat + 8 * s.nv.link.isSome.toNat + 16 * s.pw.tempOk.toNat : Nat))
  else if pid = pCHV_TEMP then some s.pw.temp
  else if pid = pCHV_RH then some s.pw.rh
  else if pid = pCHV_RTC then some s.rtcSec
  else if pid = pCHV_SHOCK_PEAK then some s.pw.shock
  else if pid = pCHV_RING_LOST then some s.pw.ringLost
  else if pid = pEVT_COUNT then some (NMap.get 0 s.ev.count i : Nat)
  else if pid = pEVT_SUPPRESSED then some (NMap.get 0 s.ev.supp i : Nat)
  else if pid = pEVT_JNL_SEQ then some (s.ev.jnl.head?.elim 0 (fun e => (e.seq : Int)))
  else if pid = pEVT_LOST_LBA then some ((if i = 0 then s.ev.lost.1 else s.ev.lost.2) : Nat)
  else if pid = pEVT_LAST_FAULT then some ((s.ev.lastFault.1 + 2 ^ 32 * s.ev.lastFault.2 : Nat))
  else if pid = pBOOT_STEP then some s.mag.step
  else if pid = pBOOT_CAUSE then some s.mag.cause
  else if pid = pBOOT_SAFE_WHY then some s.mag.why
  else if pid = pBOOT_PROF_STAT then some s.nor.profStat
  else if pid = pBOOT_PROF_ID then some (s.nor.profile.elim 0 (fun b => (leAt b 0x10 8 : Int)))
  else if pid = pBOOT_PATCH_LVL then some s.nv.patchLevel
  else if pid = pBOOT_FUSES then some s.nor.fuses
  else if pid = pBOOT_IMP_STAT then some ((s.nor.impStat.1 + 256 * s.nor.impStat.2.1 + 2 ^ 32 * s.nor.impStat.2.2 : Nat))
  else if pid = pBOOT_TAIL_POS then some s.sp.tailPos
  else if pid = pBOOT_TIME_MS then some s.mag.bootMs
  else none

/-- Element value that view 0 shows: the current value, zero for a write-only parameter, the last value written for one that has not yet
acted (R478). -/
def State.viewElem (s : State) (d : PDesc) (i : Nat) : Nat :=
  if d.access = .wo then 0
  else
    match s.roVal d.pid i with
    | some v => d.toElem v
    | none => s.elem d.pid i

/-- View 1: the staged value where one is held (R483). -/
def State.stagedElem (s : State) (d : PDesc) (i : Nat) : Nat := (NMap.find? s.staged (pkey d.pid i)).getD (s.viewElem d i)

/-- View 2 (R483). -/
def State.stateElem (s : State) (d : PDesc) (i : Nat) : Nat :=
  let k := pkey d.pid i
  (NMap.find? s.staged k).isSome.toNat + 2 * (NMap.find? s.pend k).isSome.toNat + 4 * (NMap.find? s.wrote k).isSome.toNat

/-- View 3, the descriptor: 32 bytes (R483). -/
def PDesc.bytes (d : PDesc) : Bytes :=
  leBytes 2 d.pid ++ leBytes 2 d.bits ++ leBytes 4 d.count ++ leBytes 1 d.access.code ++ leBytes 1 d.level ++ leBytes 1 d.fid
    ++ leBytes 1 (d.signed.toNat + 2 * d.cond.toNat + 4 * d.fromProfile.toNat + 8 * d.grouped.toNat) ++ leBytes 1 d.width ++ zeroBytes 3
    ++ leBytes 8 (d.lo % 2 ^ 64).toNat ++ leBytes 8 (d.hi % 2 ^ 64).toNat

/-- The index range of a read or write fails check 3 of R485. -/
def PDesc.badRange (d : PDesc) (first count : Nat) : Bool := count = 0 || decide (d.count < first + count) || decide (2 ^ 21 < count * d.width)

/-! ### Commands -/

/-- PARAMETER_READ (R483, R485): CDW10 bits [15:0] the PID, bits [17:16] the view. -/
def execParameterRead (h : Hdr) (d10 first count : Nat) (s : State) : Out :=
  .next (s.adminCmd h true (fun q t =>
    let view := d10 / 2 ^ 16 % 4
    match pdesc? (d10 % 2 ^ 16) with
    | none => t.done q stParamUnknown
    | some d =>
      if d.level = 1 && !t.keys.session then t.done q stDenied
      else if view = 3 then t.complete q stOk 0 0 d.bytes
      else if d.badRange first count then t.done q stParamIndex
      else if view = 1 && d.access != .rws then t.done q stParamReadOnly
      else
        let all (f : Nat → Bytes) : Bytes := (List.range count).flatMap (fun k => f (first + k))
        t.complete q stOk 0 0 (
          if view = 0 then all (fun i => leBytes d.width (t.viewElem d i))
          else if view = 1 then all (fun i => leBytes d.width (t.stagedElem d i))
          else all (fun i => leBytes 4 (t.stateElem d i))))).goOn

/-- A commit of these staged values changes speed zone `z`: an edge of it, or an entry of its table (R146). -/
def zoneChanged (staged : NMap Nat) (z : Nat) : Bool :=
  staged.any (fun e =>
    let pid := e.1 / 2 ^ 20
    let i := e.1 % 2 ^ 20
    (pid = pTRC_ZEDGE && (i = z || i = z + 1)) || (pid = pTRC_ZTAB && i / 512 = z))

/-- Commit every staged value (R481): Dword 0 counts the groups made pending; on a rejection it names the first failing group. The
statistics gathered for a zone are discarded with a commit that changes it (R146). -/
def State.paramCommit (s : State) (q : Nat) : State :=
  match s.commitCheck s.staged with
  | some (st, g) => s.complete q st (g / 2 ^ 20) (g % 2 ^ 20) []
  | none =>
    let gs := groupsOf s.staged
    let t := ({ s with staged := [] }).commitStaged s.staged
    let u := t.modRc (fun r => { r with cal := r.cal.filter (fun e => !zoneChanged s.staged (e.1 / 512)) })
    u.complete q stOk gs.length 0 []

/-- PARAMETER_COMMIT (R484): operation 0 commits, 1 discards, any other is an invalid field. -/
def execParameterCommit (h : Hdr) (op : Nat) (s : State) : Out :=
  .next (s.adminCmd h false (fun q t =>
    if !t.keys.session then t.done q stDenied
    else if op % 4 = 0 then t.paramCommit q
    else if op % 4 = 1 then ({ t with staged := [] }).done q stOk
    else t.done q stField)).goOn

/-- PARAMETER_DISCARD (R482, R484): staged values only. -/
def execParameterDiscard (h : Hdr) (s : State) : Out :=
  .next (s.adminCmd h false (fun q t => if !t.keys.session then t.done q stDenied else ({ t with staged := [] }).done q stOk)).goOn

end Sys2Proof.Machine
end

