-- ==== Sys2Proof/Machine/Logs.lean ====
section
/-! DEFINITION. The log pages (R356, R357, R453, R470) and Percentage Used (R452). A byte for which the manual states nothing comes from
`Config.logRest`. -/

namespace Sys2Proof.Machine

/-! ### Building blocks -/

/-- Put `v` at offset `o` of a structure. -/
def overlay (b : Bytes) (o : Nat) (v : Bytes) : Bytes := b.take o ++ v ++ b.drop (o + v.length)

/-- A structure from fields at rising offsets, the gaps filled by `rest`: (offset, bytes). -/
def fieldsFrom (rest : Nat → Byte) : Nat → Nat → List (Nat × Bytes) → Bytes
  | n, at_, [] => (List.range (n - at_)).map (fun i => rest (at_ + i))
  | n, at_, (o, v) :: fs => (List.range (o - at_)).map (fun i => rest (at_ + i)) ++ v ++ fieldsFrom rest n (o + v.length) fs

/-- A structure of `n` bytes whose other bytes are zero. -/
def zeroFields (n : Nat) (fs : List (Nat × Bytes)) : Bytes := fieldsFrom (fun _ => 0) n 0 fs

/-- Cut a counter to its field. -/
def sat (bytes x : Nat) : Bytes := leBytes bytes (min (2 ^ (8 * bytes) - 1) x)

/-! ### Percentage Used (R452) -/

/-- The three ratios as numerator and denominator: wear, wrap-passes, head time. -/
def State.lifeRatios (s : State) : List (Nat × Nat) :=
  [(if s.pn pCSL_RATED_PE = 0 then 0 else s.peMean, max 1 (s.pn pCSL_RATED_PE)), (passesOf s.travelAll, 20000000),
   (s.ev.headTicks / 32768, 54000000)]

/-- The greatest ratio with its number: the first of equal ones. -/
def State.lifeMax (s : State) : (Nat × Nat) × Nat :=
  (s.lifeRatios.zipIdx).foldl (fun (a : (Nat × Nat) × Nat) x => if a.1.1 * x.1.2 < x.1.1 * a.1.2 then x else a) ((0, 1), 0)

/-- Compute Percentage Used; reaching 90 and 100 for the first time raises EVT 0x608. -/
def State.lifeCompute (s : State) : State :=
  let m := s.lifeMax
  let pct := min 255 (100 * m.1.1 / m.1.2)
  let t := s.modEv (fun v => { v with life := (pct, m.2) })
  let note (u : State) (bit lim : Nat) : State :=
    if decide (lim ≤ pct) && !Nat.testBit s.ev.lifeEvt bit then
      (u.modEv (fun v => { v with lifeEvt := v.lifeEvt ||| 2 ^ bit })).raise 0x608 (bit + 1) []
    else u
  note (note t 0 90) 1 100

/-! ### NVM Express logs -/

/-- Error Information (01h): 64 entries of 64 bytes, newest first; the Parameter Error Location is open. -/
def State.errorLog (s : State) : Bytes :=
  let entry (i : Nat) (e : ErrEntry) : Bytes :=
    zeroFields 64 [(0, leBytes 8 e.count), (8, leBytes 2 e.sq), (10, leBytes 2 e.cid), (12, leBytes 2 (2 * e.status)),
                   (14, [Config.logRest 1 (64 * i + 14), Config.logRest 1 (64 * i + 15) &&& 7]), (16, leBytes 8 e.lba), (24, leBytes 4 e.nsid),
                   (28, leBytes 1 e.vsi), (32, leBytes 8 e.csi)]
  fitBytes 4096 ((s.nv.errLog.zipIdx).flatMap (fun x => entry x.2 x.1))

/-- Kelvin of a temperature in tenths of a degree, as WCTEMP and CCTEMP count (R357). -/
def kelvin (t : Int) : Nat := (t / 10 + 273).toNat

/-- A threshold of Feature 04h is crossed by either sensor (R353). -/
def State.thresholdCrossed (s : State) : Bool :=
  let hit (sensor : Nat) (t : Int) : Bool :=
    decide (s.nv.threshold sensor 0 ≤ kelvin t) || decide (kelvin t ≤ s.nv.threshold sensor 1)
  hit 0 s.pw.tj || (s.pw.tempOk && hit 1 s.pw.temp)

/-- Critical Warning (R306, R316, R317, R357, R508). -/
def State.criticalWarning (s : State) : Nat :=
  (decide (s.spare < 10)).toNat + 2 * (s.pw.thermal != 0 || s.thresholdCrossed).toNat + 4 * (s.car.dies.any (fun e => e.2.retired)).toNat
    + 8 * s.car.readOnly.toNat + 16 * s.pw.failed.toNat

/-- Bytes of a log page that NVM Express reserves, first and last, those of firmware slots the device does not have among them: they return as zero
(R7; the layouts are NVM Express 2.0's: PRESUMED, log 75). -/
def logReserved : Nat → List (Nat × Nat)
  | 2 => [(7, 31), (232, 511)]
  | 3 => [(1, 7), (24, 511)]
  | _ => []

/-- A byte of a log page for which the manual states no value: zero where it is reserved. -/
def logByte (lid i : Nat) : Byte := if (logReserved lid).any (fun r => decide (r.1 ≤ i) && decide (i ≤ r.2)) then 0 else Config.logRest lid i

/-- Thousands of 512-byte units, rounded up as NVM Express counts them. -/
def dataUnits (n : Nat) : Nat := (n + 999) / 1000

/-- SMART / Health Information (02h). -/
def State.smartLog (s : State) : Bytes :=
  let n := s.nv
  fieldsFrom (logByte 2) 512 0
    [(0, leBytes 1 s.criticalWarning), (1, leBytes 2 (kelvin s.pw.tj)), (3, leBytes 1 s.spare), (4, leBytes 1 10), (5, leBytes 1 s.ev.life.1),
     (32, leBytes 16 (dataUnits n.unitsRead)), (48, leBytes 16 (dataUnits n.unitsWritten)), (64, leBytes 16 n.readCmds),
     (80, leBytes 16 n.writeCmds), (112, leBytes 16 n.powerCycles), (128, leBytes 16 (n.powerOn / (32768 * 3600))),
     (144, leBytes 16 n.unsafeShut), (160, leBytes 16 n.mediaErrors), (176, leBytes 16 n.errCount),
     (200, leBytes 2 (if s.pw.tempOk then kelvin s.pw.temp else 0))]

/-- A hexadecimal digit in ASCII. -/
def hexDigit (d : Nat) : Byte := BitVec.ofNat 8 (if d < 10 then 48 + d else 55 + d)

/-- Revision of slot 2: "B0" and six hexadecimal digits of the patch level (R441). -/
def slotRevision (level : Nat) : Bytes := ascii "B0" ++ ((List.range 6).reverse.map (fun i => hexDigit (level / 16 ^ i % 16)))

/-- Firmware Slot Information (03h): slot 2 runs while a patch level does, and is next once marked (R350, R351). -/
def State.firmwareLog (s : State) : Bytes :=
  let active := if s.nv.patchLevel = 0 then 1 else 2
  fieldsFrom (logByte 3) 512 0
    [(0, leBytes 1 (active + (if s.nv.fwMarked then 0x20 else 0))), (16, s.nv.fwSlot2.elim (zeroBytes 8) (fun b => slotRevision (leAt b 0x0C 4)))]

/-- Admin and I/O opcodes that are supported (R352). -/
def adminOpcodes : List Nat :=
  [0x00, 0x01, 0x02, 0x04, 0x05, 0x06, 0x08, 0x09, 0x0A, 0x0C, 0x10, 0x11, 0x80, 0xC0, 0xC1, 0xC2, 0xC4, 0xC5, 0xC6, 0xC8, 0xC9, 0xCA, 0xCC]

/-- I/O opcodes that are supported (R352). -/
def ioOpcodes : List Nat := [0x00, 0x01, 0x02, 0x08, 0x09, 0x79, 0x7A, 0x7D, 0x84, 0x85, 0x86]

/-- Commands Supported and Effects (05h): bit 0 of each entry says whether the command is supported; the effects are open, the
reserved bits [15:5] zero. -/
def effectsLog : Bytes :=
  let entry (base : Nat) (ops : List Nat) (op : Nat) : Bytes :=
    if ops.contains op then
      (List.range 4).map (fun j => let b := Config.logRest 5 (base + 4 * op + j); if j = 0 then (b &&& 0x1F) ||| 1 else if j = 1 then 0 else b)
    else zeroBytes 4
  fitBytes 4096 ((List.range 256).flatMap (entry 0 adminOpcodes) ++ (List.range 256).flatMap (entry 1024 ioOpcodes))

/-- Changed Zone List (BFh): zones made Offline by Erase take. -/
def State.changedZoneLog (s : State) : Bytes :=
  let zs := s.nv.changedZones
  fitBytes 4096 (leBytes 2 (if 511 < zs.length then 65535 else zs.length) ++ zeroBytes 6 ++ (zs.take 511).flatMap (fun z => leBytes 8 (65536 * z)))

/-! ### Vendor logs -/

/-- Sum of the classes of R167 in the order of the log. -/
def outcomeClasses : List Nat := [0x01, 0x02, 0x03, 0x04, 0x10, 0x11, 0x12, 0x13, 0x14, 0x20]

/-- Index of TRC_DS_CLASS that counts a class: the class code itself. -/
def State.classCount (s : State) (c : Nat) : Nat := s.elem pTRC_DS_CLASS c

/-- Channel `c` in the Tape Health log. -/
def State.channelEntry (s : State) (c : Nat) : Bytes :=
  let f (k : Nat) : Nat := NMap.get 0 s.sp.chan (8 * c + k)
  sat 4 (f 0) ++ sat 4 (f 1) ++ sat 4 (f 2) ++ sat 2 (f 3)
    ++ leBytes 1 ((s.sp.retired.contains c).toNat + 2 * (s.moduleBad (c / 32)).toNat) ++ sat 1 (NMap.get 0 s.sp.retireRun c)

/-- Wrap `w` in the Tape Health log. -/
def State.wrapEntry (s : State) (w : Nat) : Bytes :=
  let f (k : Nat) : Nat := NMap.get 0 s.sp.perWrap (8 * w + k)
  sat 4 (passesOf (NMap.get 0 s.ev.travel w)) ++ sat 4 (f 1) ++ sat 4 (f 2) ++ sat 4 (f 3) ++ sat 8 (f 4) ++ sat 4 (f 5) ++ sat 2 (f 6) ++ zeroBytes 2

/-- Tape Health log (C0h), 10,240 bytes (R453). -/
def State.tapeLog (s : State) : Bytes :=
  let l (k : Nat) : Nat := NMap.get 0 s.sp.life k
  let spans := (List.range 512).foldl (fun n c => n + s.elem pTRC_DO_CNT c) 0
  zeroFields 10240
    [(0x000, leBytes 4 0x4C485054 ++ leBytes 2 1), (0x008, leBytes 8 (if s.sp.noIndex then 0 else s.sp.cartridge)),
     (0x010, leBytes 4 (passesOf s.travelAll) ++ sat 4 (s.ev.headTicks / 32768) ++ leBytes 2 s.sp.retired.length),
     (0x020, sat 8 (l 1) ++ sat 8 (l 2) ++ sat 8 (l 0) ++ sat 8 (l 3) ++ sat 4 (l 4) ++ sat 4 (l 5) ++ sat 8 spans),
     (0x050, outcomeClasses.flatMap (fun c => sat 4 (s.classCount c))), (0x078, (List.range 8).flatMap (fun i => leBytes 8 (s.retiredWord i))),
     (0x200, (List.range 512).flatMap s.channelEntry), (0x2200, (List.range 48).flatMap s.wrapEntry)]

/-- Mean erase count of a die, over its usable blocks. -/
def State.dieMean (s : State) (d : Nat) : Nat :=
  let bs := s.car.blocks.filter (fun e => e.1 / 65536 = d && e.2.use != 3)
  bs.foldl (fun n e => n + e.2.erases) 0 / max 1 (s.car.blocksPerDie - (s.die d).retiredBlocks)

/-- Oldest equivalent age of a die block that holds a mapped unit. -/
def State.oldestAge (s : State) : Nat :=
  s.car.units.foldl (fun n e => if e.2.mapped then max n (s.blockAge (s.block e.2.die e.2.block)) else n) 0

/-- Carousel log (C1h), 4,096 bytes (R453). -/
def State.carouselLog (s : State) : Bytes :=
  let l (o : Nat) : Nat := NMap.get 0 s.car.log o
  zeroFields 4096
    [(0x000, leBytes 4 0x4C485343 ++ leBytes 2 1 ++ leBytes 1 (s.pn pCSL_CONFIG) ++ leBytes 1 (s.scState % 8)),
     (0x008, leBytes 4 (s.pn pCSL_RATED_PE) ++ sat 4 s.peMean ++ sat 4 s.peMax ++ sat 4 s.car.spares0 ++ sat 4 s.car.spares
       ++ sat 2 (s.car.dies.countP (fun e => e.2.retired)) ++ leBytes 2 (s.elem pCSL_PROG_RATE 0) ++ sat 8 s.stageFree ++ sat 8 s.stageUsed
       ++ sat 8 s.car.age ++ sat 8 (s.car.dies.foldl (fun n e => n + e.2.retiredBlocks) 0)),
     (0x040, sat 8 (l 0x40) ++ sat 8 (l 0x48) ++ sat 8 (l 0x50) ++ sat 8 (l 0x58) ++ sat 8 (l 0x60) ++ sat 4 s.car.orphans ++ sat 4 (l 0x6C)
       ++ sat 8 s.oldestAge),
     (0x080, (List.range 384).flatMap (fun d =>
       sat 4 (s.dieMean d) ++ sat 2 (s.die d).retiredBlocks ++ leBytes 1 (s.dieStat d % 4) ++ zeroBytes 1))]

/-- Flags of the Spool Status log. -/
def State.spoolFlags (s : State) : Nat :=
  s.sp.suspended.toNat + 2 * s.sp.full.toNat + 4 * s.sp.foreign.isSome.toNat + 8 * s.mag.unloaded.toNat + 16 * s.sp.noIndex.toNat
    + 32 * s.sp.tailScan.toNat + 64 * s.sp.stageFull.toNat + 128 * s.sp.abandoned.toNat

/-- Copies in the spool queue awaiting recording or verify: from the mark on (R109). -/
def State.queueLength (s : State) : Nat := (copiesIn ((s.fifo 66).words.drop (s.fifo 66).m)).length

/-- Spool Commit commands and FUA writes to the take namespace that are pending. -/
def State.pendingCommits (s : State) : Nat :=
  s.nv.held.countP (fun h => match h.wait with | .spoolCommit _ _ => true | _ => false)
    + s.nv.writes.countP (fun w => w.fua && w.nsid = 1)

/-- Spool Status log (C4h), 512 bytes (R453). -/
def State.spoolLog (s : State) : Bytes :=
  let b (k : Nat) : Nat := NMap.get 0 s.sp.sinceBoot k
  zeroFields 512
    [(0x000, leBytes 4 0x4C535053 ++ leBytes 2 1 ++ leBytes 1 s.mag.st.index ++ leBytes 1 s.ctl.tsub.code ++ leBytes 4 s.spoolFlags
       ++ leBytes 4 s.sp.cartridge ++ leBytes 4 s.sp.nextSeq ++ leBytes 1 s.sp.wrap ++ leBytes 3 s.sp.pos ++ leBytes 8 s.backlog
       ++ leBytes 4 s.queueLength ++ leBytes 4 (s.sp.groupFirst.getD s.sp.nextSeq) ++ leBytes 1 s.sp.groupCount),
     (0x02C, leBytes 4 (s.sp.lastCommit.getD 0) ++ leBytes 4 s.pendingCommits ++ leBytes 4 (s.sp.newest.elim 0 Prod.fst)
       ++ leBytes 4 s.sp.sinceGen ++ leBytes 2 s.sp.initCount),
     (0x040, leBytes 8 s.sp.cartridge ++ sat 8 (b 0) ++ sat 8 (b 1) ++ sat 4 (b 2) ++ leBytes 4 s.sp.suspendedAt
       ++ leBytes 4 (s.sp.foreign.getD 0) ++ leBytes 4 s.sp.tailPos)]

/-- An entry of the Event Journal log (R470). -/
def JEntry.bytes (e : JEntry) : Bytes :=
  leBytes 8 e.seq ++ leBytes 4 e.rtc ++ leBytes 2 (e.evt + 32768 * e.notice.toNat) ++ leBytes 1 e.cause ++ leBytes 1 e.st ++ leBytes 4 e.ms
    ++ fitBytes 12 e.data

/-- Event Journal log (C2h) (R470). -/
def State.eventLog (s : State) : Bytes :=
  let j := s.ev.jnl.reverse
  zeroFields 64
    [(0, leBytes 4 0x4C4A5645 ++ leBytes 2 1),
     (8, leBytes 8 j.length ++ leBytes 8 (j.head?.elim 0 (fun e => e.seq)) ++ leBytes 8 (s.ev.jnl.head?.elim 0 (fun e => e.seq))
       ++ leBytes 8 s.ev.lostOld ++ leBytes 8 s.ev.dropped ++ leBytes 8 s.ev.lost.1 ++ leBytes 8 s.ev.lost.2)]
    ++ j.flatMap JEntry.bytes

/-- Trace Index log (C3h), 512 bytes (R357). -/
def State.traceLog (s : State) : Bytes :=
  let t := s.ctl.trace
  zeroFields 512
    [(0x00, leBytes 4 0x58435254 ++ leBytes 2 1),
     (0x08, leBytes 4 t.freezes ++ leBytes 1 t.st ++ leBytes 1 t.trig ++ leBytes 2 t.trigAt ++ leBytes 2 t.pre ++ leBytes 2 t.div
       ++ leBytes 4 t.samples.length ++ leBytes 8 t.time ++ fitBytes 8 (t.sel.map (BitVec.ofNat 8)))]

/-! ### Reading a log -/

/-- Content of a log page, none where there is no such page. -/
def State.logPage (s : State) (lid : Nat) : Option Bytes :=
  match lid with
  | 0x01 => some s.errorLog
  | 0x02 => some s.smartLog
  | 0x03 => some s.firmwareLog
  | 0x04 => some (fitBytes 4096 (s.nv.changedNs.flatMap (leBytes 4)))
  | 0x05 => some effectsLog
  | 0xBF => some s.changedZoneLog
  | 0xC0 => some s.tapeLog
  | 0xC1 => some s.carouselLog
  | 0xC2 => some s.eventLog
  | 0xC3 => some s.traceLog
  | 0xC4 => some s.spoolLog
  | _ => none

/-- Event types that the reading of a log unmasks: 256·type + information (R358). -/
def logUnmasks : Nat → List Nat
  | 0x01 => [0x001]
  | 0x02 => [0x100, 0x101, 0x102]
  | 0x03 => [0x201]
  | 0x04 => [0x200]
  | 0xBF => [0x2EF]
  | 0xC2 => [0x700]
  | 0xC3 => [0x703]
  | 0xC4 => [0x701, 0x702]
  | _ => []

/-- A log has been read with Retain Asynchronous Event clear: its event types are unmasked, and the lists of changes start anew. -/
def State.logRead (s : State) (lid : Nat) : State :=
  s.modNv (fun n =>
    { n with masked := n.masked.filter (fun m => !(logUnmasks lid).contains m)
             changedNs := if lid = 0x04 then [] else n.changedNs
             changedZones := if lid = 0xBF then [] else n.changedZones })

/-- GET_LOG_PAGE (R356, R453, R470): the page as it is at the fetch; bytes past its end read as zero; `dwords` is 0's based. -/
def execGetLogPage (h : Hdr) (lid off dwords : Nat) (rae : Bool) (s : State) : Out :=
  .next (s.adminCmd h true (fun q t =>
    let u := if lid = 0x02 then t.lifeCompute else t
    match u.logPage lid with
    | none => t.done q stLogPage
    | some b =>
      if off % 4 != 0 || (lid = 0xC2 && off % 32 != 0) then t.done q stField
      else (if rae then u else u.logRead lid).complete q stOk 0 0 (fitBytes (4 * (dwords + 1)) (b.drop off)))).goOn

end Sys2Proof.Machine
end

