-- ==== Sys2Proof/Machine/Sha.lean ====
section
/-! DEFINITION. SHA-256 and SHA-384, and ECDSA verification on P-384, as R363, R379 and R440 name them. The constants follow FIPS 180-4
(roots of primes, computed here) and the curve P-384 of FIPS 186 (PRESUMED, log entry 10). -/

namespace Sys2Proof.Machine

/-- Largest `r` below 2^n with r^e at most x, from bit n - 1 down. -/
def rootGo (e x : Nat) : Nat → Nat → Nat
  | 0, r => r
  | n + 1, r => rootGo e x n (if (r + 2 ^ n) ^ e ≤ x then r + 2 ^ n else r)

/-- The first primes, found by trial division. -/
def firstPrimes : Nat → Nat → List Nat → List Nat
  | 0, _, acc => acc.reverse
  | n + 1, k, acc => if acc.length < 80 ∧ acc.all (fun p => k % p != 0) then firstPrimes n (k + 1) (k :: acc)
                     else firstPrimes n (k + 1) acc

/-- The first eighty primes. -/
def primes80 : List Nat := firstPrimes 408 2 []

/-- Right rotation of a `w`-bit value. -/
def rotr (w n x : Nat) : Nat := (x / 2 ^ n ||| x * 2 ^ (w - n)) % 2 ^ w

/-- The numbers that tell SHA-256 from SHA-512: word width, rounds, and the rotation counts. -/
structure ShaKind where
  w : Nat
  rounds : Nat
  bigS0 : Nat × Nat × Nat
  bigS1 : Nat × Nat × Nat
  sml0 : Nat × Nat × Nat
  sml1 : Nat × Nat × Nat
  deriving DecidableEq, Repr

/-- SHA-256. -/
def sha256Kind : ShaKind := ⟨32, 64, (2, 13, 22), (6, 11, 25), (7, 18, 3), (17, 19, 10)⟩

/-- The SHA-512 family, of which SHA-384 is one. -/
def sha512Kind : ShaKind := ⟨64, 80, (28, 34, 39), (14, 18, 41), (1, 8, 7), (19, 61, 6)⟩

/-- Three rotations, exclusive or. -/
def shaBig (k : ShaKind) (t : Nat × Nat × Nat) (x : Nat) : Nat := rotr k.w t.1 x ^^^ rotr k.w t.2.1 x ^^^ rotr k.w t.2.2 x

/-- Two rotations and a shift, exclusive or. -/
def shaSml (k : ShaKind) (t : Nat × Nat × Nat) (x : Nat) : Nat := rotr k.w t.1 x ^^^ rotr k.w t.2.1 x ^^^ x / 2 ^ t.2.2

/-- The message schedule, newest word first. -/
def shaSched (k : ShaKind) : Nat → List Nat → List Nat
  | 0, w => w
  | n + 1, w =>
    shaSched k n (((shaSml k k.sml1 (w.getD 1 0) + w.getD 6 0 + shaSml k k.sml0 (w.getD 14 0) + w.getD 15 0) % 2 ^ k.w) :: w)

/-- The round constants: the first fractional bits of the cube roots of the primes. -/
def shaConst (k : ShaKind) (p : Nat) : Nat := rootGo 3 (p * 2 ^ (3 * k.w)) (k.w + 3) 0 % 2 ^ k.w

/-- The rounds over the working variables a to h. -/
def shaRounds (k : ShaKind) : List (Nat × Nat) → List Nat → List Nat
  | [], v => v
  | (c, w) :: r, v =>
    let a := v.getD 0 0; let b := v.getD 1 0; let cc := v.getD 2 0; let d := v.getD 3 0
    let e := v.getD 4 0; let f := v.getD 5 0; let g := v.getD 6 0; let h := v.getD 7 0
    let m := 2 ^ k.w
    let ch := (e &&& f) ^^^ ((m - 1 - e) &&& g)
    let t1 := h + shaBig k k.bigS1 e + ch + c + w
    let t2 := shaBig k k.bigS0 a + ((a &&& b) ^^^ (a &&& cc) ^^^ (b &&& cc))
    shaRounds k r [(t1 + t2) % m, a, b, cc, (d + t1) % m, e, f, g]

/-- The padded message: 0x80, zeros, and the bit length in the last two words. -/
def shaPad (k : ShaKind) (msg : Bytes) : Bytes :=
  let blk := 2 * k.w
  let l := msg.length + 1 + k.w / 4
  msg ++ [0x80] ++ zeroBytes ((blk - l % blk) % blk) ++ beBytes (k.w / 4) (8 * msg.length)

/-- The hash value as eight words. -/
def shaWords (k : ShaKind) (iv : List Nat) (msg : Bytes) : List Nat :=
  let cs := (primes80.take k.rounds).map (shaConst k)
  (chunksOf (2 * k.w) (shaPad k msg)).foldl (fun h b =>
    let w := shaSched k (k.rounds - 16) ((chunksOf (k.w / 8) b).map beNat).reverse
    List.zipWith (fun x y => (x + y) % 2 ^ k.w) h (shaRounds k (cs.zip w.reverse) h)) iv

/-- SHA-256. -/
def sha256 (msg : Bytes) : Bytes :=
  (shaWords sha256Kind ((primes80.take 8).map (fun p => rootGo 2 (p * 2 ^ 64) 36 0 % 2 ^ 32)) msg).flatMap (beBytes 4)

/-- SHA-384. -/
def sha384 (msg : Bytes) : Bytes :=
  ((shaWords sha512Kind (((primes80.drop 8).take 8).map (fun p => rootGo 2 (p * 2 ^ 128) 68 0 % 2 ^ 64)) msg).take 6).flatMap (beBytes 8)

/-! ### P-384 -/

/-- The field prime. -/
def p384P : Nat := 2 ^ 384 - 2 ^ 128 - 2 ^ 96 + 2 ^ 32 - 1

/-- The order of the base point. -/
def p384N : Nat := 0xffffffffffffffffffffffffffffffffffffffffffffffffc7634d81f4372ddf581a0db248b0a77aecec196accc52973

/-- The coefficient b. -/
def p384B : Nat := 0xb3312fa7e23ee7e4988e056be3f82d19181d9c6efe8141120314088f5013875ac656398d8a2ed19d2a85c8edd3ec2aef

/-- The base point. -/
def p384G : Nat × Nat :=
  (0xaa87ca22be8b05378eb1c71ef320ad746e1d3b628ba79b9859f741e082542a385502f25dbf55296c3a545e3872760ab7,
   0x3617de4a96262c6f5d9e98bf9292dc29f8f41dbd289a147ce9da3113b5f0b8c00a60b1ce1d7e819d7a431d7c90ea0e5f)

/-- Modular power, `n` bits of exponent from the lowest. -/
def powMod (m : Nat) : Nat → Nat → Nat → Nat
  | 0, _, _ => 1 % m
  | n + 1, a, e => let t := powMod m n (a * a % m) (e / 2)
    if e % 2 = 1 then a * t % m else t

/-- Inverse modulo a prime. -/
def invMod (m a : Nat) : Nat := powMod m 384 a (m - 2)

/-- Whether a point lies on the curve. -/
def p384On (q : Nat × Nat) : Bool :=
  decide (q.1 < p384P) && decide (q.2 < p384P) && (q.2 * q.2 % p384P == (q.1 ^ 3 + (p384P - 3) * q.1 + p384B) % p384P)

/-- Sum of two points; none is the point at infinity. -/
def p384Add : Option (Nat × Nat) → Option (Nat × Nat) → Option (Nat × Nat)
  | none, q => q
  | q, none => q
  | some a, some b =>
    let p := p384P
    if a.1 = b.1 ∧ (a.2 + b.2) % p = 0 then none
    else
      let l := if a.1 = b.1 then (3 * a.1 * a.1 + (p - 3)) % p * invMod p (2 * a.2) % p
               else (b.2 + p - a.2) % p * invMod p ((b.1 + p - a.1) % p) % p
      let x := (l * l + 2 * p - a.1 - b.1) % p
      some (x, (l * ((a.1 + p - x) % p) + p - a.2) % p)

/-- A multiple of a point, `n` bits of the factor from the lowest. -/
def p384Mul : Nat → Nat → Option (Nat × Nat) → Option (Nat × Nat)
  | 0, _, _ => none
  | n + 1, k, q => p384Add (if k % 2 = 1 then q else none) (p384Mul n (k / 2) (p384Add q q))

/-- ECDSA verification with SHA-384: signature r followed by s, key x followed by y, 48 bytes each, most significant first
(R363, R434). -/
def ecdsaVerify (key msg sig : Bytes) : Bool :=
  let q := (beNat (key.take 48), beNat (slice key 48 48))
  let r := beNat (sig.take 48)
  let s := beNat (slice sig 48 48)
  if r = 0 ∨ p384N ≤ r ∨ s = 0 ∨ p384N ≤ s ∨ !p384On q then false
  else
    let w := invMod p384N s
    let z := beNat (sha384 msg)
    match p384Add (p384Mul 384 (z * w % p384N) (some p384G)) (p384Mul 384 (r * w % p384N) (some q)) with
    | none => false
    | some v => v.1 % p384N == r

end Sys2Proof.Machine
end

