-- ==== Sys2Proof/Machine/HostAdmin.lean ====
section
/-! DEFINITION. Identify (R333, R352), Trace Read (R357), firmware download and commit (R350, R351, R440, R441), Format (R273, R341), and
commands that do not exist (R352). A byte for which the manual states nothing comes from `Config.identifyRest`. -/

namespace Sys2Proof.Machine

/-! ### Identify -/

/-- Profile bytes at an offset, zero without a profile. -/
def State.profileAt (s : State) (o n : Nat) : Nat := s.nor.profile.elim 0 (fun b => leAt b o n)

/-- No profile has been applied: SAFE cause bit 0 (R430). -/
def State.noProfile (s : State) : Bool := Nat.testBit s.mag.why 0

/-- The take namespace is inactive under CC.CSS 000b and without a profile (R333, R430). -/
def State.takeActive (s : State) : Bool := s.nv.css != 0 && !s.noProfile

/-- NSZE of NSID 2 (R318, R430). -/
def State.sideSize (s : State) : Nat := if s.noProfile then 0 else s.sideLbas

/-- NUSE of NSID 1 (R333). -/
def State.takeUse (s : State) : Nat :=
  s.sp.zones.foldl (fun n e =>
    match e.2.st with
    | .empty => n
    | .full | .offline => n + 65536
    | _ => n + e.2.wp) 0

/-- NUSE of NSID 2: mapped LBAs with a clear zero bit (R333). -/
def State.sideUse (s : State) : Nat :=
  s.car.exts.foldl (fun n e =>
    match e.2 with
    | .large _ => n + 256
    | .fine m _ => n + m.foldl (fun k f => k + (if f.2.unit.isSome then 4 - popCount 4 f.2.zero else 0)) 0) 0

/-- NGUID, most significant byte first (R333). -/
def State.nguid (s : State) (nsid : Nat) : Bytes :=
  if nsid = 1 then beBytes 4 s.instNo ++ beBytes 8 s.sp.cartridge ++ beBytes 2 s.sp.initCount ++ beBytes 2 1
  else beBytes 4 s.instNo ++ zeroBytes 10 ++ beBytes 2 2

/-- Bytes of an Identify structure that NVM Express reserves, first and last, those of formats and power states the device does not have among them: they
return as zero (R7; the layouts are NVM Express 2.0's: PRESUMED, log 75). -/
def identifyReserved (cns csi : Nat) : List (Nat × Nat) :=
  match cns, csi with
  | 0, _ => [(81, 91), (96, 98), (132, 383)]
  | 1, _ => [(102, 110), (134, 252), (358, 367), (384, 511), (564, 767), (1024, 1791), (2080, 3071)]
  | 5, 2 => [(53, 2815), (2825, 3839)]
  | 5, _ => [(9, 11), (268, 4095)]
  | 6, 2 => [(1, 4095)]
  | 6, _ => [(16, 4095)]
  | _, _ => []

/-- A byte of an Identify structure for which the manual states no value: zero where it is reserved. -/
def identifyByte (cns csi nsid i : Nat) : Byte :=
  if (identifyReserved cns csi).any (fun r => decide (r.1 ≤ i) && decide (i ≤ r.2)) then 0 else Config.identifyRest cns nsid i

/-- Identify Controller (CNS 01h). -/
def State.identController (s : State) : Bytes :=
  fieldsFrom (identifyByte 1 0 0) 4096 0
    [(0, leBytes 2 0x1F4C ++ leBytes 2 (if s.noProfile then 0 else s.profileAt 0x24 2)), (4, (List.range 68).map Config.identity), (77, leBytes 1 9), (80, leBytes 4 0x00020000), (84, leBytes 4 10000000),
     (88, leBytes 4 2000000), (92, leBytes 4 (2 ^ 8 + 2 ^ 9 + 2 ^ 27)), (256, leBytes 2 6), (258, leBytes 1 3), (259, leBytes 1 15),
     (260, leBytes 1 0x15), (262, leBytes 1 63), (263, leBytes 1 0), (266, leBytes 2 373), (268, leBytes 2 378), (270, leBytes 2 2),
     (272, leBytes 4 s.hmPre), (276, leBytes 4 s.hmMin), (319, leBytes 1 1), (332, leBytes 4 512), (336, leBytes 2 256),
     (512, leBytes 1 0x66), (513, leBytes 1 0x44), (516, leBytes 4 2), (520, leBytes 2 0x4C), (525, leBytes 1 7), (536, leBytes 4 1),
     (2048, leBytes 2 4600)]

/-- Identify Namespace of the NVM Command Set (CNS 00h). -/
def State.identNamespace (s : State) (nsid : Nat) : Bytes :=
  let size := if nsid = 1 then s.takeLbas else s.sideSize
  let use := if nsid = 1 then s.takeUse else s.sideUse
  fieldsFrom (identifyByte 0 0 nsid) 4096 0
    ([(0, leBytes 8 size), (8, leBytes 8 size), (16, leBytes 8 use), (25, zeroBytes 5)]
      ++ (if nsid = 2 then [(33, leBytes 1 9)] else [])
      ++ [(104, s.nguid nsid), (128, zeroBytes 2 ++ leBytes 1 12)])

/-- Identify Namespace of the Zoned Namespace Command Set (CNS 05h, CSI 02h). -/
def zonedNamespace : Bytes :=
  fieldsFrom (identifyByte 5 2 1) 4096 0
    [(0, leBytes 2 0), (2, leBytes 2 1), (4, leBytes 4 1023), (8, leBytes 4 1023), (12, leBytes 4 0), (16, leBytes 4 0),
     (2816, leBytes 8 65536 ++ leBytes 1 0)]

/-- Identifiers of the active namespaces above `nsid`, of those a command set serves where one is named. -/
def State.namespaceList (s : State) (nsid : Nat) (csi : Option Nat) : Bytes :=
  let all := (if s.takeActive then [(1, 2)] else []) ++ [(2, 0)]
  fitBytes 4096 ((all.filter (fun x => decide (nsid < x.1) && csi.elim true (fun c => c = x.2))).flatMap (fun x => leBytes 4 x.1))

/-- Namespace Identification Descriptors (CNS 03h): NGUID, command set; each with its type, its length and two reserved bytes in front. -/
def State.identDescriptors (s : State) (nsid : Nat) : Bytes :=
  fitBytes 4096 (leBytes 1 2 ++ leBytes 1 16 ++ zeroBytes 2 ++ s.nguid nsid ++ leBytes 1 4 ++ leBytes 1 1 ++ zeroBytes 2 ++ leBytes 1 (if nsid = 1 then 2 else 0))

/-- What Identify returns: a structure, or a status. -/
def State.identify (s : State) (cns nsid csi : Nat) : Bytes ⊕ Status :=
  let perNs (b : Bytes) : Bytes ⊕ Status :=
    if nsid != 1 && nsid != 2 then .inr stNamespace else if nsid = 1 && !s.takeActive then .inl (zeroBytes 4096) else .inl b
  match cns with
  | 0x00 => perNs (s.identNamespace nsid)
  | 0x01 => .inl s.identController
  | 0x02 => if 0xFFFFFFFE ≤ nsid then .inr stNamespace else .inl (s.namespaceList nsid none)
  | 0x03 => perNs (s.identDescriptors nsid)
  | 0x05 =>
    if (nsid = 1 && csi != 2) || (nsid = 2 && csi != 0) then .inr stField
    else perNs (if nsid = 1 then zonedNamespace else (List.range 4096).map (identifyByte 5 0 2))
  | 0x06 =>
    if csi = 2 then .inl (fieldsFrom (identifyByte 6 2 2) 4096 0 [(0, leBytes 1 9)])
    else if csi = 0 then .inl ((List.range 4096).map (identifyByte 6 0 0)) else .inr stField
  | 0x07 =>
    if csi != 0 && csi != 2 then .inr stField
    else if 0xFFFFFFFE ≤ nsid then .inr stNamespace else .inl (s.namespaceList nsid (some csi))
  | 0x1C => .inl (fitBytes 4096 (leBytes 8 5))
  | _ => .inr stField

/-- IDENTIFY (R333, R352). -/
def execIdentify (h : Hdr) (cns nsid csi : Nat) (s : State) : Out :=
  .next (s.adminCmd h true (fun q t =>
    match t.identify cns nsid csi with
    | .inl b => t.complete q stOk 0 0 b
    | .inr st => t.done q st)).goOn

/-! ### Trace Read -/

/-- TRACE_READ (R198, R357): packets of the frozen buffer. -/
def execTraceRead (h : Hdr) (d10 first src : Nat) (s : State) : Out :=
  .next (s.adminCmd h false (fun q t =>
    let n := d10 + 1
    if !t.keys.session then t.done q stDenied
    else if t.ctl.trace.st != 2 then t.done q stSequence
    else if n % 16 != 0 || 524288 < n || src % 256 != 0 || 32768 < first + n / 16 then t.done q stField
    else t.traceMove q first (n / 16))).goOn

/-! ### Firmware -/

/-- FIRMWARE_IMAGE_DOWNLOAD (R350): `off` in bytes. A part that ends past 4 MiB, the longest package (R440), is an invalid field. -/
def execFirmwareImageDownload (h : Hdr) (off : Nat) (data : Bytes) (s : State) : Out :=
  .next (s.adminCmd h true (fun q t =>
    if off % 4 != 0 || 2 ^ 22 < off + data.length then t.done q stField
    else
      (t.modNv (fun n =>
        { n with fwBuf := fitBytes (max n.fwBuf.length (off + data.length)) (overlay (fitBytes (max n.fwBuf.length off) n.fwBuf) off data) })).done
          q stOk)).goOn

/-- Fields of a patch package against the part: those of R440, no slot twice, code inside the package (R441). -/
def packageFields (b : Bytes) : Bool :=
  let len := leAt b 0x10 4
  let count := leAt b 0x14 2
  let at_ (i : Nat) : Nat := 0x80 + 16 * i
  let slots := (List.range count).map (fun i => leAt b (at_ i) 1)
  leAt b 0 4 = 0x50504855 && leAt b 4 2 = 1 && leAt b 6 1 = 0xB0 && decide (leAt b 7 1 ≤ 32) && leAt b 8 4 = Config.romVersion % 2 ^ 32
    && decide (256 ≤ len) && decide (len ≤ 4194304) && len % 16 = 0 && len = b.length && decide (count ≤ 64)
    && decide (0x80 + 16 * count + 96 ≤ len) && slots.all (fun x => decide (x < 64)) && decide (slots.Nodup)
    && (List.range count).all (fun i => decide (leAt b (at_ i + 8) 4 + leAt b (at_ i + 12) 4 ≤ len - 96))

/-- The signature of a patch package holds (R440). -/
def packageSigned (b : Bytes) : Bool :=
  ecdsaVerify ((List.range 96).map Config.signKey) (b.take (b.length - 96)) (b.drop (b.length - 96))

/-- The checks of a patch package: fields, signature, fuses (R441). -/
def packageOk (fuses : Nat) (b : Bytes) : Bool := packageFields b && packageSigned b && decide (fuses ≤ leAt b 7 1)

/-- The downloaded package: as many bytes as its length field says. -/
def State.package (s : State) : Bytes := s.nv.fwBuf.take (leAt s.nv.fwBuf 0x10 4)

/-- The slot of a Firmware Commit: slot 0 lets the controller choose, which is slot 2. -/
def commitSlot (slot : Nat) : Nat := if slot = 0 then 2 else slot

/-- Store the downloaded package in slot 2, both copies of the patch set, and complete with `st` once a copy has verified (R350, R351, R427). -/
def State.storePackage (s : State) (q slot : Nat) (st : Status) : State :=
  if commitSlot slot != 2 then s.done q stFwSlot
  else if !packageOk s.nor.fuses s.package then (s.raise 0x604 2 []).done q stFwImage
  else if s.nor.dead then s.done q stInternal
  else ((s.norWrite 5 s.package (.patch q st.sct st.sc st.dnr)).modNv (fun n => n.setWait q .keyRecord))

/-- FIRMWARE_COMMIT_STORE: action 000b. -/
def execFirmwareCommitStore (h : Hdr) (slot : Nat) (s : State) : Out := .next (s.adminCmd h true (fun q t => t.storePackage q slot stOk)).goOn

/-- FIRMWARE_COMMIT_STORE_AND_MARK: action 001b. -/
def execFirmwareCommitStoreAndMark (h : Hdr) (slot : Nat) (s : State) : Out :=
  .next (s.adminCmd h true (fun q t => t.storePackage q slot stFwReset)).goOn

/-- FIRMWARE_COMMIT_MARK: action 010b marks the slot 2 image; an empty slot 2 holds no valid image. -/
def execFirmwareCommitMark (h : Hdr) (slot : Nat) (s : State) : Out :=
  .next (s.adminCmd h true (fun q t =>
    if commitSlot slot != 2 then t.done q stFwSlot
    else if t.nv.fwSlot2.isNone then t.done q stFwImage
    else (t.modNv (fun n => { n with fwMarked := true })).done q stFwReset)).goOn

/-- FIRMWARE_COMMIT_ACTIVATE: action 011b. With the tape still, fetching pauses until every started command has completed. -/
def execFirmwareCommitActivate (h : Hdr) (slot : Nat) (s : State) : Out :=
  .next (s.adminCmd h true (fun q t =>
    if 2 < slot then t.done q stFwSlot
    else if commitSlot slot = 2 && t.nv.fwSlot2.isNone then t.done q stFwImage
    else if t.moves then t.done q stFwProhibited
    else (t.asyncEvent 2 1 0x03).modNv (fun n => { (n.setWait q (.activate (decide (slot = 1)))) with pp := true }))).goOn

/-! ### Format -/

/-- A held command waits on the take namespace (R273). -/
def State.onTake (s : State) (h : Held) : Bool :=
  match h.wait with
  | .write => s.nv.writes.any (fun w => w.seq = h.seq && w.nsid = 1)
  | .flush take _ _ _ => take
  | .spoolCommit _ _ | .behindMark _ _ _ _ _ _ | .takeMark | .read _ _ _ => true
  | _ => false

/-- Format of NSID 1 with secure erase setting 2 (R273): in SERVICE; what waits on the take namespace completes first. -/
def State.formatTake (s : State) (q : Nat) : State :=
  if s.mag.st != .service || s.noRotation then s.done q stSequence
  else
    let t := s.nv.held.foldl (fun u h => if s.onTake h then u.done h.seq stNotReady else u) s
    (t.modNv (fun n => n.setWait q .keyRecord)).startRotation (some q) none true none

/-- Format of NSID 2: every extent is unmapped, and with setting 1 every die block that held a sidecar unit is erased (R341). -/
def State.formatSide (s : State) (q : Nat) (erase : Bool) : State :=
  if s.car.readOnly then s.done q stProtected
  else
    let t := s.sideClear
    (if erase then s.sideBlockList.foldl (fun u e => u.eraseBlock e.1 e.2) t else t).done q stOk

/-- A Format, checked (R273, R341). -/
def State.format (s : State) (q nsid ses lbaf : Nat) : State :=
  if (nsid != 1 && nsid != 2) || (nsid = 1 && !s.takeActive) then s.done q stNamespace
  else if lbaf != 0 then s.done q stFormat
  else if 2 < ses then s.done q stField
  else if nsid = 1 then (if ses = 2 then s.formatTake q else s.done q stFormat)
  else if ses = 2 then s.done q stFormat
  else s.formatSide q (decide (ses = 1))

/-- FORMAT_NVM (R341). -/
def execFormatNvm (h : Hdr) (nsid ses lbaf : Nat) (s : State) : Out := .next (s.adminCmd h false (fun q t => t.format q nsid ses lbaf)).goOn

/-- FORMAT_SECURE_ERASE_TAKE (R273): secure erase setting 2. -/
def execFormatSecureEraseTake (h : Hdr) (nsid lbaf : Nat) (s : State) : Out := .next (s.adminCmd h false (fun q t => t.format q nsid 2 lbaf)).goOn

/-! ### Commands that do not exist -/

/-- What a command that no other row of the table carries is answered: an opcode not listed with Invalid Command Opcode (R352); a listed one with Invalid
Field in Command, as R220 and R270 say of a Transport Command (CCh) and a Key Deposit (C4h) whose operation does not exist; for the other listed
opcodes, whose forms all have rows, that is presumed (PRESUMED, log 75). On the admin queue the admin opcodes are listed, on the others the I/O opcodes. -/
def unlistedStatus (sq opcode : Nat) : Status :=
  if (if sq = 0 then adminOpcodes else ioOpcodes).contains (opcode % 256) then stField else stOpcode

/-- UNSUPPORTED_COMMAND (R220, R270, R352): in SAFE too, for the opcode is looked at first; of a queue being deleted it gets the aborted status. -/
def execUnsupportedCommand (h : Hdr) (opcode _nsid _d10 : Nat) (s : State) : Out :=
  .next (match s.begin h with
    | some (q, t) => (t.done q (if t.nv.held.any (fun x => x.wait = .deleteSq h.sq) then stSqDeleted else unlistedStatus h.sq opcode)).goOn
    | none => s.goOn)

end Sys2Proof.Machine
end

