-- ==== Sys2Proof/Machine/Profile.lean ====
section
/-! DEFINITION. The Mehred profile: header, sections, entries (R432 to R436), the checks of R439 in the order of their table, the values it
presets (R433, R474), and the bytes the device seals (R438). -/

namespace Sys2Proof.Machine

/-! ### Sections and entries -/

/-- An entry of a profile with its offset and the width it states. -/
structure ProfEntry where
  /-- Offset in the profile. -/
  off : Nat
  /-- Value width, bytes. -/
  width : Nat
  /-- PID, first index, values. -/
  ent : RecEntry
  deriving DecidableEq, Repr

/-- Read `n` entries from offset `o` on, none past `lim`: the entries and the end of the table, or the offset of the first entry that is not
formed as R433 says. -/
def profEntries (b : Bytes) (lim : Nat) : Nat → Nat → (List ProfEntry × Nat) ⊕ Nat
  | 0, o => .inl ([], o)
  | n + 1, o =>
    let k := leAt b (o + 8) 4
    let w := leAt b (o + 12) 1
    let used := 16 + k * w
    let len := (used + 7) / 8 * 8
    if lim < o + 16 || k = 0 || (w != 4 && w != 8) || lim < o + len || leAt b (o + 2) 2 != 0 || leAt b (o + 13) 3 != 0
        || !allZero (slice b (o + used) (len - used)) then .inr o
    else
      let e : ProfEntry := { off := o, width := w, ent := { pid := leAt b o 2, first := leAt b (o + 4) 4,
                                                            vals := (List.range k).map (fun i => leAt b (o + 16 + w * i) w) } }
      match profEntries b lim n (o + len) with
      | .inl (es, x) => .inl (e :: es, x)
      | .inr x => .inr x

/-- Entries of a profile; empty when the table is malformed. -/
def profileEntries (b : Bytes) : List ProfEntry :=
  match profEntries b (b.length - 32) (leAt b 0x2C 4) (leAt b 0x28 4) with
  | .inl (es, _) => es
  | .inr _ => []

/-- Elements an entry sets: PID, index, element value. -/
def ProfEntry.elems (e : ProfEntry) : List (Nat × Nat × Nat) := e.ent.vals.zipIdx.map (fun x => (e.ent.pid, e.ent.first + x.2, x.1))

/-- Element values by parameter key; a later entry would replace an earlier one. -/
def profileMap (es : List ProfEntry) : NMap Nat :=
  es.foldl (fun (m : NMap Nat) e => e.elems.foldl (fun (m : NMap Nat) x => NMap.put m (pkey x.1 x.2.1) x.2.2) m) []

/-- Two half-open ranges meet. -/
def rangesMeet (a b : Nat × Nat) : Bool := decide (a.1 < b.2) && decide (b.1 < a.2)

/-- No two of a list of ranges meet. -/
def apart : List (Nat × Nat) → Bool
  | [] => true
  | r :: rs => rs.all (fun x => !rangesMeet r x) && apart rs

/-- Signer key `k` of a profile, `k` from 0, as the point it stands for (R434). -/
def signerPoint (b : Bytes) (k : Nat) : Nat × Nat :=
  let o := leAt b 0x30 4 + 96 * k
  (beAt b o 48, beAt b (o + 48) 48)

/-! ### The tests of R439 -/

/-- Reason 0x01: identifier, version, header length, profile length; `len` is the length expected. -/
def profHeaderOk (b : Bytes) (len : Nat) : Bool :=
  let n := leAt b 8 4
  leAt b 0 4 = 0x4452484D && leAt b 4 2 = 1 && leAt b 6 2 = 256 && decide (512 ≤ n) && decide (n ≤ 4194304) && n % 8 = 0 && n = len
    && n = b.length

/-- Reason 0x02: header CRC and body CRC. -/
def profCrcOk (b : Bytes) : Bool :=
  let n := b.length - 32
  leAt b 0xFC 4 = crc32c (b.take 0xFC) && leAt b n 4 = crc32c (b.take n)

/-- Reserved bytes of header, NAND descriptor and trailer. -/
def profReservedOk (b : Bytes) : Bool :=
  let o := leAt b 0x38 4
  allZero (slice b 0x22 2) && allZero (slice b 0x35 3) && allZero (slice b 0x3C 4) && allZero (slice b 0x4C 176) && allZero (slice b (o + 1) 1)
    && allZero (slice b (o + 10) 6) && allZero (slice b (b.length - 28) 12)

/-- Reason 0x03: sections inside the profile and apart, reserved bytes zero; a header count or context outside its column counts here as well
(DEDUCED, log 61). The result is the offset to report, none when the test passes. -/
def profSections (b : Bytes) : Option Nat :=
  let n := b.length
  let eo := leAt b 0x28 4
  let keys := leAt b 0x34 1
  let so := leAt b 0x30 4
  let no := leAt b 0x38 4
  match profEntries b (n - 32) (leAt b 0x2C 4) eo with
  | .inr x => some x
  | .inl (_, e) =>
    let secs := [(0, 256), (eo, e), (no, no + 16), (n - 32, n)] ++ (if keys = 0 then [] else [(so, so + 96 * keys)])
    let ok := decide (leAt b 0x20 1 ≤ 1) && decide (keys ≤ 4) && leAt b 0x2C 4 != 0 && decide (leAt b 0x2C 4 ≤ 65535) && eo % 8 = 0
      && (keys != 0 || so = 0) && secs.all (fun r => decide (r.2 ≤ n)) && apart secs && profReservedOk b
    if ok then none else some 0

/-- Reason 0x04: a profile may carry this entry. -/
def ProfEntry.allowed (e : ProfEntry) : Bool :=
  match pdesc? e.ent.pid with
  | some d => d.width = e.width && (d.access = .rwl || d.access = .rws || d.access = .rwf || (d.access = .ro && d.fromProfile))
  | none => false

/-- Reason 0x05: the first entry with an index outside its array, or with an element that an earlier entry sets. -/
def profIndexBad : List ProfEntry → List ProfEntry → Option Nat
  | _, [] => none
  | before, e :: es =>
    let d := (pdesc? e.ent.pid).elim 0 (fun x => x.count)
    let r (x : ProfEntry) : Nat × Nat := (x.ent.first, x.ent.first + x.ent.vals.length)
    if d < e.ent.first + e.ent.vals.length || before.any (fun x => x.ent.pid = e.ent.pid && rangesMeet (r x) (r e)) then some e.off
    else profIndexBad (e :: before) es

/-- Value of an element under a profile, over the reset values. -/
def profGet (m : NMap Nat) (pid i : Nat) : Int := elemInt pid ((NMap.find? m (pkey pid i)).getD (resetElem pid i))

/-- The state a profile's values are judged in: its NAND descriptor gives the threshold range, and no queue uses a vector yet. -/
def State.forProfile (s : State) (b : Bytes) : State := (s.modNor (fun n => { n with profile := some b })).modNv (fun n => { n with cqs := [] })

/-- Reason 0x06: the first entry with a value outside its range, its field or its row's conditions, the whole profile being the candidate. -/
def State.profValueBad (s : State) (b : Bytes) (es : List ProfEntry) : Option Nat :=
  let t := s.forProfile b
  let get := profGet (profileMap es)
  (es.find? (fun e =>
    match pdesc? e.ent.pid with
    | some d => !e.elems.all (fun x => t.elemOk d get x.2.1 x.2.2)
    | none => true)).map (fun e => e.off)

/-- Reason 0x07: the first entry of a commit group that a commit of the whole profile would reject. -/
def profGroupBad (es : List ProfEntry) : Option Nat :=
  let get := profGet (profileMap es)
  let staged (e : ProfEntry) : List Nat :=
    if (pdesc? e.ent.pid).elim false (fun d => d.access = .rws) then e.elems.map (fun x => groupKey (pkey x.1 x.2.1)) else []
  (es.find? (fun e => ((staged e).eraseDups).any (fun g => !groupOk get (g / 2 ^ 20, g % 2 ^ 20)))).map (fun e => e.off)

/-- Reason 0x08: every parameter whose reset is "From profile" is set at every index. The entries are apart, so their counts add up. -/
def profComplete (es : List ProfEntry) : Bool :=
  paramTable.all (fun d => !d.fromProfile || es.foldl (fun n e => if e.ent.pid = d.pid then n + e.ent.vals.length else n) 0 = d.count)

/-- Reason 0x0B: the parameter byte and the offset range of the NAND descriptor. -/
def profNandOk (b : Bytes) : Bool :=
  let o := leAt b 0x38 4
  let sgn (x : Nat) : Int := if x < 128 then x else (x : Int) - 256
  decide (leAt b (o + 7) 1 ≤ 3) && decide (sgn (leAt b (o + 8) 1) < sgn (leAt b (o + 9) 1))

/-- The first failing test of R439 as reason and offset of the offending entry, 0 where the reason names none; none when the profile
passes. -/
def State.profileCheck (s : State) (b : Bytes) (len : Nat) : Option (Nat × Nat) :=
  if !profHeaderOk b len then some (1, 0)
  else if !profCrcOk b then some (2, 0)
  else
    match profSections b with
    | some o => some (3, o)
    | none =>
      let es := profileEntries b
      match es.find? (fun e => !e.allowed) with
      | some e => some (4, e.off)
      | none =>
        match profIndexBad [] es with
        | some o => some (5, o)
        | none =>
          match s.profValueBad b es with
          | some o => some (6, o)
          | none =>
            match profGroupBad es with
            | some o => some (7, o)
            | none =>
              if !profComplete es then some (8, 0)
              else if profGet (profileMap es) pCSL_CONFIG 0 != (leAt b 0x21 1 : Nat) then some (9, 0)
              else if !(List.range (leAt b 0x34 1)).all (fun k => p384On (signerPoint b k)) then some (0xA, 0)
              else if !profNandOk b then some (0xB, 0)
              else none

/-! ### Stored copies (R427, R445) and what a profile presets (R474) -/

/-- Why a stored copy is not valid: the cause of EVT 0x7E0 and the reason; none when it is valid. A copy never written fails its CRC. -/
def State.copyFault (s : State) (c : Option Bytes) : Option (Nat × Nat) :=
  match c with
  | none => some (1, 0)
  | some b =>
    let n := b.length - 32
    if b.length < 32 || leAt b n 4 != crc32c (b.take n) then some (1, 0)
    else if !sealOk "UHPS" b then some (2, 0)
    else (s.profileCheck b b.length).map (fun x => (3, x.1))

/-- The entries as presets: an element equal to its reset value is not listed. -/
def presetsOf (m : NMap Nat) : NMap Nat := m.filter (fun (e : Nat × Nat) => e.2 != resetElem (e.1 / 2 ^ 20) (e.1 % 2 ^ 20))

/-- Entries of a calibration record laid over the presets; CTL_RADIUS is no preset (R182, R437). -/
def overPresets (m : NMap Nat) (es : List RecEntry) : NMap Nat :=
  presetsOf (es.foldl (fun (m : NMap Nat) e =>
    if e.pid = pCTL_RADIUS then m else e.vals.zipIdx.foldl (fun (m : NMap Nat) x => NMap.put m (pkey e.pid (e.first + x.2)) x.1) m) m)

/-! ### The bytes that are sealed (R438) -/

/-- The imported profile: as many bytes as BOOT_IMP_LEN says, 4 in each element. -/
def State.imported (s : State) : Bytes :=
  let n := s.pn pBOOT_IMP_LEN
  ((List.range ((n + 3) / 4)).flatMap (fun i => leBytes 4 (NMap.get 0 s.nor.imp i))).take n

/-- The higher sequence of the two stored copies, of those whose seal holds. -/
def State.storedSeq (s : State) : Nat :=
  let q (c : Option Bytes) : Nat := (c.filter (sealOk "UHPS")).elim 0 recSeq
  max (q (s.copies 0).c0) (q (s.copies 0).c1)

/-- The profile with sequence, sealing time and instance filled in, both CRCs and the seal. -/
def State.sealedProfile (s : State) (b : Bytes) : Bytes :=
  let h := b.take 0x0C ++ leBytes 4 (s.storedSeq + 1) ++ slice b 0x10 0x30 ++ leBytes 8 s.rtcSec ++ leBytes 4 s.instNo ++ slice b 0x4C 176
  sealRecord "UHPS" (h ++ leBytes 4 (crc32c h) ++ slice b 256 (b.length - 288))

end Sys2Proof.Machine
end

