-- ==== Sys2Proof/Machine/Nand.lean ====
section
/-! DEFINITION. Pages of the Carousel as they stand on the dies: the flash ECC (R288, R289), page tags, the bytes of a programmed page, and how a
sector reads (R290). -/

namespace Sys2Proof.Machine

/-! ### The BCH code over GF(2^15) (R289) -/

/-- Product of two polynomials over GF(2), as bits of numbers: `n` bits of `b` are used. -/
def clMul (a b : Nat) : Nat → Nat
  | 0 => 0
  | n + 1 => (if Nat.testBit b n then (a <<< n) else 0) ^^^ clMul a b n

/-- Remainder of a polynomial of at most `deg + n` bits by one of degree `deg`. -/
def clMod (deg g : Nat) : Nat → Nat → Nat
  | 0, a => a
  | n + 1, a => clMod deg g n (if Nat.testBit a (deg + n) then a ^^^ (g <<< n) else a)

/-- Product in GF(2^15), primitive polynomial x^15 + x + 1. -/
def gf15Mul (a b : Nat) : Nat := clMod 15 0x8003 15 (clMul a b 15)

/-- The power of the primitive element. -/
def gf15Pow : Nat → Nat
  | 0 => 1
  | n + 1 => gf15Mul 2 (gf15Pow n)

/-- Exponents of the conjugates of α^i. -/
def conjugates (i : Nat) : List Nat := ((List.range 15).map (fun k => i * 2 ^ k % 32767)).eraseDups

/-- A polynomial over GF(2^15), lowest coefficient first, times x + r. -/
def polyTimes (p : List Nat) (r : Nat) : List Nat := List.zipWith (fun a b => a ^^^ b) (0 :: p) (p.map (gf15Mul r) ++ [0])

/-- Minimal polynomial of α^i: its coefficients are 0 and 1. -/
def minPoly (i : Nat) : Nat :=
  let p := (conjugates i).foldl (fun p j => polyTimes p (gf15Pow j)) [1]
  p.zipIdx.foldl (fun a x => if x.1 = 1 then a + 2 ^ x.2 else a) 0

/-- Exponents from 1 to 240, one of each set of conjugates. -/
def bchRoots : List Nat := (List.range 240).foldl (fun l k => if l.any (fun i => (conjugates i).contains (k + 1)) then l else l ++ [k + 1]) []

/-- The generator: the least common multiple of the minimal polynomials of α^1 to α^240. -/
def bchGen : Nat := bchRoots.foldl (fun g i => clMul g (minPoly i) 16) 1

/-- The 225 parity bytes of the 2,056 message bytes of a sector. -/
def bchParity (msg : Bytes) : Bytes := beBytes 225 (clMod 1800 bchGen 16448 (beNat (fitBytes 2056 msg) * 2 ^ 1800))

/-- Bit errors the code corrects in a sector (R289). -/
def bchCorrects : Nat := 120

/-! ### Pages and their tags (R288) -/

/-- The 64 bytes of a page tag; `mirror` is 0 but on journal and checkpoint pages. -/
def pageTag (u : CUnit) (page mirror : Nat) : Bytes :=
  let b := leBytes 1 u.kind.code ++ leBytes 1 page ++ leBytes 1 mirror ++ leBytes 1 0 ++ leBytes 4 u.stamp.1 ++ leBytes 8 u.laddr ++ leBytes 8 u.seq
    ++ leBytes 4 u.stamp.2.1 ++ leBytes 4 u.stamp.2.2 ++ zeroBytes 28
  b ++ leBytes 4 (crc32c b)

/-- Byte `o` of the take log, from the DS image it lies in (R292). -/
def State.logByte (s : State) (o : Nat) : Byte :=
  match List.find? (fun (e : Nat × DsImage) => decide (e.2.logOff ≤ o) && decide (o < e.2.logOff + dsInfo)) s.sp.images with
  | some e => e.2.bytes.getD (o - e.2.logOff) 0
  | none => 0

/-- The 16,384 data bytes of page `p` of a unit. -/
def State.pageData (s : State) (u : CUnit) (p : Nat) : Bytes :=
  if u.kind = .image then (List.range 16384).map (fun i => s.logByte (2 ^ 20 * u.laddr + 16384 * p + i))
  else fitBytes 16384 (slice u.data (16384 * p) 16384)

/-- Sector `j` of a page with its tag bytes and parity. -/
def sectorBytes (data tag : Bytes) (j : Nat) : Bytes :=
  let m := slice data (2048 * j) 2048 ++ slice tag (8 * j) 8
  m ++ bchParity m

/-- A page of a unit as programmed, with `spare` bytes behind the sectors at 0xFF (R288). -/
def State.pageBytes (s : State) (u : CUnit) (p spare : Nat) : Bytes :=
  (List.range 8).flatMap (sectorBytes (s.pageData u p) (pageTag u p 0)) ++ List.replicate spare 0xFF

/-- How a sector reads. -/
inductive SectorRead where
  | erased | decoded | uncorrectable
  deriving DecidableEq, Repr

/-- A sector that differs from its page as programmed in `errors` bits decodes up to the limit of the code; one of a page that is erased reads as
erased with at most CSL_ERASED_BITS zero bits and does not decode otherwise (R290). -/
def State.sectorRead (s : State) (programmed : Bool) (errors : Nat) : SectorRead :=
  if programmed then (if errors ≤ bchCorrects then .decoded else .uncorrectable)
  else if errors ≤ s.pn pCSL_ERASED_BITS then .erased else .uncorrectable

/-- A page that is erased: its block is free, or open with the page not yet taken. -/
def State.pageErased (s : State) (d b p : Nat) : Bool :=
  let k := s.block d b
  k.use = 0 || (k.use = 1 && decide (k.next ≤ p))

end Sys2Proof.Machine
end

