-- ==== Sys2Proof/Machine/Carousel.lean ====
section
/-! DEFINITION. The Carousel's commands: program statuses and die timeouts (R301, R306), page reads (R309, R310), journal records and checkpoints
(R298, R299, R302), program sequences (R428), garbage collection, folding and scrub (R294, R304, R311, R447), the age clock (R307), the host
memory buffer (R319). -/

namespace Sys2Proof.Machine

/-- Add to a counter of the Carousel log, by its offset (R453). -/
def State.carLog (s : State) (o n : Nat) : State := s.modCar (fun c => { c with log := NMap.bumpSat (2 ^ 64 - 1) c.log o n })

/-! ### Program statuses (R301, R306) -/

/-- A status may arrive for a unit: some are outstanding, and for a unit of the take log the next multi-plane page is filled. -/
def State.statusDue (s : State) (u : CUnit) : Bool :=
  u.left != 0 && (u.kind != .image || decide (s.passed u + max 1 (s.pn pCSL_PLANES) ≤ s.logFilled u.laddr))

/-- PAGE_PROGRAM_STATUS (R301, R302, R306, R308, R316): with the last passing status a unit has persisted; a failing one retires the die block,
and the whole unit is programmed again elsewhere. The status comes to Ringmaster through FIFO 69, which holds it back while it is halted (R101, R111). -/
def execPageProgramStatus (unit : Nat) (pass : Bool) (s : State) : Out :=
  .next (
    match NMap.find? s.car.units unit with
    | none => s
    | some u =>
      if !s.mag.st.alive || !s.statusDue u || !s.flows 69 then s
      else if pass then
        (((s.pass 69 1 1).modCar (fun c => { c with units := NMap.put c.units unit { u with left := u.left - 1, persisted := u.left = 1 } })).modDie u.die
          (fun d => { d with fails := 0 })).goOn
      else
        let t := (((s.pass 69 1 1).raise (dieEvt u.die) 1 (dieData u.die u.block u.page)).retireBlock u.die u.block).dieFailed u.die
        let moved : Bool := (NMap.find? t.car.units unit).elim true (fun v => v.die != u.die || v.block != u.block)
        (if moved then t else t.reprogram unit).goOn)

/-- DIE_OPERATION_TIMEOUT (R306): the die is retired. -/
def execDieOperationTimeout (die : Nat) (s : State) : Out :=
  .next (
    if !s.mag.st.alive || !s.dieThere die || (s.die die).retired then s
    else ((s.raise (dieEvt die) 7 (dieData die 0 0)).retireDie die).goOn)

/-! ### Page reads (R309 to R311) -/

/-- A die block waits for scrub, oldest equivalent age first (R311, R448). -/
def State.queueScrub (s : State) (key : Nat) (urgent : Bool) : State :=
  if s.car.scrub.contains key then s
  else
    let age (k : Nat) : Nat := s.blockAge (s.block (k / 65536) (k % 65536))
    let t := s.modCar (fun c =>
      { c with scrub := c.scrub.filter (fun k => decide (age key ≤ age k)) ++ [key] ++ c.scrub.filter (fun k => decide (age k < age key)) })
    if urgent then t.carLog 0x6C 1 else t

/-- Bits corrected in sector `j` by attempt: `errors` lists eight counts an attempt; above 120 the sector does not decode (R289). -/
def attemptBits (errors : List Nat) (r j : Nat) : Nat := errors.getD (8 * r + j) 0

/-- Attempts the ladder makes: the first after which every sector has decoded in some attempt, else all that CSL_RETRY_N allows (R310). -/
def attemptsMade (errors : List Nat) : Nat → Nat → Nat
  | 0, r => r + 1
  | n + 1, r =>
    if (List.range 8).all (fun j => (List.range (r + 1)).any (fun k => decide (attemptBits errors k j ≤ 120))) then r + 1
    else attemptsMade errors n (r + 1)

/-- The unit a page lies in. -/
def State.unitAt (s : State) (d b p : Nat) : Option (Nat × CUnit) :=
  (List.filter (fun (e : Nat × CUnit) => e.2.die = d && e.2.block = b && decide (e.2.page ≤ p) && decide (p < e.2.page + e.2.kind.pages) && e.2.persisted)
    s.car.units).head?

/-- PAGE_READ (R309 to R311): the offset of the block's age and temperature class first, then the ladder; sectors that stay uncorrectable are
lost with what they hold, and a block whose sector needed more than CSL_SCRUB_BITS is queued for scrub. On an erased page the counts are its zero
bits: a sector with at most CSL_ERASED_BITS of them reads as erased (R290). -/
def execPageRead (die block page : Nat) (errors : List Nat) (s : State) : Out :=
  .next (
    if !s.mag.st.alive || !s.dieThere die then s
    else
      let s0 := s.applyPend (fun p _ => p = pCSL_RT_TAB)
      match s0.unitAt die block page with
      | none =>
        let n := attemptsMade errors (s0.pn pCSL_RETRY_N) 0
        let lost := (List.range 8).countP (fun j => (List.range n).all (fun k => s0.sectorRead false (attemptBits errors k j) = .uncorrectable))
        if s0.pageErased die block page && lost != 0 then (s0.carLog 0x40 lost).raise (dieEvt die) 3 (dieData die block page) else s0
      | some (id, u) =>
        let n := attemptsMade errors (s0.pn pCSL_RETRY_N) 0
        let bad := (List.range 8).filter (fun j => (List.range n).all (fun k => decide (120 < attemptBits errors k j)))
        let worst := (List.range 8).foldl (fun m j =>
          match (List.range n).find? (fun k => decide (attemptBits errors k j ≤ 120)) with
          | some k => max m (attemptBits errors k j)
          | none => m) 0
        let off := s0.readOffset (s0.block die block) + s0.pn pCSL_RT_STEP * ladderStep (n - 1)
        let t1 := s0.modDie die (fun d => { d with offset := off })
        let t2 := if 1 < n then t1.carLog 0x48 1 else t1
        let t3 :=
          if bad.isEmpty then t2
          else
            let rel := page - u.page
            let v := t2.modCar (fun c => { c with units := NMap.put c.units id { u with bad := (u.bad ++ bad.map (fun j => 8 * rel + j)).eraseDups } })
            (v.carLog 0x40 bad.length).raise (dieEvt die) 3 (dieData die block page)
        let t4 :=
          if s0.pn pCSL_SCRUB_BITS < worst then (t3.raise (dieEvt die) 4 (dieData die block page)).queueScrub (blockKey die block) (decide (110 < worst)) else t3
        (t4.readAll).goOn)

/-! ### Journals (R298 to R303) -/

/-- What orders a record against others: the unit, the extent or the die block it names; none orders it against every such record. -/
def JRec.key : JRec → Option (Nat × Nat)
  | .unit id | .release id => some (0, id)
  | .extent e _ => some (1, e)
  | .block d b _ => some (2, blockKey d b)
  | _ => none

/-- Two commits of one journal keep their order. -/
def JCommit.ordered (a b : JCommit) : Bool :=
  a.index = b.index && ((a.recs.any (fun r => r.key.isNone) && b.recs.any (fun r => r.key.isNone))
    || a.recs.any (fun r => r.key.isSome && b.recs.any (fun x => x.key = r.key)))

/-- The oldest commit that may be written now: ready, with nothing older waiting that it must follow (R298, R302). -/
def State.nextCommit (s : State) : Option (Nat × JCommit) :=
  (s.car.journal.zipIdx.find? (fun x => s.commitReady x.1 && (s.car.journal.take x.2).all (fun y => !y.ordered x.1))).map (fun x => (x.2, x.1))

/-- A die block with no unit left in it goes to the free pool, once it is full (R302, R303). -/
def State.freeIfEmpty (s : State) (d b : Nat) : State :=
  if (s.block d b).use = 2 && !s.car.units.any (fun e => e.2.die = d && e.2.block = b) then s.modBlock d b (fun k => { k with use := 0 }) else s

/-- Some LBAs of the write area have persisted. -/
def persistLbas (m : NMap WLba) (start n : Nat) : NMap WLba :=
  (List.range n).foldl (fun (a : NMap WLba) i => NMap.modify a (start + i) (fun w => { w with persisted := true })) m

/-- Sidecar LBAs that a unit with application number `app` made persistent leave the buffer; a later write stays. -/
def dropSide (m : NMap WLba) (start n app : Nat) : NMap WLba :=
  m.filter (fun (e : Nat × WLba) => !(decide (start ≤ e.1) && decide (e.1 < start + n) && decide (e.2.app ≤ app)))

/-- What follows at once when a record has persisted (R77, R297, R302, R314). -/
def State.recPersisted (s : State) (r : JRec) : State :=
  match r with
  | .unit id =>
    (match NMap.find? s.car.units id with
     | some u =>
       let t := s.modCar (fun c => { c with units := NMap.put c.units id { u with journalled := true } })
       if u.kind = .flush then t.modSp (fun p => { p with wbuf := persistLbas p.wbuf (u.lbas.getD 0 0) (u.lbas.getD 1 0) })
       else if u.kind.sidecar then t.modCar (fun c => { c with sbuf := dropSide c.sbuf (u.lbas.getD 0 0) (u.lbas.getD 1 0) (u.lbas.getD 2 0) })
       else t
     | none => s)
  | .release id =>
    (match NMap.find? s.car.units id with
     | some u => (s.modCar (fun c => { c with units := NMap.del c.units id })).freeIfEmpty u.die u.block
     | none => s)
  | .image q (some v) =>
    (s.modSp (fun p =>
      { p with
        images := NMap.modify p.images q (fun x => { x with persisted := true })
        wbuf := v.lbas.foldl (fun (m : NMap WLba) (l : Nat × Nat) => persistLbas m l.1 l.2) p.wbuf })).releaseFlush
  | .loc l => s.modSp (fun p => { p with ready := if p.ready.contains l.group then p.ready else p.ready ++ [l.group] })
  | .event e => s.modEv (fun v => { v with unsaved := v.unsaved.filter (fun x => x.seq != e.seq) })
  | _ => s

/-- LBAs of the write area that lie in a persisted DS image leave it, but for those of a FUA write still waiting (R97, R344). -/
def State.trimArea (s : State) : State :=
  let held (l : Nat) : Bool := s.nv.writes.any (fun w => w.nsid = 1 && w.fua && decide (w.slba ≤ l) && decide (l < w.slba + w.nlb))
  let inImage (w : WLba) : Bool := w.ds.elim false (fun q => (NMap.find? s.sp.images q).elim true (fun v => v.persisted))
  s.modSp (fun p => { p with wbuf := p.wbuf.filter (fun (e : Nat × WLba) => !(e.2.persisted && inImage e.2 && !held e.1)) })

/-- A commit has persisted in both mirrors: the map a BOOT finds takes it, and what it lets happen happens. -/
def State.commitDone (s : State) (i : Nat) (c : JCommit) : State :=
  let t := s.modCar (fun k =>
    let n := c.recs.foldl NvMap.apply k.nv
    { k with journal := k.journal.eraseIdx i, nv := { n with sealed := if c.index then k.nv.sealed else n.sealed } })
  (c.recs.foldl State.recPersisted t).trimArea

/-- JOURNAL_RECORD_PERSISTED (R298, R302); its pages need program sequences as any others do (R428). A record of the index journal comes through FIFO 72
(R101). -/
def execJournalRecordPersisted (s : State) : Out :=
  .next (
    if !s.mag.st.alive || !s.seqRoom then s
    else
      match s.nextCommit with
      | some (i, c) => if c.index && !s.flows 72 then s else ((((if c.index then s.pass 72 1 1 else s).commitDone i c).settleRot).readAll).goOn
      | none => s)

/-! ### The root record (R427, R428) and checkpoints (R299) -/

/-- Copy of the root record that is valid. -/
def rootValid (b : Bytes) : Bool := b.length = 80 && leAt b 0 4 = 0x52524855 && leAt b 4 2 = 1 && sealOk "UHRR" b

/-- The root record in force. -/
def State.rootRec (s : State) : Option Bytes := (newestCopy rootValid (fun b => leAt b 8 4) (s.copies 2)).map Prod.snd

/-- A root record with the next record sequence. Where the checkpoint lies is not part of the model: its fields are zero (log 50). -/
def State.rootBytes (s : State) (ceil : Nat) : Bytes :=
  sealRecord "UHRR" (leBytes 4 0x52524855 ++ leBytes 2 1 ++ leBytes 2 0 ++ leBytes 4 ((s.rootRec.map (fun b => leAt b 8 4)).getD 0 + 1)
    ++ leBytes 4 s.car.boots ++ leBytes 8 ceil ++ zeroBytes 24)

/-- CHECKPOINT_WRITE (R299): after CSL_CKPT_MIB of map journal; the root record then names the checkpoint. -/
def execCheckpointWrite (s : State) : Out :=
  .next (
    if !s.mag.st.alive || s.mag.st = .drain || !s.seqReady || s.car.sinceCkpt < s.pn pCSL_CKPT_MIB * 2 ^ 20 then s
    else (s.modCar (fun c => { c with sinceCkpt := 0, nv := { c.nv with ckAge := c.age } })).norWrite 2 (s.rootBytes (s.car.pceil.getD 0)) .boot)

/-- Runs of consecutive LBAs in a rising list. -/
def sideRuns : List (Nat × Bytes) → List (Nat × List Bytes)
  | [] => []
  | (l, b) :: rest =>
    match sideRuns rest with
    | (k, bs) :: more => if k = l + 1 then (l, b :: bs) :: more else (l, [b]) :: (k, bs) :: more
    | [] => [(l, [b])]

/-- Application number of the unit that a sidecar LBA is mapped to, 0 when it is not mapped. -/
def State.sideApp (s : State) (l : Nat) : Nat :=
  let unit : Option Nat :=
    match NMap.find? s.car.exts (l / 256) with
    | some (.large id) => some id
    | some (.fine m _) => (NMap.find? m (l % 256 / 4)).bind (fun f => f.unit)
    | none => none
  (unit.bind (fun id => NMap.find? s.car.units id)).elim 0 (fun u => u.lbas.getD 2 0)

/-- Program the sidecar writes that had to wait for a program sequence. -/
def State.sideFlush (s : State) : State :=
  let miss := s.car.sbuf.filter (fun (e : Nat × WLba) => decide (s.sideApp e.1 < e.2.app))
  ((miss.map (fun (e : Nat × WLba) => e.2.app)).eraseDups).foldl (fun t a =>
    (sideRuns ((miss.filter (fun (e : Nat × WLba) => e.2.app = a)).map (fun (e : Nat × WLba) => (e.1, e.2.data)))).foldl
      (fun u (r : Nat × List Bytes) => u.sideWrite r.1 a r.2) t) s

/-- PROGRAM_SEQUENCE_CEILING (R428, R471): at BOOT, and when the counter reaches the ceiling, the root record is written 2^32 higher; nothing is
programmed before both copies have verified. -/
def execProgramSequenceCeiling (ok0 ok1 : Bool) (s : State) : Out :=
  .next (
    if !s.mag.st.alive || s.mag.st = .drain || s.mag.st = .safe || s.nor.dead || s.seqRoom then s
    else
      let ceil := (s.car.pceil.getD s.car.pseq) + 2 ^ 32
      let t := s.putCopies 2 (s.rootBytes ceil) ok0 ok1
      if ok0 && ok1 then ((t.modCar (fun c => { c with pceil := some ceil })).sideFlush).goOn
      else if ok0 || ok1 then t
      else (t.noteFault 8).raise 0x7F3 2 [])

/-! ### Garbage collection, folding, scrub (R294, R304, R311, R447) -/

/-- Die blocks in the free pool. -/
def State.freePool (s : State) : Nat :=
  (s.dieList.map (fun d => (List.range s.car.blocksPerDie).countP (fun b => (s.block d b).use = 0))).foldl (· + ·) 0

/-- The free pool is below 4 die blocks per die (R304). -/
def State.poolLow (s : State) : Bool := decide (s.freePool < 4 * s.dieCount)

/-- Units of a die block that are mapped. -/
def State.mappedIn (s : State) (d b : Nat) : List (Nat × CUnit) :=
  s.car.units.filter (fun (e : Nat × CUnit) => e.2.die = d && e.2.block = b && e.2.mapped)

/-- The victim: a block queued for scrub first; else the full block with the fewest mapped units, then the lowest erase count, die and number
(R304). Blocks with a unit still being programmed are left alone. -/
def State.victim (s : State) : Option (Nat × Bool) :=
  let settled (k : Nat) : Bool := s.car.units.all (fun (e : Nat × CUnit) => blockKey e.2.die e.2.block != k || e.2.persisted)
  match s.car.scrub.find? settled with
  | some k => some (k, true)
  | none =>
    (s.car.blocks.foldl (fun (a : Option (Nat × Nat × Nat)) (e : Nat × Block) =>
      if e.2.use != 2 || !settled e.1 then a
      else
        let n := (s.mappedIn (e.1 / 65536) (e.1 % 65536)).length
        match a with
        | some (_, m, er) => if n < m || (n = m && e.2.erases < er) then some (e.1, n, e.2.erases) else a
        | none => some (e.1, n, e.2.erases)) none).map (fun x => (x.1, false))

/-- An extent's map with one unit replaced by another. -/
def Ext.swap (x : Ext) (old new : Nat) : Ext :=
  match x with
  | .large u => .large (if u = old then new else u)
  | .fine m t => .fine (m.map (fun (e : Nat × Fine) => (e.1, if e.2.unit = some old then { e.2 with unit := some new } else e.2))) t

/-- Copy a unit to a newly allocated one and journal the move, which takes effect once the copy has persisted (R304). Sectors that could not be
read stay unreadable. None when there is no room. -/
def State.moveUnit (s : State) (id : Nat) (u : CUnit) : Option State :=
  (s.newUnit u.kind u.laddr u.data u.lbas).map (fun (n, t) =>
    let e := if u.kind = .large then u.laddr else u.laddr / 64
    let exts : NMap Ext := if u.kind.sidecar then (match NMap.find? t.car.exts e with | some x => NMap.put t.car.exts e (x.swap id n) | none => t.car.exts) else t.car.exts
    let v := t.modCar (fun c =>
      { c with
        exts
        units := NMap.put (NMap.modify c.units n (fun y => { y with bad := u.bad })) id { u with mapped := false } })
    let ext : List JRec := if u.kind.sidecar then (match NMap.find? exts e with | some x => [.extent e (some x)] | none => []) else []
    v.mapCommit ([.unit n] ++ ext ++ [.release id]) [n])

/-- Move every mapped unit of a block; a sidecar unit that finds no room makes the namespace read-only (R317). -/
def State.emptyBlock (s : State) (key off : Nat) : State :=
  (s.mappedIn (key / 65536) (key % 65536)).foldl (fun t (e : Nat × CUnit) =>
    match NMap.find? t.car.units e.1 with
    | none => t
    | some u =>
      match t.moveUnit e.1 u with
      | some v => v.carLog off 1
      | none => if u.kind.sidecar && t.seqReady then t.sideWorn else t) s

/-- GC_RUN (R304, R317, R447): an open victim takes no further page; for the free pool in every state from BOOT to SERVICE, for scrub and in the background from READY to SERVICE. -/
def execGcRun (s : State) : Out :=
  .next (
    let ok := s.mag.st.working || (s.poolLow && (s.mag.st = .boot || s.mag.st = .safe))
    if !ok || !s.seqReady then s
    else
      match s.victim with
      | none => s
      | some (k, scrub) =>
        let t := (s.modBlock (k / 65536) (k % 65536) (fun b => { b with use := if b.use = 1 then 2 else b.use })).emptyBlock k (if scrub then 0x50 else 0x58)
        (t.modCar (fun c => { c with scrub := c.scrub.filter (fun x => x != k) })).goOn)

/-- FOLD (R294, R317, R447): a fine-mapped extent, untouched for CSL_FOLD_S, with at least 48 fine units mapped, becomes one large unit. One
with an unreadable LBA is left as it is: a large unit has no place for the mark. -/
def execFold (extent : Nat) (s : State) : Out :=
  .next (
    match NMap.find? s.car.exts extent with
    | some (.fine m touch) =>
      let lbas := (List.range 256).map (fun k => s.sideRead (256 * extent + k))
      if !s.mag.st.working || m.countP (fun (e : Nat × Fine) => e.2.unit.isSome) < 48 || s.rtcSec < touch + s.pn pCSL_FOLD_S
          || lbas.contains .unreadable || !s.seqReady then s
      else
        let app := (List.range 256).foldl (fun a k => max a (s.sideApp (256 * extent + k))) 0
        match s.newUnit .large extent (lbas.flatMap (fun r => match r with | .data b => fitBytes 4096 b | _ => zeroBytes 4096)) [256 * extent, 256, app] with
        | some (id, t) => ((t.setExtent extent (some (.large id)) [id]).carLog 0x60 1).goOn
        | none => s.sideWorn.goOn
    | _ => s)

/-- SCRUB (R311, R447): every die block in use whose equivalent age has reached CSL_SCRUB_AGE is queued; 30 days later it is escalated. -/
def execScrub (s : State) : Out :=
  .next (
    if !s.mag.st.working then s
    else
      let limit := s.pn pCSL_SCRUB_AGE * 86400
      (s.car.blocks.filter (fun (e : Nat × Block) => (e.2.use = 1 || e.2.use = 2) && decide (limit ≤ s.blockAge e.2))).foldl
        (fun t (e : Nat × Block) => t.queueScrub e.1 (decide (limit + 30 * 86400 ≤ s.blockAge e.2))) s)

/-! ### Age clock and host memory buffer (R307, R319) -/

/-- AGE_CLOCK_STEP (R307): 16 seconds at the acceleration factor of the magazine temperature; in ISLAND as well. -/
def execAgeClockStep (s : State) : Out :=
  .next (
    if !s.pw.aon then s
    else
      let f := s.car.ageFrac + 16 * ageFactor (s.pn pCSL_EA_MEV) s.ageTemp
      s.modCar (fun c => { c with age := c.age + f / 2 ^ 32, ageFrac := f % 2 ^ 32 }))

/-- HMB_MAP_LOAD_DONE (R319): the commands that waited for the map are served. -/
def execHmbMapLoadDone (s : State) : Out :=
  .next (if s.car.hmb = 1 then ((s.modCar (fun c => { c with hmb := 2 })).runHmb).goOn else s)

end Sys2Proof.Machine
end

