-- ==== Sys2Proof/Machine/Control.lean ====
section
/-! DEFINITION. The control engine's commands: sample instants (R175), the limiter's super-frames (R188), supervisor (R192 to R195), re-arm
(R191), encoders (R181), shuttle codes (R190, R418), links (R500), trace (R196, R197). -/

namespace Sys2Proof.Machine

/-- Slot `m`'s banks take effect at the sample instant of slot `n`: its own, or that of its host; an auxiliary slot without a host has none, and L0's
instant stands for it (R180, R200; log 25). -/
def State.instantOf (s : State) (n m : Nat) : Bool := if m < 6 then m = n else (s.auxHost (m - 6)).getD 0 = n

/-- Parameters whose boundary is the next sample instant of slot `n`: its banks, those of the auxiliary slots it hosts, its reel table and
feed-forward (R200). -/
def State.sampleGroup (s : State) (n : Nat) (pid i : Nat) : Bool :=
  if pid = pCTL_SEC_CNT then s.instantOf n (i / 16)
  else if pid = pCTL_COEF then s.instantOf n (i / 640)
  else if pid = pCTL_EXP then s.instantOf n (i / 128)
  else if pid = pCTL_AFF then i / 16 = n
  else if pid = pCTL_FC_TAB then i / 1024 = n
  else false

/-- Latch region, feedback and set-point of a slot (R175, R186). In find position L4 closes only once the boundary index is fixed (R207). -/
def State.latchSlot (s : State) (n : Nat) : State :=
  let g := s.slotRegion n
  let t := if g = (s.slot n).region then s else s.traceHit 2
  let closing := n = 4 && (s.slot 4).st = .armed && s.rc.speedOk && decide (100000 ≤ s.rc.speed.natAbs)
    && (s.ctl.tsub != .finding || s.ctl.swept)
  let z := s.slot n
  let fb := if z.subst then ((s.estimate n).getD z.est) else s.feedback n
  t.modSlot n (fun y =>
    { y with
      region := g, fb, sp := s.setPoint n, closed := closing
      est := if z.subst then fb else y.est
      loss := if closing && !y.closed then 0 else y.loss
      freeze := if closing && !y.closed then 0 else y.freeze
      resid := if closing && !y.closed then 0 else y.resid })

/-- Feed the observers inserted in slot `n` with the node they name (R180). -/
def State.observers (s : State) (n : Nat) : State :=
  (List.range 2).foldl (fun t k =>
    if t.auxIn k n 3 then
      let x := t.node (16 * n + t.pni pCTL_AUX_NODE k)
      let r := cascade (t.bank (6 + k) 0) (t.slot (6 + k)).sec x
      (t.modSlot (6 + k) (fun z => { z with sec := r.2.1, secOut := r.2.2.1, fb := x, out := r.1 })).bumpPv pCTL_SAT_CNT (6 + k) r.2.2.2
    else t) s

/-- The write clock follows the measured speed, once per L3 period (R16). -/
def State.clockUpdate (s : State) (slot : Nat) : State :=
  if slot = 3 && s.rc.speedOk then s.modCtl (fun c => { c with wclk := 66667 * s.rc.speed.natAbs }) else s

/-- Mean of the radius estimates present in a history, µm, floored; `old` while there is none. Each estimate is itself floored to whole µm
(DESIGN CHOICE, log 37: the manual gives no resolution). -/
def meanRadius (old : Nat) (l : List (Option Nat)) : Nat :=
  let v := l.filterMap id
  if v.isEmpty then old else v.sum / v.length

/-- Radii: each reel's estimate enters the mean of the last 64 super-frames while the measured speed is valid and at least 300 mm/s; a reel that shows
no motion has none then (R182). -/
def State.radiusUpdate (s : State) : State :=
  if s.rc.speedOk && decide (300000 ≤ s.rc.speed.natAbs) then
    let h := ((s.radiusNow 0, s.radiusNow 1) :: s.ctl.radHist).take 64
    s.modCtl (fun c =>
      { c with
        radHist := h, radius := (meanRadius c.radius.1 (h.map Prod.fst), meanRadius c.radius.2 (h.map Prod.snd))
        radiusOk := c.radiusOk || (h.any (fun e => e.1.isSome) && h.any (fun e => e.2.isSome)) })
  else s

/-- One super-frame of TENSIONING: 5 ms after L0 and L1, L2 is armed (R184, R205). -/
def State.tensionStep (s : State) : State :=
  if s.ctl.tsub != .tensioning then s
  else
    let t := s.modCtl (fun c => { c with tensFor := min 255 (c.tensFor + 1) })
    if t.ctl.tensFor = 25 then t.armUnlessHeld 2 else t

/-- One super-frame of FINDING: from 100 mm/s on, L5's set-point sweeps from -40 µm to +40 µm at 4 µm/ms, once (R207). -/
def State.sweepStep (s : State) : State :=
  if s.ctl.tsub != .finding || s.ctl.swept then s
  else
    match s.ctl.sweep with
    | some x => s.modCtl (fun c => if 40000 ≤ x then { c with sweep := none, swept := true } else { c with sweep := some (x + 800) })
    | none => if 100 * 25000000 ≤ s.ctl.vlim.natAbs then s.modCtl (fun c => { c with sweep := some (-40000) }) else s

/-- One super-frame of the L4 boundary target: from 100 mm/s on it steps one wrap per millisecond towards the wrap it is to reach (R210, R211). -/
def State.wrapStep (s : State) : State :=
  let c := s.ctl
  if c.wrapSel = c.wrapGoal || c.vlim.natAbs < 100 * 25000000 then s
  else if c.wrapTick < 4 then s.modCtl (fun k => { k with wrapTick := k.wrapTick + 1 })
  else s.modCtl (fun k => { k with wrapTick := 0, wrapSel := if k.wrapSel < k.wrapGoal then k.wrapSel + 1 else k.wrapSel - 1 })

/-- One super-frame of RELEASING: the currents of L0 and L1 ramp to zero over 100 of them (R215). -/
def State.rampStep (s : State) : State :=
  match s.ctl.rel with
  | none => s
  | some r =>
    let n := r.left - 1
    let cur (x : Int) : Int := x * n / 100
    (((s.modCtl (fun c => { c with rel := some { r with left := n } })).modLink 0 (fun l => { l with cmd := cur r.amps.1 })).modLink 1 (fun l =>
      { l with cmd := cur r.amps.2 }))

/-- One super-frame of the probe: both MDRV links carry their open-loop currents, until the radii are measured (R206). -/
def State.probeStep (s : State) : State :=
  if s.ctl.tsub != .probing then s
  else (s.modLink 0 (fun l => { l with cmd := s.probeAmps 0 })).modLink 1 (fun l => { l with cmd := s.probeAmps 1 })

/-- One super-frame of the engine (R172, R188, R189): the radius group acts (R200), the radii are estimated, the sequence in progress advances, and
the limiter steps. Once v_lim and a_lim are 0 in a reversal, the 20 ms dwell begins. -/
def State.superFrame (s : State) : State :=
  let t := (((((((s.applyPend (fun p i => (groupOf p i).1 = pCTL_RAD_MIN)).radiusUpdate).tensionStep).sweepStep).rampStep).probeStep).limiter).wrapStep
  if t.ctl.reversing && t.ctl.vlim = 0 && t.ctl.alim = 0 && !t.ctl.dwell then t.modCtl (fun c => c.beginDwell true) else t

/-- DWELL_END (R189, R203): the still period is over, and the limiter proceeds to the target current now; the dwell of a reversal is counted. The
transport moves again. -/
def execDwellEnd (s : State) : Out :=
  .next (
    if s.ctl.dwell then
      (s.modCtl (fun c =>
        { c with dwell := false, reversing := false, lastDir := 0, stillFor := 100, tsub := if c.tsub = .dwell then .moving else c.tsub })).bumpPv
          pCTL_REV_CNT 0 (if s.ctl.reversing then 1 else 0)
    else s)

/-- Excitation is present in this period (R192). -/
def State.excited (s : State) (n : Nat) : Bool :=
  let z := s.slot n
  let fast := decide (100 * 25000000 ≤ s.ctl.vlim.natAbs)
  let spread : Int := (z.sps.foldl max z.sp) - (z.sps.foldl min z.sp)
  if n < 2 then decide (s.pni pCTL_EXC_OUT n ≤ z.out.natAbs) || fast
  else if n = 2 then fast || spread != 0
  else if n = 3 then fast
  else if n = 4 then z.closed
  else decide (s.pni pCTL_EXC_OUT n ≤ z.out.natAbs) || decide ((s.pni pCTL_EXC_SP n : Int) * 4096 ≤ spread)

/-- Sample stamp whose standing still is a freeze: the sample time of R144 for L4, the frame sequence for the links. -/
def State.sampleStamp (s : State) (n : Nat) : Nat :=
  if n = 4 then s.rc.lateralTime else match linkOf n with | some k => (s.link k).seq | none => 0

/-- Counts of slot `n` after one feedback period: loss, freeze, residual; a period that breaks a condition sets its count to zero (R193). -/
def State.faultCounts (s : State) (n : Nat) : Nat × Nat × Nat :=
  let z := s.slot n
  let ok := s.sampleValid n
  let v := s.feedback n
  let same := v = z.seen.1 || ((n = 4 || (linkOf n).isSome) && s.sampleStamp n = z.seen.2)
  let resid :=
    match s.estimate n with
    | some e => if ok && decide ((s.pni pCTL_RES_THR n : Int) * 4096 < (v - e).natAbs) then min 255 (z.resid + 1) else 0
    | none => 0
  (if ok then 0 else min 3 (z.loss + 1), if s.excited n && same then min 16 (z.freeze + 1) else 0, resid)

/-- The period of slot `n` is over: its sample is recorded, and link and encoder start a new one (R192). -/
def State.notePeriod (s : State) (n : Nat) : State :=
  let ok := s.sampleValid n
  let c := s.faultCounts n
  let v := s.feedback n
  let est := s.estimate n
  let t := s.modSlot n (fun y =>
    { y with
      valid := ok, hist := (ok :: y.hist).take 16, loss := c.1, freeze := c.2.1, resid := c.2.2, seen := (v, s.sampleStamp n)
      sps := (y.sp :: y.sps).take 16
      base := if n = 4 && ok then (v, (s.link 3).b * 4096) else y.base
      est := if y.subst then y.est else est.getD y.est })
  let u := (match linkOf n with
    | some k => t.modLink k (fun l => { l with fresh := false })
    | none => t)
  if n < 2 then u.modEnc n (fun e => { e with invalid := 0 }) else u

/-- The fault a period of slot `n` declares: 1 loss, 2 freeze, 3 residual; none, and none on a slot that is not armed or already substituted. The tests
of L4 are suspended while it is open (R186, R193). -/
def State.faultDue (s : State) (n : Nat) : Option Nat :=
  let z := s.slot n
  let c := s.faultCounts n
  if z.st != .armed || z.subst || (n = 4 && !z.closed) then none
  else if 3 ≤ c.1 then some 1
  else if 16 ≤ c.2.1 then some 2
  else if s.pni pCTL_RES_N n ≤ c.2.2 && (s.estimate n).isSome then some 3
  else none

/-- The supervisor's tests of one feedback period of slot `n` (R192, R193). -/
def State.supervise (s : State) (n : Nat) : State :=
  match s.faultDue n with
  | some cause => (s.notePeriod n).declare n cause
  | none => s.notePeriod n

/-- SUPERVISOR_FEEDBACK_PERIOD (R175, R192, R193): one feedback period of a slot is judged for loss, freeze and residual. A slot other than L4 has its
period judged at its sample instant, in step 4; the command then only ends that period. -/
def execSupervisorFeedbackPeriod (slot : Nat) (s : State) : Out :=
  .next (
    if 5 < slot then s
    else if (s.slot slot).tested then s.modSlot slot (fun z => { z with tested := false })
    else s.supervise slot)

/-- Steps 3 and 4 at a sample instant: the latch, then the tests on what has been latched, except for L4, whose period is its own. A slot that its tests
put on the estimate runs on it in this very period (R175, R194). -/
def State.latchAndTest (s : State) (n : Nat) : State :=
  let t := s.latchSlot n
  if n = 4 then t
  else
    let u := (t.supervise n).modSlot n (fun z => { z with tested := true })
    if (u.slot n).subst && !(t.slot n).subst then u.modSlot n (fun z => { z with fb := z.est }) else u

/-- The re-arm requests of slot `n` act (R191, R200): a slot in HOLD is armed, or refused with its event. -/
def State.rearmLook (s : State) (n : Nat) : State :=
  if (s.slot n).rearm then ((s.modSlot n (fun z => { z with rearm := false })).rearm n (n = 4)).2 else s

/-- A reel's encoder clock: one more L0 period since its last edge (R181). -/
def State.agePeriod (s : State) (n : Nat) : State := if n < 2 then s.modEnc n (fun e => { e with idle := min 9 (e.idle + 1) }) else s

/-- SLOT_SAMPLE_INSTANT (R16, R175, R178, R186, R194): commits and re-arm requests act, the region is selected, feedback and set-point are latched, the
tests are run, and the output is computed by the cascade, by the hold law, or not at all. L4 below 100 mm/s and L2 with the tape still and
tension off present no new output, nor does a slot while tension is being released (R215). -/
def execSlotSampleInstant (slot : Nat) (s : State) : Out :=
  .next (
    if 5 < slot then s
    else
      let t := ((((s.applyPend (s.sampleGroup slot)).rearmLook slot).agePeriod slot).latchAndTest slot).clockUpdate slot
      match (t.slot slot).st with
      | .off => t
      | .hold => if t.ctl.tsub = .releasing then t else t.holdOut slot
      | .armed => if (slot = 4 && !(t.slot 4).closed) || t.ctl.tsub = .releasing then t else (t.runSlot slot).observers slot)

/-- SUBSTITUTION_END (R194): the substituted slot enters HOLD with its cause. -/
def execSubstitutionEnd (slot : Nat) (s : State) : Out :=
  .next (if (s.slot slot).subst then s.toHold slot (s.slot slot).cause else s)

/-- CTL_REARM[n] written 1: the request waits for the slot's next sample instant (R191, R200). -/
def State.requestRearm (s : State) (n : Nat) : State := s.modSlot n (fun z => { z with rearm := true })

/-- CTL_REARM (R191, R200): Ringmaster's write of 1, or a host's. -/
def execCtlRearm (w : Option Hdr) (slot : Nat) (s : State) : Out :=
  .next (s.regWrite w pCTL_REARM slot 1 (fun t => t.requestRearm slot)).goOn

/-- An event of an input was raised within the second before now (R199). -/
def State.withinSecond (s : State) (at_ : Option Nat) : Bool := at_.elim false (fun t => decide (s.pw.rtc < t + 32768))

/-- An invalid encoder sample: its cause is kept for the feedback period, counted, and reported at most once a second (R181, R199). -/
def State.encoderBad (s : State) (reel cause : Nat) : State :=
  let t := (s.modEnc reel (fun e => { e with invalid := cause, index := none })).bumpPv pCTL_LINK_ERR (4 + reel) 1
  if s.withinSecond (s.encoder reel).evtAt then t
  else (t.modEnc reel (fun e => { e with evtAt := some s.pw.rtc })).raise (0x474 + reel) cause []

/-- ENCODER_EDGE (R181, R185): the new levels of A, B and I, `cycles` engine cycles after the last edge. A change of one of A and B counts
by the quadrature order in which A leads B in forward motion (log 38); both at once, an index off its place or edges closer than 100
cycles are invalid. -/
def execEncoderEdge (reel : Nat) (a b index : Bool) (cycles : Nat) (s : State) : Out :=
  .next (
    if 1 < reel then s
    else
      let e := s.encoder reel
      let cyc := e.cycle + cycles
      let both := a != e.a && b != e.b
      let step : Int := if a != e.a && b = e.b then (if a != b then 1 else -1) else if b != e.b && a = e.a then (if a = b then 1 else -1) else 0
      let count := e.count + step
      let edges := if step = 0 then e.edges else ((cyc, count) :: e.edges).filter (fun x => decide (cyc ≤ x.1 + 160000))
      let rise := index && !e.i
      let cpr : Int := s.pn pCTL_ENC_CPR
      let bad := if both then 1 else if rise && (e.lastIndex.elim false (fun c => (count - c) % cpr != 0)) then 2
        else if step != 0 && cycles < 100 then 3 else 0
      let t := s.modEnc reel (fun y =>
        { y with a, b, i := index, count, cycle := cyc, edges, idle := 0
                 index := if rise then some count else y.index, lastIndex := if rise then some count else y.lastIndex })
      let t1 := if step = 0 then t else t.noteMotion
      if bad = 0 then t1 else t1.encoderBad reel bad)

/-- Median of three codes. -/
def median3 (a b c : Nat) : Nat := max (min a b) (min (max a b) c)

/-- SHUTTLE_CODE_SAMPLE (R190, R200, R418): the mapping and its parameters act with the code; the last 8 raw samples are tested first; 8 of 0 or of 4,095 are a fault, which gives the centre code
and EVT 0x795; otherwise the median of the last three is the code. -/
def execShuttleCodeSample (raw : Nat) (s : State) : Out :=
  .next (
    let h := (raw :: s.ctl.shRaw).take 8
    let bad := h.length = 8 && (h.all (fun x => x = 0) || h.all (fun x => x = 4095))
    let code := if bad then s.pn pCTL_SHTL_CTR else median3 (h.getD 0 raw) (h.getD 1 raw) (h.getD 2 raw)
    let t0 := s.modCtl (fun c => { c with shRaw := h, shFault := bad, shCode := code })
    let t := t0.modCtl (fun c => { c with shTarget := t0.shuttleTarget })
    if bad && !s.ctl.shFault then t.raise 0x795 1 [] else t)

/-- LINK_SAMPLE_FRAME (R500): an enabled link sends its sample frame with the next sequence. -/
def execLinkSampleFrame (link : Nat) (s : State) : Out :=
  .next (if (s.link link).on then s.modLink link (fun l => { l with seq := (l.seq + 1) % 16, asked := true }) else s)

/-- A two's complement field of 24 bits. -/
def s24 (x : Nat) : Int := if x % 2 ^ 24 < 2 ^ 23 then (x % 2 ^ 24 : Nat) else ((x % 2 ^ 24 : Nat) : Int) - 2 ^ 24

/-- A frame failure on a link: counted always, reported at most once a second (R199). -/
def State.linkBad (s : State) (k cause : Nat) : State :=
  let t := s.bumpPv pCTL_LINK_ERR k 1
  if s.withinSecond (s.link k).evtAt then t
  else (t.modLink k (fun l => { l with evtAt := some s.pw.rtc })).raise (0x470 + k) cause []

/-- Tension is on: the loops could hold a reel, and both may be left without one (R201, R213). -/
def TSub.tense : TSub → Bool
  | .braked | .releasing | .dynamic => false
  | _ => true

/-- An emergency stop: both stages brake by short circuit, L0 to L3 are OFF unless in HOLD, and position is no longer held (R201, R213, R214). -/
def State.emergency (s : State) (cause : Nat) : State :=
  if !s.ctl.tsub.tense then s
  else
    let t := [0, 1, 2, 3].foldl (fun (u : State) n => if (u.slot n).st = .hold then u else u.slotOff n) s.endCopy
    ((t.modCtl (fun c =>
      { c with tsub := .dynamic, scb := true, held := none, target := 0, vlim := 0, alim := 0, after := some .emergency, shuttle := false, aim := none
               turn := false, dwell := false, reversing := false, sweep := none, emAt := some s.pw.rtc })).modPw
        (fun p => { p with retPos := none })).raise 0x47B cause []

/-- The tape speed in the sense of R213, µm/s: the measured speed while valid, else the mean reel surface speed. -/
def State.tapeSpeed (s : State) : Nat := (if s.rc.speedOk then s.rc.speed else s.meanSurface).natAbs

/-- In an emergency stop BRK_N is asserted once the tape is slower than 50 mm/s, or 2 s after the stop began (R213). -/
def State.brakeLook (s : State) : State :=
  if s.ctl.tsub = .dynamic && !s.ctl.brake && (decide (s.tapeSpeed < 50000) || s.ctl.emAt.elim false (fun t => decide (t + 65536 ≤ s.pw.rtc))) then
    s.modCtl (fun c => { c with brake := true })
  else s

/-- A fault signal of a link: a loss of the slot that reads it, at once (R193); both MDRV fault lines make an emergency stop (R213). -/
def State.linkFault (s : State) (k : Nat) : State :=
  let t := (s.modLink k (fun l => { l with fault := true })).declare (slotOfLink k) 4
  if (t.link 0).fault && (t.link 1).fault then t.emergency 1 else t

/-- LINK_STATUS_FRAME (R499, R500): the 88 bits after the sync byte, most significant first. A wrong CRC or frame type, or a sequence other
than that of the sample frame, is a failure; a frame that ends after the sample instant is no sample of the period; the fault flag is a
loss at once. -/
def execLinkStatusFrame (link frame : Nat) (late : Bool) (s : State) : Out :=
  .next (
    let l := s.link link
    if !l.on || 3 < link then s
    else
      let crcOk := crc8Bits (msbBits 80 (frame / 256)) = frame % 256
      let ty := bitsOf frame 87 84
      let want := if link < 2 then 0x8 else if link = 2 then 0x9 else 0xA
      if !crcOk || ty != want then s.linkBad link 1
      else if bitsOf frame 83 80 != l.seq || !l.asked then s.linkBad link 2
      else
        let t := s.modLink link (fun y =>
          { y with
            asked := false, fresh := !late
            a := if late then y.a else if link = 2 then (bitsOf frame 79 56 : Nat) else s24 (bitsOf frame 79 56)
            b := if late then y.b else if link = 3 then s24 (bitsOf frame 55 32) else (bitsOf frame 55 32 : Nat)
            flags := bitsOf frame 31 24 })
        if Nat.testBit frame 25 then t.linkFault link else t.modLink link (fun y => { y with fault := false }))

/-- FAULT_LINE_ASSERTED (R193, R213). -/
def execFaultLineAsserted (link : Nat) (s : State) : Out := .next (if (s.link link).on then s.linkFault link else s)

/-- EMERGENCY_STOP (R213, R214): cause 1 both MDRV fault lines, 2 both reel loops in HOLD without an estimate, 3 the bank below the braking
minimum in DRAIN with the tape not yet still; only while tension is on and that cause is there. -/
def execEmergencyStop (cause : Nat) (s : State) : Out :=
  .next (
    let held (n : Nat) : Bool := (s.slot n).st = .hold && (s.estimate n).isNone
    let due := if cause = 1 then (s.link 0).fault && (s.link 1).fault else if cause = 2 then held 0 && held 1
      else cause = 3 && s.mag.st = .drain && s.moves && decide (s.pw.bankMv < s.pn pPWR_BANK_MIN)
    if due then s.emergency cause else s)

/-- EMERGENCY_BRAKE_APPLY (R213): BRK_N is asserted when its condition holds. -/
def execEmergencyBrakeApply (s : State) : Out := .next s.brakeLook

/-! ### Trace (R196, R197) -/

/-- TRACE_SAMPLE (R196, R197): while recording, and until the samples after the trigger have been taken, the eight nodes are sampled and the triggers are tested; the first enabled one starts the
count of further samples, after which the buffer freezes. -/
def execTraceSample (s : State) : Out :=
  .next (
    let tr := s.ctl.trace
    if tr.st != 1 || tr.left = some 0 then s.modCtl (fun c => { c with trace := { c.trace with pending := 0 } })
    else
      let v0 := traceValue (s.node (tr.sel.getD 0 0))
      let prev : Int := let w : Nat := (tr.samples.headD []).getD 0 0 % 2 ^ 32; if w < 2 ^ 31 then w else (w : Int) - 2 ^ 32
      let cross := !tr.samples.isEmpty && decide (prev < tr.level * 16) && decide (tr.level * 16 ≤ v0)
      let srcs := (tr.pending ||| (if cross then 16 else 0)) &&& tr.mask
      let hit := tr.left.isNone && srcs != 0
      let first := (List.range 5).find? (fun b => Nat.testBit srcs b)
      let ws := tr.sel.map (fun code => s.traceWord code tr.index hit)
      s.modCtl (fun c =>
        { c with trace :=
          { c.trace with
            samples := (ws :: tr.samples).take 32768, index := tr.index + 1, pending := 0
            left := if hit then some (32768 - tr.pre) else tr.left.map (· - 1)
            trig := if hit then first.getD 0 else tr.trig, trigAt := if hit then tr.index else tr.trigAt } }))

/-- TRACE_FREEZE (R197): the post-trigger samples have been taken, and the buffer freezes with EVT 0x469. -/
def execTraceFreeze (s : State) : Out :=
  .next (
    let tr := s.ctl.trace
    if tr.st = 1 && tr.left = some 0 then
      ((s.modCtl (fun c => { c with trace := { c.trace with st := 2, freezes := tr.freezes + 1, time := s.rtcSec } })).raise 0x469 1 []).asyncEvent 7 3 0xC3
    else s)

/-- CTL_TRC_ARM written 1 (R197). -/
def execCtlTrcArm (w : Option Hdr) (s : State) : Out := .next (s.regWrite w pCTL_TRC_ARM 0 1 State.traceArm).goOn

/-- CTL_TRC_ARM written 2: a software trigger (R197). -/
def execCtlTrcSoftwareTrigger (w : Option Hdr) (s : State) : Out := .next (s.regWrite w pCTL_TRC_ARM 0 2 (fun t => t.traceHit 3)).goOn

end Sys2Proof.Machine
end

