-- ==== Sys2Proof/Machine/ComputeOps.lean ====
section
/-! DEFINITION. Shared operations of the compute cluster: the address map of an instance (R365, R366), its place in the compute region
(R364, R381), stopping an invocation (R377) and freezing an instance (R376). -/

namespace Sys2Proof.Machine

/-! ### The compute region (R365) -/

/-- Buffer address at which the compute region starts (R401's worked example; log 44). -/
abbrev compBase : Nat := 0x200000000

/-- Buffer address behind the compute region. -/
def State.compEnd (s : State) : Nat := compBase + s.pn pCCL_MEM_GIB * 2 ^ 30

/-- Runs of the compute region in use: (address, bytes). -/
def State.compUsed (s : State) : List (Nat × Nat) :=
  s.comp.kerns.map (fun (e : Nat × Kern) => (e.2.base, e.2.bytes)) ++ s.comp.queue.map (fun v => (v.base, v.bytes))
    ++ s.comp.cores.filterMap (fun (e : Nat × Core) => e.2.run.map (fun v => (v.base, v.bytes)))

/-- The lowest place for `n` bytes in the compute region, none when it cannot hold them (log 44). -/
def State.compAlloc (s : State) (n : Nat) : Option Nat :=
  let used := s.compUsed
  let fits (a : Nat) : Bool := decide (a + n ≤ s.compEnd) && used.all (fun u => decide (a + n ≤ u.1) || decide (u.1 + u.2 ≤ a))
  (compBase :: used.map (fun u => u.1 + u.2)).foldl (fun (b : Option Nat) a =>
    if fits a then (match b with | some x => some (min x a) | none => some a) else b) none

/-! ### Segments and windows (R362, R365, R366) -/

/-- Offset and length of a segment by number: 0 text, 1 rodata, 2 data (R362). -/
def imageSeg (img : Bytes) (i : Nat) : Nat × Nat := (leAt img (0x20 + 8 * i) 4, leAt img (0x24 + 8 * i) 4)

/-- Image offset behind the data segment. -/
def imageDataEnd (img : Bytes) : Nat := (imageSeg img 2).1 + (imageSeg img 2).2

/-- Offset of the bss from virtual address 0x1_0000: page-aligned behind the data (R365). -/
def imageBss (img : Bytes) : Nat := pageRound (imageDataEnd img)

/-- Bytes of the image region: segments, bss in whole pages, stack. -/
def imageRegion (img : Bytes) : Nat := imageBss img + pageRound (leAt img 0x38 4) + leAt img 0x3C 4

/-- Rights at an offset of the image region: bit 0 read, bit 1 write, bit 2 execute (R365). -/
def imageRights (img : Bytes) (o : Nat) : Nat :=
  let inSeg (i : Nat) : Bool := decide ((imageSeg img i).1 ≤ o) && decide (o < (imageSeg img i).1 + (imageSeg img i).2)
  if o < 256 then 1
  else if inSeg 0 then 5
  else if inSeg 1 then 1
  else if inSeg 2 then 3
  else if imageBss img ≤ o && o < imageRegion img then 3
  else 0

/-- A window that can be loaded from or stored to: length, rights and buffer address (R366). `v` is the running invocation. -/
def Kern.window (k : Kern) (v : Option Invoc) (w : Nat) : Option (Nat × Nat × Nat) :=
  let d := k.wins.getD w ⟨0, 0, 0⟩
  if d.kind = 1 then
    let before := ((k.wins.take w).filter (fun x => x.kind = 1)).foldl (fun n x => n + 4096 * x.pages) 0
    some (4096 * d.pages, d.rights, k.base + k.region + before)
  else if d.kind = 2 then v.map (fun i => (i.block.length, 1, i.base))
  else if d.kind = 3 then v.map (fun i => (i.block.length, 3, i.base + pageRound i.block.length))
  else none

/-- Virtual address of window `w` (R365). -/
def winAddr (w : Nat) : Nat := (w + 1) * 2 ^ 40

/-- The buffer address of `n` bytes that lie wholly in one window with the rights `need` (R366, R376). -/
def Kern.inWindow (k : Kern) (v : Option Invoc) (va n need : Nat) : Option Nat :=
  if va < 2 ^ 40 || 9 * 2 ^ 40 ≤ va then none
  else
    match k.window v (va / 2 ^ 40 - 1) with
    | some (len, r, base) => if va % 2 ^ 40 + n ≤ len && (r &&& need) = need then some (base + va % 2 ^ 40) else none
    | none => none

/-- Rights at a virtual address (R365, R366). -/
def Kern.rights (k : Kern) (v : Option Invoc) (va : Nat) : Nat :=
  if va < 0x10000 then 0
  else if va < 2 ^ 40 then imageRights k.image (va - 0x10000)
  else
    match (if va < 9 * 2 ^ 40 then k.window v (va / 2 ^ 40 - 1) else none) with
    | some (len, r, _) => if va % 2 ^ 40 < len then r else 0
    | none => 0

/-- The window of a kind, the lowest-numbered. -/
def Kern.winOf (k : Kern) (kind : Nat) : Option Nat := (List.range 8).find? (fun w => (k.wins.getD w ⟨0, 0, 0⟩).kind = kind)

/-- The instance that owns a buffer address: its region, its scratch windows or the windows of its invocations (R399). -/
def State.ownerOf (s : State) (a : Nat) : Option Nat :=
  let inv (v : Invoc) : Bool := decide (v.base ≤ a) && decide (a < v.base + v.bytes)
  match (s.comp.kerns.filter (fun (e : Nat × Kern) => decide (e.2.base ≤ a) && decide (a < e.2.base + e.2.bytes))).head? with
  | some e => some e.1
  | none => ((s.comp.queue ++ s.comp.cores.filterMap (fun (e : Nat × Core) => e.2.run)).find? inv).map (fun v => v.inst)

/-! ### Cores -/

/-- Core `c`. -/
def State.core (s : State) (c : Nat) : Core := NMap.get Core.zero s.comp.cores c

/-- Change core `c`. -/
def State.modCore (s : State) (c : Nat) (f : Core → Core) : State := s.modComp (fun p => { p with cores := NMap.upd Core.zero p.cores c f })

/-- The invocation a core runs and its instance. -/
def State.running (s : State) (c : Nat) : Option (Invoc × Kern) :=
  (s.core c).run.bind (fun v => (NMap.find? s.comp.kerns v.inst).map (fun k => (v, k)))

/-- The invocation a core executes now with its instance: none while the critical temperature pauses the cores (R508). -/
def State.executing (s : State) (c : Nat) : Option (Invoc × Kern) := if s.pw.thermal = 2 then none else s.running c

/-- A core's invocation is over: its DMA context and its waiting end; `hold` is the instance that keeps it frozen. -/
def Core.stop (c : Core) (hold : Option Nat) : Core := { c with run := none, dma := [], exiting := none, wfi := false, frozen := hold }

/-- End an invocation without freezing: the core is returned, the instance stays loaded as left (R377). -/
def State.endInvocation (s : State) (c : Nat) (st : Status) (dw0 dw1 : Nat) : State :=
  match (s.core c).run with
  | some v => (s.complete v.seq st dw0 dw1 []).modCore c (fun x => x.stop none)
  | none => s

/-- Steps 1 to 5 of R376: the instance is frozen, its running invocation and the queued ones complete with Kernel Instance Frozen. -/
def State.freezeInst (s : State) (i addr : Nat) : State :=
  match NMap.find? s.comp.kerns i with
  | none => s
  | some k =>
    if k.frozen then s
    else
      let t := (s.modComp (fun p => { p with kerns := NMap.put p.kerns i { k with frozen := true } })).bumpPv pCCL_FREEZES 0 1
      let u :=
        match t.runCore i with
        | some c =>
          let q := ((t.core c).run.map (fun (v : Invoc) => v.seq)).getD 0
          (t.complete q stKernelFrozen (addr % 2 ^ 32) (addr / 2 ^ 32 % 2 ^ 32) []).modCore c (fun x => x.stop (some i))
        | none => t
      let mine := u.comp.queue.filter (fun (v : Invoc) => v.inst = i)
      (u.modComp (fun p => { p with queue := p.queue.filter (fun (v : Invoc) => v.inst != i) })).doneAll (mine.map (fun (v : Invoc) => v.seq)) stKernelFrozen

/-- A violation, with its event: the record gives the instance and the faulting address (R376, R380). -/
def State.freeze (s : State) (i addr cause : Nat) : State :=
  match NMap.find? s.comp.kerns i with
  | none => s
  | some k =>
    if k.frozen then s
    else
      let c := s.runCore i
      let t := (s.freezeInst i addr).noteFault 0x0E
      match c with
      | some n => t.raise (0x700 + n) cause (leBytes 1 i ++ leBytes 8 addr)
      | none => t

end Sys2Proof.Machine
end

