-- ==== Sys2Proof/Machine/CacheOps.lean ====
section
/-! DEFINITION. The cluster cache: addresses (R382), least-recently-used order and the choice of a way (R385, R386), hits, recalls, misses and
prefetch (R388 to R392), errors (R399), cleans and range operations (R393 to R398), and the accesses that the device itself makes as
requesters 16 and 17 (R383). -/

namespace Sys2Proof.Machine

/-! ### Addresses (R382) -/

/-- Bank of a line; a line is a buffer address divided by 64. -/
def lineBank (l : Nat) : Nat := l % 8

/-- Key of the line's set: 1,024 times the bank, plus the set. -/
def lineSet (l : Nat) : Nat := 1024 * (l % 8) + l / 8 % 1024

/-- Tag of a line. -/
def lineTag (l : Nat) : Nat := l / 8192

/-- The line of a set key and a tag. -/
def lineAt (key tag : Nat) : Nat := 8192 * tag + 8 * (key % 1024) + key / 1024

/-- 64 bytes of zeros. -/
def zeroLine : Bytes := zeroBytes 64

/-- A set with no valid line. -/
def CSet.zero : CSet := { lines := [], order := 0 }

/-! ### Order and choice (R385, R386) -/

/-- Bit of the pair (i, j), i below j: 1 when way i is more recent than way j. -/
def orderBit (i j : Nat) : Nat := i * (31 - i) / 2 + (j - i - 1)

/-- Set or clear one bit. -/
def putBit (n k : Nat) (v : Bool) : Nat := if Nat.testBit n k = v then n else if v then n + 2 ^ k else n - 2 ^ k

/-- Make way `w` the most recent one (`top`), or the least recent one. -/
def orderMove (o w : Nat) (top : Bool) : Nat :=
  (List.range 16).foldl (fun o u => if u < w then putBit o (orderBit u w) (!top) else if w < u then putBit o (orderBit w u) top else o) o

/-- Way `v` is more recent than way `u`. -/
def newerWay (o v u : Nat) : Bool := if v < u then Nat.testBit o (orderBit v u) else !Nat.testBit o (orderBit u v)

/-- The way an allocation takes among the allowed ones: the lowest without a valid line, else the least recent. -/
def CSet.choose (c : CSet) (allowed : List Nat) : Option Nat :=
  match allowed.find? (fun w => (NMap.find? c.lines w).isNone) with
  | some w => some w
  | none => allowed.find? (fun v => allowed.all (fun u => u = v || newerWay c.order u v))

/-- Ways a requester may allocate into: effective, and in its mask (R386). -/
def State.allowedWays (s : State) (q : Nat) : List Nat :=
  let m := s.pni pCCA_WMASK q
  (List.range 16).filter (fun w => Nat.testBit s.cache.ways w && Nat.testBit m w)

/-! ### Lines -/

/-- The set of a line. -/
def State.cset (s : State) (l : Nat) : CSet := NMap.get CSet.zero s.cache.sets (lineSet l)

/-- Change the set of a line. -/
def State.modSet (s : State) (l : Nat) (f : CSet → CSet) : State :=
  s.modCache (fun c => { c with sets := NMap.upd CSet.zero c.sets (lineSet l) f })

/-- Victim cache of a bank, oldest first. -/
def State.victims (s : State) (b : Nat) : List Victim := NMap.get [] s.cache.vict b

/-- Put the victim cache of a bank. -/
def State.setVictims (s : State) (b : Nat) (v : List Victim) : State := s.modCache (fun c => { c with vict := NMap.set [] c.vict b v })

/-- The line as the buffer holds it. -/
def State.bufLine (s : State) (l : Nat) : Bytes := NMap.get zeroLine s.cache.mem l

/-- Write a line to the buffer. -/
def State.putLine (s : State) (l : Nat) (b : Bytes) : State := s.modCache (fun c => { c with mem := NMap.set zeroLine c.mem l b })

/-- The line a victim-cache entry holds. -/
def Victim.lineNo (v : Victim) : Nat := lineAt v.set v.line.tag

/-- An evicted line enters the victim cache; from a full one the oldest leaves, written back when dirty (R391). -/
def State.evict (s : State) (b : Nat) (v : Victim) : State :=
  let vs := s.victims b ++ [v]
  if vs.length ≤ 4 then s.setVictims b vs
  else
    let t := s.setVictims b (vs.drop 1)
    match vs.head? with
    | some o => if o.line.dirty then t.putLine o.lineNo o.line.data else t
    | none => t

/-- Where a line is: in a way, or at a place of the victim cache (R384). -/
inductive Where where
  | way (w : Nat)
  | victim (i : Nat)
  | absent
  deriving DecidableEq, Repr

/-- Look a line up. -/
def State.lookup (s : State) (l : Nat) : Where :=
  match (List.filter (fun (e : Nat × CLine) => e.2.tag = lineTag l) (s.cset l).lines).head? with
  | some e => .way e.1
  | none =>
    match ((s.victims (lineBank l)).zipIdx.filter (fun x => x.1.set = lineSet l && x.1.line.tag = lineTag l)).head? with
    | some x => .victim x.2
    | none => .absent

/-- A line with bytes written into it at an offset. -/
def lineWrite (d : Bytes) (off : Nat) (b : Bytes) : Bytes := overlay d off (b.take (64 - off))

/-- Note what a read returns. -/
def State.cacheOut (s : State) (b : Bytes) : State := s.modCache (fun c => { c with out := b })

/-- Serve a request on a line: its content afterwards, and the state with what a read returns. -/
def State.useLine (s : State) (r : CReq) (x : CLine) : CLine × State :=
  if r.wr then ({ x with data := lineWrite x.data (r.addr % 64) r.data, dirty := true }, s)
  else (x, s.cacheOut (x.data.drop (r.addr % 64)))

/-- Put a line into a way and move the way in the order; the line displaced is returned. -/
def State.install (s : State) (l w : Nat) (x : CLine) (top : Bool) : Option Victim × State :=
  let old := NMap.find? (s.cset l).lines w
  (old.map (fun o => { set := lineSet l, way := w, line := o }),
    s.modSet l (fun c => { lines := NMap.put c.lines w x, order := orderMove c.order w top }))

/-- Allocate a line for a requester: into the way chosen, the displaced line to the victim cache; none when it has no allowed way. -/
def State.allocate (s : State) (q l : Nat) (x : CLine) (top : Bool) : Option State :=
  ((s.cset l).choose (s.allowedWays q)).map (fun w =>
    let p := s.install l w x top
    match p.1 with
    | some v => p.2.evict (lineBank l) v
    | none => p.2)

/-! ### Errors (R399, R400) -/

/-- Line number of a request. -/
def CReq.line (r : CReq) : Nat := r.addr / 64

/-- Data of an error event: set, way and, for a dirty line, the frozen instance. -/
def cacheEvt (set way inst : Nat) : Bytes := leBytes 2 (set % 1024) ++ leBytes 1 way ++ leBytes 2 inst

/-- Count a corrected error of a way; its event is raised once per way and second (R400, R402). -/
def State.cacheCe (s : State) (b set w : Nat) : State :=
  let t := if s.cache.ceAt = s.rtcSec then s else s.modCache (fun c => { c with ceSec := [], ceAt := s.rtcSec })
  let u := (t.modCache (fun c => { c with ceSec := NMap.bump c.ceSec w 1 })).bumpPv pCCA_CE_CNT w 1
  if NMap.get 0 t.cache.ceSec w = 0 then u.raise (0x740 + b) 1 (cacheEvt set w 0) else u

/-- Take an entry away without writing it back. -/
def State.dropEntry (s : State) (l : Nat) (at_ : Where) : State :=
  match at_ with
  | .way w => s.modSet l (fun c => { c with lines := NMap.del c.lines w })
  | .victim i => s.setVictims (lineBank l) ((s.victims (lineBank l)).eraseIdx i)
  | .absent => s

/-- The entry that holds a line, with the way it counts for. -/
def State.entry (s : State) (l : Nat) : Option (Nat × CLine) :=
  match s.lookup l with
  | .way w => (NMap.find? (s.cset l).lines w).map (fun x => (w, x))
  | .victim i => ((s.victims (lineBank l))[i]?).map (fun v => (v.way, v.line))
  | .absent => none

/-- The error that a request meets in the entry of its line, if there is one (R399). -/
def State.cacheError (s : State) (r : CReq) : State :=
  let l := r.line
  let b := lineBank l
  match s.entry l with
  | none => s
  | some (w, x) =>
    if r.err = 1 then s.cacheCe b (lineSet l) w
    else if r.err = 2 && !x.dirty then (((s.noteFault 0x0D).dropEntry l (s.lookup l)).bumpPv pCCA_UE_CNT w 1).raise (0x740 + b) 2 (cacheEvt (lineSet l) w 0)
    else if r.err = 2 then
      let o := s.ownerOf (64 * l)
      let t := (((s.noteFault 0x0D).dropEntry l (s.lookup l)).bumpPv pCCA_UE_CNT w 1).raise (0x740 + b) 3 (cacheEvt (lineSet l) w (o.getD 0xFFFF))
      match o with
      | some i => t.freezeInst i (64 * l)
      | none => t
    else if r.err = 3 then
      let t := (((s.noteFault 0x0D).dropEntry l (s.lookup l)).bumpPv pCCA_UE_CNT w 1).raise (0x740 + b) 4 (cacheEvt (lineSet l) w 0)
      (NMap.keys t.comp.kerns).foldl (fun u i => u.freezeInst i 0) t
    else s

/-! ### Requests (R388 to R392) -/

/-- The miss slot of a bank. -/
def State.missOf (s : State) (b : Nat) : Option Miss := NMap.find? s.cache.miss b

/-- A line of the compute region. -/
def State.inRegion (s : State) (l : Nat) : Bool := decide (compBase ≤ 64 * l) && decide (64 * l < s.compEnd)

/-- A prefetch of the line behind `l` for a requester, when every condition holds (R390). -/
def State.prefetch (s : State) (q l : Nat) : State :=
  let n := l + 1
  let b := lineBank n
  if s.pni pCCA_PF_EN q = 1 && !(s.allowedWays q).isEmpty && n % 64 != 0 && s.inRegion n && s.lookup n = .absent && (s.missOf b).isNone then
    (s.modCache (fun c => { c with miss := NMap.put c.miss b { line := n, q, pf := true, wait := [] } })).bumpPv pCCA_PF_CNT b 1
  else s

/-- Serve a request whose line is present: a hit, or a recall (R385, R392). -/
def State.serveHit (s : State) (r : CReq) : Option State :=
  let l := r.line
  match s.lookup l with
  | .way w =>
    (NMap.find? (s.cset l).lines w).map (fun x =>
      let p := s.useLine r x
      (p.2.install l w p.1 true).2.bumpPv pCCA_HITS r.q 1)
  | .victim i =>
    ((s.victims (lineBank l))[i]?).map (fun v =>
      let p := (s.bumpPv pCCA_HITS r.q 1).bumpPv pCCA_RECALLS (lineBank l) 1 |>.useLine r v.line
      match (s.cset l).choose (s.allowedWays r.q) with
      | none => p.2.setVictims (lineBank l) ((s.victims (lineBank l)).set i { v with line := p.1 })
      | some w =>
        let n := p.2.install l w p.1 true
        n.2.setVictims (lineBank l) (match n.1 with
          | some o => (s.victims (lineBank l)).set i o
          | none => (s.victims (lineBank l)).eraseIdx i))
  | .absent => none

/-- A miss with the miss slot free: not allocating, a whole line written, or a fill begun with its prefetch (R386, R388, R390). -/
def State.startMiss (s : State) (r : CReq) : State :=
  let l := r.line
  let t := s.bumpPv pCCA_MISSES r.q 1
  if (t.allowedWays r.q).isEmpty then
    if r.wr then t.putLine l (lineWrite (t.bufLine l) (r.addr % 64) r.data) else t.cacheOut ((t.bufLine l).drop (r.addr % 64))
  else if r.wr && 64 ≤ r.data.length && r.addr % 64 = 0 then
    (t.allocate r.q l { tag := lineTag l, dirty := true, data := r.data.take 64 } true).getD t
  else
    let u := t.modCache (fun c =>
      { c with miss := NMap.put c.miss (lineBank l) { line := l, q := r.q, pf := false, wait := [(r.q, r.wr, r.addr % 64, r.data)] } })
    if r.wr then u else u.prefetch r.q l

/-- A request at the head of its bank: served, joined to the fill of its line, or begun as a miss; none when it must wait (R389). -/
def State.tryReq (s : State) (r : CReq) : Option State :=
  let t := s.cacheError r
  match t.serveHit r with
  | some u => some u
  | none =>
    match t.missOf (lineBank r.line) with
    | none => some (t.startMiss r)
    | some m =>
      if m.line = r.line then
        some ((t.modCache (fun c =>
          { c with miss := NMap.put c.miss (lineBank r.line) { m with wait := m.wait ++ [(r.q, r.wr, r.addr % 64, r.data)] } })).bumpPv pCCA_HITS r.q 1)
      else none

/-- Requests waiting at a bank. -/
def State.bankQueue (s : State) (b : Nat) : List CReq := NMap.get [] s.cache.wait b

/-- Put the requests waiting at a bank. -/
def State.setQueue (s : State) (b : Nat) (q : List CReq) : State := s.modCache (fun c => { c with wait := NMap.set [] c.wait b q })

/-- Serve a bank's waiting requests in order as far as they go; none while a clean runs (R389, R396). -/
def State.pump (b : Nat) : Nat → State → State
  | 0, s => s
  | n + 1, s =>
    if s.cache.clean.isSome then s
    else
      match s.bankQueue b with
      | [] => s
      | r :: rs =>
        match (s.setQueue b rs).tryReq r with
        | some t => State.pump b n t
        | none => s

/-- A request reaches its bank: it stalls during a clean and behind a waiting one (R389, R396). -/
def State.cacheReq (s : State) (r : CReq) : State :=
  let b := lineBank r.line
  let t := s.setQueue b (s.bankQueue b ++ [r])
  t.pump b (t.bankQueue b).length

/-- The fill of a bank's miss slot: the line as the buffer holds it, with the requests that waited for it in order, goes into the way chosen
now; a prefetch nobody waited for becomes the least recent (R385, R386, R389). -/
def State.fillLine (s : State) (b : Nat) : State :=
  match s.missOf b with
  | none => s
  | some m =>
    let t := s.modCache (fun c => { c with miss := NMap.del c.miss b })
    let x : CLine := { tag := lineTag m.line, dirty := false, data := t.bufLine m.line }
    let p := m.wait.foldl (fun (a : CLine × State) (w : Nat × Bool × Nat × Bytes) =>
      a.2.useLine { q := w.1, wr := w.2.1, addr := 64 * m.line + w.2.2.1, data := w.2.2.2, err := 0 } a.1) (x, t)
    match p.2.allocate m.q m.line p.1 (!(m.pf && m.wait.isEmpty)) with
    | some u => u
    | none => if p.1.dirty then p.2.putLine m.line p.1.data else p.2

/-- A fill completes and the bank goes on (R389). -/
def State.fillDone (s : State) (b : Nat) : State :=
  let t := s.fillLine b
  t.pump b (t.bankQueue b).length

/-! ### Cleans and range operations (R393 to R398, R400) -/

/-- Write back the dirty lines that `hit` chooses, in the sets and, where `vict` says so, in the victim caches; they are invalidated, or
stay valid and clean. -/
def Cache.writeBack (c : Cache) (hit : Nat → Nat → Bool) (vict : Nat → Bool) (inval : Bool) : Cache :=
  let m1 := c.sets.foldl (fun (m : NMap Bytes) (e : Nat × CSet) => e.2.lines.foldl (fun (m : NMap Bytes) (x : Nat × CLine) =>
    if hit (lineAt e.1 x.2.tag) x.1 && x.2.dirty then NMap.set zeroLine m (lineAt e.1 x.2.tag) x.2.data else m) m) c.mem
  let m2 := c.vict.foldl (fun (m : NMap Bytes) (e : Nat × List Victim) => e.2.foldl (fun (m : NMap Bytes) (v : Victim) =>
    if vict v.lineNo && v.line.dirty then NMap.set zeroLine m v.lineNo v.line.data else m) m) m1
  let keep (e : Nat × CSet) : NMap CLine :=
    if inval then e.2.lines.filter (fun (x : Nat × CLine) => !hit (lineAt e.1 x.2.tag) x.1)
    else e.2.lines.map (fun (x : Nat × CLine) => (x.1, { x.2 with dirty := x.2.dirty && !hit (lineAt e.1 x.2.tag) x.1 }))
  let sets := c.sets.map (fun (e : Nat × CSet) => (e.1, { e.2 with lines := keep e }))
  let vs := c.vict.map (fun (e : Nat × List Victim) => (e.1,
    if inval then e.2.filter (fun v => !vict v.lineNo)
    else e.2.map (fun v => { v with line := { v.line with dirty := v.line.dirty && !vict v.lineNo } })))
  { c with mem := m2, sets := sets.filter (fun e => e.2 != CSet.zero), vict := vs.filter (fun e => !e.2.isEmpty) }

/-- Ways of a set of bits. -/
def wayList (m : Nat) : List Nat := (List.range 16).filter (Nat.testBit m)

/-- The bits of a list of ways. -/
def wayBits (ws : List Nat) : Nat := (List.range 16).foldl (fun a w => if ws.contains w then a + 2 ^ w else a) 0

/-- Begin a clean of the ways that are lost. -/
def State.startClean (s : State) (ws : List Nat) (vict : Bool) : State := s.modCache (fun c => { c with clean := some (ws, vict) })

/-- Hardware takes a way out: CCA_WAY_FAIL, its event, and a clean of the way, after a clean or range operation that runs (R396, R400, R402). -/
def State.cleanDue (s : State) : State :=
  if s.cache.clean.isSome || s.cache.range.isSome then s
  else
    match s.cache.due with
    | [] => s
    | w :: ws => (s.modCache (fun c => { c with due := ws })).startClean [w] false

/-- The clean ends: outstanding fills finish first, the removed ways' dirty lines are written back and all their lines invalidated, the ways
power down and the banks resume (R396, R401). -/
def State.cleanEnd (s : State) : State :=
  match s.cache.clean with
  | none => s
  | some (ws, vict) =>
    let t := (List.range 8).foldl (fun u b => u.fillLine b) s
    let u := t.modCache (fun c =>
      { c.writeBack (fun _ w => ws.contains w) (fun _ => vict) true with ways := wayBits ((wayList c.ways).filter (fun w => !ws.contains w)), clean := none })
    let v := u.cleanDue
    (List.range 8).foldl (fun x b => x.pump b (x.bankQueue b).length) v

/-- The range operation ends: fills of its lines finish first; every dirty line of the range is written back, and invalidated under
operation 2 (R393, R394, R401). -/
def State.rangeEnd (s : State) : State :=
  match s.cache.range with
  | none => s
  | some (op, first, n) =>
    let inR (l : Nat) : Bool := decide (first ≤ l) && decide (l < first + n)
    let t := (List.range 8).foldl (fun u b => match u.missOf b with | some m => if inR m.line then u.fillDone b else u | none => u) s
    (t.modCache (fun c => { c.writeBack (fun l _ => inR l) inR (op = 2) with range := none })).cleanDue

/-! ### The device's own accesses (R383; log 45) -/

/-- Let every clean that runs or is due end. -/
def State.noClean : Nat → State → State
  | 0, s => s
  | n + 1, s => if s.cache.clean.isSome then State.noClean n s.cleanEnd else s

/-- Let a bank's outstanding fill and its waiting requests finish. -/
def State.quiet (b : Nat) : Nat → State → State
  | 0, s => s
  | n + 1, s => if (s.missOf b).isSome then State.quiet b n (s.fillDone b) else s

/-- One access of the device itself, with its fill. -/
def State.ownLine (s : State) (r : CReq) : State :=
  let b := lineBank r.line
  let t := s.noClean 17
  let u := t.quiet b ((t.bankQueue b).length + 1)
  match u.tryReq r with
  | some v => v.fillDone b
  | none => u

/-- Write bytes through the cache, line by line; the first number is fuel. -/
def State.cacheWrite (q : Nat) : Nat → Nat → Bytes → State → State
  | 0, _, _, s => s
  | n + 1, a, b, s =>
    if b.isEmpty then s
    else
      let k := 64 - a % 64
      State.cacheWrite q n (a + k) (b.drop k) (s.ownLine { q, wr := true, addr := a, data := b.take k, err := 0 })

/-- Read bytes through the cache. -/
def State.cacheRead (q : Nat) : Nat → Nat → Nat → State → Bytes × State
  | 0, _, _, s => ([], s)
  | f + 1, a, n, s =>
    if n = 0 then ([], s)
    else
      let k := min n (64 - a % 64)
      let t := s.ownLine { q, wr := false, addr := a, data := [], err := 0 }
      let p := State.cacheRead q f (a + k) (n - k) t
      (t.cache.out.take k ++ p.1, p.2)

/-- Write a run of bytes. -/
def State.putBytes (s : State) (q a : Nat) (b : Bytes) : State := State.cacheWrite q (b.length / 64 + 2) a b s

/-- Read a run of bytes. -/
def State.getBytes (s : State) (q a n : Nat) : Bytes × State := State.cacheRead q (n / 64 + 2) a n s

/-- Make a run of bytes zero. -/
def State.zeroBytesAt (s : State) (q a n : Nat) : State := s.putBytes q a (zeroBytes n)

end Sys2Proof.Machine
end

