-- ==== Sys2Proof/Machine/Pool.lean ====
section
/-! DEFINITION. The service pool of the cipher: its operations (R276), requests and results (R277), the lock and its owners (R278, R280),
urgent requests (R279). -/

namespace Sys2Proof.Machine

/-! ### Requests (R277) -/

/-- Operation code. -/
def PoolMsg.op (m : PoolMsg) : Nat := m.w0 % 256
/-- Continuation of the previous request's message. -/
def PoolMsg.cont (m : PoolMsg) : Bool := Nat.testBit m.w0 9
/-- Urgent. -/
def PoolMsg.urgent (m : PoolMsg) : Bool := Nat.testBit m.w0 8
/-- Slot. -/
def PoolMsg.slot (m : PoolMsg) : Nat := bitsOf m.w0 18 10
/-- Length in bytes. -/
def PoolMsg.len (m : PoolMsg) : Nat := m.w0 / 2 ^ 32

/-- Bytes at the source: the data, with IV and tag behind it for a verify operation (R276). -/
def poolSource (op len : Nat) : Nat := if op = 4 || op = 6 then len + 28 else len

/-- Bytes at the destination: the data, the tag behind it (R276). -/
def poolDest (op len : Nat) : Nat :=
  if op = 1 || op = 2 || op = 4 || op = 0x0A then len else if op = 3 then len + 16 else if op = 5 || op = 7 then 16 else 0

/-- Operations that only Ringmaster may request (R276). -/
def poolReserved (op : Nat) : Bool := op = 8 || op = 9 || op = 0x0B

/-- Requester ID of a kernel instance (R278). -/
def instId (i : Nat) : Nat := 0x100 + i

/-! ### XTS with a last part of a block -/

/-- The tweak of block `j` of a data unit. -/
def xtsTweak (key : Bytes) (dun j : Nat) : Bytes := (List.range j).foldl (fun t _ => xtsNext t) (aesEnc (key.drop 32) (leBytes 16 dun))

/-- XTS of a data unit of at least 16 bytes, its last part of a block by ciphertext stealing. -/
def xtsAny (enc : Bool) (key : Bytes) (dun : Nat) (d : Bytes) : Bytes :=
  let f := if enc then aesEnc (key.take 32) else aesDec (key.take 32)
  let one (j : Nat) (b : Bytes) : Bytes := let t := xtsTweak key dun j; xorBytes (f (xorBytes b t)) t
  let whole (b : Bytes) : Bytes := if enc then xtsEncrypt key dun b else xtsDecrypt key dun b
  let r := d.length % 16
  if r = 0 then whole d
  else
    let m := d.length / 16
    let last := slice d (16 * (m - 1)) 16
    let part := d.drop (16 * m)
    let cc := one (if enc then m - 1 else m) last
    whole (d.take (16 * (m - 1))) ++ one (if enc then m else m - 1) (part ++ cc.drop r) ++ cc.take r

/-! ### Running a message (R276) -/

/-- The cause of EVT 0x7C3 for a failing unwrap, by the slot of its wrapping key (R283; log 46). -/
def unwrapCause (slot : Nat) : Nat := if slot = 256 then 1 else if slot = 257 then 2 else if slot = 259 then 3 else 4

/-- The first counter block of a CTR message (log 46). -/
def ctrFirst (w3 : Nat) : Bytes := (List.range 16).map (Config.ctrBlock w3)

/-- The request is one that the pool can run: a length in range, an operation of the table, a loaded slot of the right kind, and for a
continuation the message it continues (R276, R277). -/
def State.poolValid (s : State) (m : PoolMsg) : Bool :=
  let xts := m.slot < 256
  let loaded := (s.slotKey m.slot).isSome
  decide (1 ≤ m.len) && decide (m.len ≤ 67108864)
    && (!m.cont || (s.keys.partMsg.elim false (fun p => p.1.op = m.op && p.1.slot = m.slot && p.1.req = m.req)))
    && (match m.op with
        | 1 | 2 => xts && loaded && decide (16 ≤ m.len)
        | 3 | 4 | 5 | 6 | 7 | 10 => !xts && loaded
        | 8 => !xts && loaded && m.len % 8 = 0 && (s.slotKey (m.w3 % 512)).isSome
        | 9 => !xts && loaded && m.len % 8 = 0 && decide (24 ≤ m.len) && decide (m.w2 % 512 < 288)
        | 11 => decide (m.w2 % 512 < 288) && s.keys.trngOk
        | _ => false)

/-- The operation generates its IV (R276). -/
def poolDraws (m : PoolMsg) : Bool := (m.op = 3 || m.op = 5) && !m.cont

/-- Key bytes of a slot: 64 of an XTS slot, 32 of a MAC slot (R255). -/
def slotBytes (i : Nat) : Nat := if i < 256 then 64 else 32

/-- The status, the bytes for the destination and the state of a valid message, under IV `iv` (R276). The table does not say what 0x08 wraps nor where
0x09 puts what it unwraps: here 0x08 wraps the source data followed by the key of the slot in word 3 [8:0], and 0x09 puts the last 32 or 64 bytes
into the target slot (DESIGN CHOICE, log 46). -/
def State.poolRun (s : State) (m : PoolMsg) (iv : Bytes) : Nat × Bytes × State :=
  let key := (s.slotKey m.slot).getD []
  let before := if m.cont then (s.keys.partMsg.map (fun p => p.1.data)).getD [] else []
  let body := fitBytes m.len m.data
  let all := before ++ body
  let n := before.length
  let givenIv := fitBytes 12 (slice m.data m.len 12)
  let givenTag := fitBytes 16 (slice m.data (m.len + 12) 16)
  match m.op with
  | 1 => (0, (xtsAny true key m.w3 all).drop n, s)
  | 2 => (0, (xtsAny false key m.w3 all).drop n, s)
  | 3 => let c := gcmCrypt key iv all; (0, c.drop n ++ gcmTag key iv [] c, s)
  | 4 => if gcmTag key givenIv [] all = givenTag then (0, (gcmCrypt key givenIv all).drop n, s) else (1, [], s)
  | 5 => (0, gmac key iv all, s)
  | 6 => (if gmac key givenIv all = givenTag then 0 else 1, [], s)
  | 7 => (0, cmac key all, s)
  | 10 => (0, (ctrCrypt key (ctrFirst m.w3) all).drop n, s)
  | 8 => (0, kwWrap key (body ++ (s.slotKey (m.w3 % 512)).getD []), s)
  | 9 =>
    match kwUnwrap key body with
    | some b => (0, [], s.loadSlot (m.w2 % 512) (fitBytes (slotBytes (m.w2 % 512)) (b.drop (b.length - slotBytes (m.w2 % 512)))) 0)
    | none => (2, [], s.raise 0x7C3 (unwrapCause m.slot) [])
  | 11 => (0, [], (s.loadSlot (m.w2 % 512) (s.trngBytes (slotBytes (m.w2 % 512))) 0).drawn 1)
  | _ => (5, [], s)

/-! ### Results -/

/-- A result in FIFO 75; a kernel's cipher descriptor that waits for it takes it, and the bytes go to the destination through the cache
(R277, R374, R375). -/
def State.poolResult (s : State) (m : PoolMsg) (status done : Nat) (iv out : Bytes) : State :=
  let t := (s.pass 75 4 4).modKeys (fun k => { k with results := { status, req := m.req, done, iv, dst := m.w2, out } :: k.results })
  if m.req < 0x100 then t
  else
    match t.runCore (m.req - 0x100) with
    | none => t
    | some c =>
      let ds := (t.core c).dma
      match (ds.zipIdx.filter (fun x => x.1.op = 0x10 && x.1.res.isNone)).head? with
      | none => t
      | some x =>
        let u := t.modCore c (fun k => { k with dma := ds.set x.2 { x.1 with res := some (5, status, done, iv) } })
        match (u.running c).bind (fun p => p.2.inWindow (some p.1) m.w2 out.length 2) with
        | some a => u.putBytes 17 a out
        | none => u

/-! ### Order of messages (R278, R279) -/

/-- Take a normal message, four words through FIFO 74: it starts when the pool is idle, else it waits. -/
def State.poolTake (s : State) (m : PoolMsg) : State :=
  (s.pass 74 4 4).modKeys (fun k => if k.msg.isNone && k.suspended.isNone then { k with msg := some m } else { k with queue := k.queue ++ [m] })

/-- A release asked for takes effect when no message of the owner is left (R278). -/
def State.lockSettle (s : State) : State :=
  s.modKeys (fun k =>
    let mine (m : PoolMsg) : Bool := m.req = k.lock && !m.urgent
    if k.lockRelease && !(k.msg.elim false mine) && !(k.suspended.elim false mine) && !k.queue.any mine then { k with lock := 0, lockRelease := false }
    else k)

/-- The next message runs: queued urgent ones, then the suspended one, then the next normal one. -/
def State.poolNext (s : State) : State :=
  (s.modKeys (fun k =>
    match k.urgent, k.suspended, k.queue with
    | u :: us, _, _ => { k with msg := some u, urgent := us }
    | [], some m, _ => { k with msg := some m, suspended := none }
    | [], none, m :: ms => { k with msg := some m, queue := ms }
    | [], none, [] => { k with msg := none })).lockSettle

/-- A kernel's request names a slot that is not its own or an operation reserved to Ringmaster: status 0x03, the instance is frozen, with
both events (R278, R376). -/
def State.poolDenied (s : State) (m : PoolMsg) (i : Nat) : State :=
  ((s.poolResult m 3 0 [] []).raise 0x7C0 2 (leBytes 2 m.req)).freeze i 0 5

/-- A normal request: accepted from the owner of the lock; Ringmaster takes a free lock for the one message (R278; log 46). -/
def State.poolRequest (s : State) (m : PoolMsg) : State :=
  let kern := if 0x100 ≤ m.req then NMap.find? s.comp.kerns (m.req - 0x100) else none
  if m.req = 0 || (4 ≤ m.req && kern.isNone) then s
  else
    match kern with
    | some k =>
      if poolReserved m.op || !k.slots.contains m.slot then s.poolDenied m (m.req - 0x100)
      else if s.keys.lock != m.req || m.urgent || !s.poolValid m then s.poolResult m 5 0 [] []
      else s.poolTake m
    | none =>
      let t := if s.keys.lock = 0 then s.modKeys (fun k => { k with lock := m.req, lockRelease := true }) else s
      if t.keys.lock != m.req then s
      else if !t.poolValid m then (t.poolResult m 5 0 [] []).lockSettle
      else t.poolTake m

/-- SERVICE_POOL_REQUEST (R276 to R278). A requester waits while FIFO 74 or 75 is halted (R111). -/
def execServicePoolRequest (requester w0 w1 w2 w3 : Nat) (data : Bytes) (s : State) : Out :=
  .next (if s.mag.st.alive && s.flows 74 && s.flows 75 then (s.poolRequest { req := requester, w0, w1, w2, w3, data }).goOn else s)

/-- SERVICE_POOL_URGENT_REQUEST (R278, R279): only Ringmaster's, through FIFO 74 with the data in FIFO 63. A normal message that runs is suspended; suspensions do not nest. -/
def execServicePoolUrgentRequest (requester w0 w1 w2 w3 : Nat) (data : Bytes) (s : State) : Out :=
  let m : PoolMsg := { req := requester, w0 := if Nat.testBit w0 8 then w0 else w0 + 256, w1, w2, w3, data }
  .next (
    if !s.mag.st.alive || requester = 0 || !s.flows 63 || !s.flows 74 || !s.flows 75 then s
    else if 4 ≤ requester || !s.poolValid m then s.poolResult m 5 0 [] []
    else
      let t := (s.pass 74 4 4).passBytes 63 data.length
      match t.keys.msg with
      | none => t.modKeys (fun k => { k with msg := some m })
      | some r =>
        if r.urgent then t.modKeys (fun k => { k with urgent := k.urgent ++ [m] })
        else (t.modKeys (fun k => { k with msg := some m, suspended := some r })).bumpPv pCPH_SUSPENDS 0 1)

/-- SERVICE_POOL_MESSAGE_DONE (R276, R277): the message's result; one that needs an IV waits while none can be issued, and gets status 0x06
once no more are (R254). -/
def execServicePoolMessageDone (s : State) : Out :=
  match s.keys.msg with
  | none => .next s
  | some m =>
    let first : Option (Bytes × State) :=
      if poolDraws m then s.takeIv
      else some ((if m.cont then (s.keys.partMsg.map Prod.snd).getD [] else []), s)
    if !s.mag.st.alive || !s.flows 75 then .next s
    else
      match first with
      | none => if s.keys.ivDead then .next ((s.poolResult m 6 0 [] []).poolNext).goOn else .next s
      | some (iv, t) =>
        let r := t.poolRun m iv
        let before := if m.cont then (t.keys.partMsg.map (fun p => p.1.data)).getD [] else []
        let u := r.2.2.modKeys (fun k => { k with partMsg := some ({ m with data := before ++ fitBytes m.len m.data }, iv) })
        .next ((u.poolResult m r.1 m.len (if poolDraws m then iv else []) r.2.1).poolNext).goOn

/-- CPH_LOCK_TIMEOUT (R280): Ringmaster breaks the lock of a kernel instance, unless its message is suspended: the message is abandoned with
status 0x04, the lock is free and the instance frozen. -/
def execCphLockTimeout (s : State) : Out :=
  .next (
    if s.keys.lock < 0x100 || s.keys.suspended.isSome then s
    else
      let o := s.keys.lock
      let t := (s.raise 0x7C0 1 (leBytes 2 o)).bumpPv pCPH_BREAKS 0 1
      let u :=
        match t.keys.msg with
        | some m => if m.req = o then (t.poolResult m 4 0 [] []).modKeys (fun k => { k with msg := none }) else t
        | none => t
      let v := u.modKeys (fun k => { k with lock := 0, lockRelease := false, queue := k.queue.filter (fun m => m.req != o) })
      ((if v.keys.msg.isNone then v.poolNext else v).freeze (o - 0x100) 0 6).goOn)

end Sys2Proof.Machine
end

