-- ==== Sys2Proof/Machine/Compute.lean ====
section
/-! DEFINITION. The compute cluster: kernel images and instances (R362 to R367, R379), invocations (R368 to R371), the compute DMA (R372 to R375),
violations, traps and time limits (R376, R377), the lock from a kernel (R278, R372). -/

namespace Sys2Proof.Machine

/-! ### Kernel images (R362, R363, R366) -/

/-- The window declarations of an image header. -/
def imageWins (img : Bytes) : List WinDecl :=
  (List.range 8).map (fun w => { kind := leAt img (0x40 + 8 * w) 1, rights := leAt img (0x41 + 8 * w) 1, pages := leAt img (0x44 + 8 * w) 4 })

/-- Format and layout of an image of `n` bytes (R362; checks 1 and 2 of R363). -/
def imageFormOk (img : Bytes) (n : Nat) : Bool :=
  let len := leAt img 8 4
  let seg := imageSeg img
  let stack := leAt img 0x3C 4
  leAt img 0 4 = 0x4C4F444E && leAt img 4 2 = 1 && leAt img 6 2 = 256 && len = n && decide (512 ≤ len) && decide (len ≤ 2097152) && len % 16 = 0
    && decide (leAt img 0x0C 4 < 2) && decide (256 ≤ (seg 0).1) && (List.range 3).all (fun i => (seg i).1 % 16 = 0)
    && decide ((seg 0).1 + (seg 0).2 ≤ (seg 1).1) && decide ((seg 1).1 + (seg 1).2 ≤ (seg 2).1) && decide ((seg 2).1 + (seg 2).2 ≤ len - 96)
    && decide ((seg 0).1 ≤ leAt img 0x1C 4) && decide (leAt img 0x1C 4 < (seg 0).1 + (seg 0).2)
    && stack % 4096 = 0 && decide (16384 ≤ stack) && decide (stack ≤ 2 ^ 20) && decide (leAt img 0x80 1 ≤ 2)
    && (List.range 8).all (fun w => leAt img (0x42 + 8 * w) 2 = 0) && allZero (slice img 0x82 126)

/-- A window declaration is valid by itself (R366): a scratch window of up to 1 TiB (R365), pages for no other kind. -/
def WinDecl.ok (d : WinDecl) : Bool :=
  (if d.kind = 1 then decide (1 ≤ d.pages) && decide (d.pages ≤ 2 ^ 28) else d.pages = 0)
    && (match d.kind with
        | 0 => d.rights = 0
        | 1 => d.rights = 1 || d.rights = 3
        | 2 | 4 => d.rights = 1
        | 3 => d.rights = 3
        | 5 => d.rights = 1 || d.rights = 2 || d.rights = 3
        | _ => false)

/-- All declarations are valid: at most one argument and one result window (R366). -/
def winsOk (ds : List WinDecl) : Bool :=
  ds.all WinDecl.ok && decide (ds.countP (fun d => d.kind = 2) ≤ 1) && decide (ds.countP (fun d => d.kind = 3) ≤ 1)

/-- The public key a signer index names: the ROM's, or an integrator's of the profile (R362, R434). -/
def State.signerKey (s : State) (i : Nat) : Option Bytes :=
  if i = 0 then some ((List.range 96).map Config.signKey)
  else
    s.nor.profile.bind (fun b =>
      if i ≤ leAt b 0x34 1 then some (slice b (leAt b 0x30 4 + 96 * (i - 1)) 96) else none)

/-- The checks of R363 in their order: none when the image is accepted, else the cause of EVT 0x710. -/
def State.imageCheck (s : State) (img : Bytes) : Option Nat :=
  if !imageFormOk img img.length then some 1
  else if !winsOk (imageWins img) then some 2
  else
    match s.signerKey (leAt img 0x81 1) with
    | none => some 4
    | some key => if ecdsaVerify key (img.take (img.length - 96)) (img.drop (img.length - 96)) then none else some 3

/-- The header that the device gives a ROM kernel (R379; log 47): windows 0 to 4, a stack of 16 KiB, one page of text. -/
def romHeader : Bytes :=
  leBytes 4 0x4C4F444E ++ leBytes 2 1 ++ leBytes 2 256 ++ leBytes 4 4448 ++ leBytes 4 1 ++ zeroBytes 8 ++ zeroBytes 4 ++ leBytes 4 256
    ++ leBytes 4 256 ++ leBytes 4 4096 ++ leBytes 4 4352 ++ leBytes 4 0 ++ leBytes 4 4352 ++ leBytes 4 0 ++ leBytes 4 0 ++ leBytes 4 16384
    ++ (leBytes 1 4 ++ leBytes 1 1 ++ zeroBytes 6) ++ (leBytes 1 5 ++ leBytes 1 2 ++ zeroBytes 6)
    ++ (leBytes 1 1 ++ leBytes 1 3 ++ zeroBytes 2 ++ leBytes 4 16384) ++ (leBytes 1 3 ++ leBytes 1 3 ++ zeroBytes 6)
    ++ (leBytes 1 2 ++ leBytes 1 1 ++ zeroBytes 6) ++ zeroBytes 24 ++ zeroBytes 128

/-- The image of ROM kernel `n`: what its text holds is the part's (R379). -/
def romImage (n : Nat) : Bytes := romHeader ++ (List.range 4096).map (Config.romKernel n)

/-! ### Instances (R364, R367) -/

/-- Free kernel key slots among MAC slots 16 to 31, lowest first (R364). -/
def State.freeKernSlots (s : State) : List Nat := ((List.range 16).map (· + 272)).filter (fun i => (NMap.find? s.keys.slots i).isNone)

/-- Create an instance from an accepted image: the lowest free number, a place in the compute region, key slots from the TRNG, the image
written and the rest of its region zeroed through the cache; it completes with the number (R364, R365). -/
def State.createInst (s : State) (q : Nat) (img : Bytes) (rom : Option Nat) : State :=
  let nslots := if rom.isSome then 0 else leAt img 0x80 1
  let k0 : Kern := { image := img, rom, wins := imageWins img, entry := 0x10000 + leAt img 0x1C 4, sp := 0x10000 + imageRegion img,
                     region := imageRegion img, base := 0, slots := s.freeKernSlots.take nslots, frozen := false, count := 0 }
  match (List.range 256).find? (fun i => (NMap.find? s.comp.kerns i).isNone), s.compAlloc k0.bytes with
  | some i, some base =>
    if s.pn pCCL_INST_MAX ≤ s.comp.kerns.length || s.freeKernSlots.length < nslots || (nslots != 0 && !s.keys.trngOk) then s.done q stKernelResources
    else
      let t := s.modComp (fun p => { p with kerns := NMap.put p.kerns i { k0 with base } })
      let u := k0.slots.foldl (fun v x => (v.loadSlot x (v.trngBytes 32) 0).drawn 1) t
      (u.putBytes 16 base (fitBytes k0.region (img.take (imageDataEnd img)))).complete q stOk i 0 []
  | _, _ => s.done q stKernelResources

/-- KERNEL_LOAD (R363, R364): CDW10 gives the length in dwords, 0's based. -/
def execKernelLoad (h : Hdr) (d10 : Nat) (image : Bytes) (s : State) : Out :=
  .next (s.adminCmd h false (fun q t =>
    let img := fitBytes (4 * (d10 + 1)) image
    match t.imageCheck img with
    | some c => (t.raise 0x710 c []).done q stKernelImage
    | none => t.createInst q img none)).goOn

/-- KERNEL_LOAD_ROM (R364, R379): kernels 0 to 3. -/
def execKernelLoadRom (h : Hdr) (number : Nat) (s : State) : Out :=
  .next (s.adminCmd h false (fun q t => if 3 < number then t.done q stField else t.createInst q (romImage number) (some number))).goOn

/-- Zero the windows of an invocation (R367). -/
def State.zeroInvoc (s : State) (v : Invoc) : State := s.zeroBytesAt 16 v.base v.bytes

/-- Take an instance away: its invocations get Command Abort Requested, its core is reset, its memory zeroed, its key slots cleared and a lock
it owns freed (R367). -/
def State.unloadInst (s : State) (i : Nat) (k : Kern) : State :=
  let vs := (s.comp.queue ++ s.comp.cores.filterMap (fun (e : Nat × Core) => e.2.run)).filter (fun v => v.inst = i)
  let t := s.doneAll (vs.map (fun v => v.seq)) stAborted
  let u := t.modComp (fun p =>
    { p with
      queue := p.queue.filter (fun v => v.inst != i)
      cores := p.cores.map (fun (e : Nat × Core) =>
        (e.1, if e.2.frozen = some i || e.2.run.elim false (fun v => v.inst = i) then { Core.zero with powered := true } else e.2)) })
  let v := (vs.foldl State.zeroInvoc u).zeroBytesAt 16 k.base k.bytes
  let w := k.slots.foldl State.clearSlot (v.modComp (fun p => { p with kerns := NMap.del p.kerns i }))
  w.modKeys (fun y =>
    { y with
      queue := y.queue.filter (fun m => m.req != instId i)
      lock := if y.lock = instId i then 0 else y.lock
      lockRelease := y.lockRelease && y.lock != instId i })

/-- KERNEL_UNLOAD (R367). -/
def execKernelUnload (h : Hdr) (inst : Nat) (s : State) : Out :=
  .next (s.adminCmd h false (fun q t =>
    match NMap.find? t.comp.kerns inst with
    | none => t.done q stKernelNone
    | some k => ((t.unloadInst inst k).dropUnwanted).done q stOk)).goOn

/-! ### Invocations (R368 to R371) -/

/-- The binding of window `w` in an invocation block. -/
def blockBind (b : Bytes) (w : Nat) : WinBind :=
  { win := w, lba := leAt b (0x10 + 16 * w) 8, count := leAt b (0x18 + 16 * w) 4, rights := leAt b (0x1C + 16 * w) 1 }

/-- Bindings that belong to the kernel's take and sidecar windows, none where the block is not one that check 3 of R368 lets pass. -/
def State.bindings (s : State) (k : Kern) (b : Bytes) : Option (List WinBind) :=
  let kind (w : Nat) : Nat := (k.wins.getD w ⟨0, 0, 0⟩).kind
  let used := (List.range 8).filter (fun w => kind w = 4 || kind w = 5)
  let ok (w : Nat) : Bool :=
    if kind w = 4 || kind w = 5 then
      let d := blockBind b w
      decide (1 ≤ d.count) && (d.rights &&& (k.wins.getD w ⟨0, 0, 0⟩).rights) = d.rights
        && decide (d.lba + d.count ≤ if kind w = 4 then s.takeLbas else s.sideLbas)
    else allZero (slice b (0x10 + 16 * w) 16)
  if leAt b 0 4 = 0x4B494E56 && leAt b 4 2 = 1 && (List.range 8).all ok then some (used.map (blockBind b)) else none

/-- KERNEL_INVOKE (R368): the checks in their order, then the invocation is queued, its block in its argument window and its result window
zero. -/
def execKernelInvoke (h : Hdr) (nsid d10 : Nat) (block : Bytes) (s : State) : Out :=
  .next (s.ioCmd h (fun q t =>
    let i := d10 % 65536
    if nsid != 0xFFFFFFFF then t.done q stNamespace
    else if block.length < 256 || 2097152 < block.length || block.length % 4 != 0 then t.done q stField
    else
      match NMap.find? t.comp.kerns i with
      | none => t.done q stKernelNone
      | some k =>
        if k.frozen then t.done q stKernelFrozen
        else
          match t.bindings k block with
          | none => t.done q stKernelBinding
          | some bs =>
            let kind (b : WinBind) : Nat := (k.wins.getD b.win ⟨0, 0, 0⟩).kind
            if bs.any (fun b => kind b = 4) && !t.keys.session then t.done q stDenied
            else if bs.any (fun b => kind b = 5 && Nat.testBit b.rights 1) && t.car.readOnly then t.done q stProtected
            else
              match (if t.pn pCCL_CORES = 0 then none else t.compAlloc (2 * pageRound block.length)) with
              | none => t.done q stKernelResources
              | some base =>
                let cls := (t.nv.held? q).elim 0 (fun x => x.cls)
                let v : Invoc := { seq := q, inst := i, cls, block, wb := Nat.testBit d10 16, binds := bs, base }
                let u := (t.modComp (fun p => { p with queue := p.queue ++ [v] })).modNv (fun n => n.setWait q (.invoke i))
                u.putBytes 16 base (fitBytes (pageRound block.length) block ++ zeroBytes (pageRound block.length)))).goOn

/-- The invocation that starts next: by class, then by fetch; one whose instance is running waits without delaying the others (R371; log 48). -/
def State.nextInvoc (s : State) : Option Invoc :=
  let free := s.comp.queue.filter (fun v => (s.runCore v.inst).isNone && (NMap.find? s.comp.kerns v.inst).isSome)
  (List.range 4).findSome? (fun c => free.find? (fun v => v.cls = c))

/-- The core it starts on: the lowest powered idle one, else the lowest unpowered one, among CCL_CORES (R371). -/
def State.nextCore (s : State) : Option Nat :=
  let cs := List.range (s.pn pCCL_CORES)
  let idle (c : Nat) : Bool := (s.core c).run.isNone && (s.core c).frozen.isNone
  match cs.find? (fun c => (s.core c).powered && idle c) with
  | some c => some c
  | none => cs.find? (fun c => !(s.core c).powered && idle c)

/-- Registers that an invocation starts with (R370): sp, a0 to a4. -/
def startRegs (k : Kern) (v : Invoc) : NMap Nat :=
  let arg := (k.winOf 2).elim 0 (fun w => winAddr w + 0x100)
  let res := (k.winOf 3).elim (0, 0) (fun w => (winAddr w, v.block.length))
  [(2, k.sp), (10, arg), (11, leAt v.block 8 4), (12, res.1), (13, res.2), (14, k.count)].foldl
    (fun (m : NMap Nat) (e : Nat × Nat) => NMap.set 0 m e.1 e.2) []

/-- INVOCATION_START (R370, R371): FIFO 76 releases a queued invocation, unless it is halted; none while the thermal warning holds new invocations back (R508), nor in DRAIN. -/
def execInvocationStart (s : State) : Out :=
  .next (
    if !s.mag.st.alive || s.mag.st = .drain || s.pw.thermal != 0 || !s.flows 76 then s
    else
      match s.nextInvoc, s.nextCore with
      | some v, some c =>
        match NMap.find? s.comp.kerns v.inst with
        | none => s
        | some k0 =>
          let k := { k0 with count := k0.count + 1 }
          ((s.pass 76 1 1).modComp (fun p =>
            { p with
              kerns := NMap.put p.kerns v.inst k
              queue := p.queue.filter (fun x => x.seq != v.seq) })).modCore c (fun _ =>
                { Core.zero with powered := true, run := some v, pc := k.entry, x := startRegs k v })
      | _, _ => s)

/-- The invocation is over: the result window is written back where asked, the command completes, the core is returned (R370, R381). -/
def State.finishInvocation (s : State) (c : Nat) : State :=
  match s.running c, (s.core c).exiting with
  | some (v, k), some (a0, a1) =>
    let n := if v.wb then a1 else 0
    let r :=
      match (k.winOf 3).bind (fun w => k.inWindow (some v) (winAddr w) n 1) with
      | some a => s.getBytes 16 a n
      | none => ([], s)
    ((r.2.bumpPv pCCL_INVOKES 0 1).complete v.seq stOk (a0 % 2 ^ 32) n r.1).modCore c (fun x => x.stop none)
  | _, _ => s

/-! ### Compute DMA (R372 to R375) -/

/-- The descriptor in 64 bytes (R373). -/
def Dma.read (b : Bytes) : Dma :=
  { op := leAt b 0 1, win := leAt b 1 1, count := leAt b 4 4, off := leAt b 8 8, addr := leAt b 0x10 8, len := leAt b 0x18 4, tag := leAt b 0x1C 4,
    words := (List.range 4).map (fun i => leAt b (0x20 + 8 * i) 8), app := 0, res := none }

/-- The pool request a cipher descriptor carries. -/
def Dma.poolMsg (d : Dma) (i : Nat) (data : Bytes) : PoolMsg :=
  { req := instId i, w0 := d.words.getD 0 0, w1 := d.words.getD 1 0, w2 := d.words.getD 2 0, w3 := d.words.getD 3 0, data }

/-- A cipher request has a length the pool takes; only then are its addresses looked at. -/
def PoolMsg.lenOk (m : PoolMsg) : Bool := decide (1 ≤ m.len) && decide (m.len ≤ 67108864)

/-- A descriptor violates the map or its bindings (R376): none, or the faulting address; `at_` is the descriptor's own. -/
def descFault (k : Kern) (v : Invoc) (d : Dma) (at_ : Nat) : Option Nat :=
  let mem (a n need : Nat) : Option Nat := if (k.inWindow (some v) a n need).isSome then none else some a
  if d.op = 0x10 then
    let m := d.poolMsg v.inst []
    if !m.lenOk || poolReserved m.op || !k.slots.contains m.slot then none
    else
      match mem m.w1 (poolSource m.op m.len) 1 with
      | some a => some a
      | none => if poolDest m.op m.len = 0 then none else mem m.w2 (poolDest m.op m.len) 2
  else if d.op = 1 || d.op = 2 || d.op = 4 then
    let kind := (k.wins.getD d.win ⟨0, 0, 0⟩).kind
    match v.binds.find? (fun b => b.win = d.win) with
    | none => some at_
    | some b =>
      if (d.op = 2 && kind != 5) || (d.op = 4 && kind != 4) || !Nat.testBit b.rights (if d.op = 2 then 1 else 0)
          || d.count = 0 || 512 < d.count || b.count < d.off + d.count then some at_
      else if d.addr % 64 != 0 then some d.addr
      else mem d.addr (if d.op = 4 then d.len else 4096 * d.count) (if d.op = 2 then 1 else 2)
  else some at_

/-- A ring of a doorbell is one that R372 allows and lies in one window with both rights (R376). -/
def ringOk (k : Kern) (v : Invoc) (base entries bytes : Nat) : Bool :=
  base % 4096 = 0 && pow2 entries && decide (16 ≤ entries) && decide (entries ≤ 1024) && (k.inWindow (some v) base (entries * bytes) 3).isSome

/-- The completion ring is full. -/
def Core.cqFull (c : Core) : Bool := (c.cqt + 1) % c.cqsz = c.cqh

/-- Start descriptors of a core while its limits let it; a descriptor that violates its rights freezes the instance (R372, R376). -/
def State.startDma (c : Nat) : Nat → State → State
  | 0, s => s
  | n + 1, s =>
    let x := s.core c
    match s.running c with
    | none => s
    | some (v, k) =>
      if x.sqh = x.sqt || s.pn pCCL_DMA_MAX ≤ x.dma.length || x.cqFull then s
      else
        let at_ := x.sqb + 64 * x.sqh
        match k.inWindow (some v) at_ 64 1 with
        | none => s.freeze v.inst at_ 4
        | some p =>
          let r := s.getBytes 17 p 64
          let d := Dma.read r.1
          match descFault k v d at_ with
          | some a => r.2.freeze v.inst a 4
          | none =>
            let t := (r.2.pass 77 1 1).modCore c (fun y => { y with sqh := (y.sqh + 1) % y.sqsz, dma := y.dma ++ [d] })
            if d.op = 0x10 then
              let m := d.poolMsg v.inst []
              let src :=
                match (if m.lenOk then k.inWindow (some v) m.w1 (poolSource m.op m.len) 1 else none) with
                | some a => t.getBytes 17 a (poolSource m.op m.len)
                | none => ([], t)
              State.startDma c n (src.2.poolRequest { m with data := src.1 })
            else State.startDma c n t

/-- Start what may start, while FIFO 77 takes its descriptors, and let the reads that follow from it begin. -/
def State.runDma (s : State) (c : Nat) : State := (if s.flows 77 then State.startDma c 1024 s else s).readAll.goOn

/-- KDSQT_DOORBELL (R372): the ring registers as the kernel wrote them, then the doorbell. A ring that moves starts empty (log 49). -/
def execKdsqtDoorbell (core sqb sqsz cqb cqsz tail : Nat) (s : State) : Out :=
  .next (
    match s.executing core with
    | none => s
    | some (v, k) =>
      let x := s.core core
      if x.exiting.isSome then s
      else if !ringOk k v sqb sqsz 64 || sqsz ≤ tail then (s.freeze v.inst sqb 4).goOn
      else if !ringOk k v cqb cqsz 32 then (s.freeze v.inst cqb 4).goOn
      else
        let newSq := x.sqb != sqb || x.sqsz != sqsz
        let newCq := x.cqb != cqb || x.cqsz != cqsz
        (s.modCore core (fun y =>
          { y with
            sqb, sqsz, cqb, cqsz, sqt := tail
            sqh := if newSq then 0 else y.sqh
            cqh := if newCq then 0 else y.cqh
            cqt := if newCq then 0 else y.cqt })).runDma core)

/-- KDCQH_WRITE (R372): completion entries are freed; descriptors that waited for room start. -/
def execKdcqhWrite (core head : Nat) (s : State) : Out :=
  .next (
    if (s.executing core).isNone || (s.core core).cqsz ≤ head then s
    else (s.modCore core (fun y => { y with cqh := head })).runDma core)

/-- Write whole LBAs to memory at consecutive places: (place, block). -/
def State.putLbas (s : State) (a : Nat) (bs : List (Nat × Bytes)) : State :=
  bs.foldl (fun t (e : Nat × Bytes) => t.putBytes 17 (a + 4096 * e.1) (fitBytes 4096 e.2)) s

/-- The class a completion entry shows for a failed record; for one that no class of R167 describes, a free value (log 49). -/
def State.dmaClass (s : State) (c : Nat) : Nat := if c = 0xBB then s.free 8 % 256 else c

/-- A read of a take window, its LBAs all decided: released plaintext goes to memory, no byte of a failed record (R374, R375). -/
def State.dmaTake (s : State) (a lba n : Nat) : (Nat × Nat × Nat × Bytes) × State :=
  let rs := (List.range n).map (fun i => (i, s.srcOf (lba + i)))
  let good := rs.filterMap (fun (e : Nat × Src) => match e.2 with | .now b => some (e.1, b) | _ => none)
  let t := s.putLbas a good
  match rs.findSome? (fun (e : Nat × Src) => match e.2 with | .fail c _ _ _ => some c | _ => none) with
  | some c => ((1, s.dmaClass c, good.length, []), if c = 0xBB then t.drawn 1 else t)
  | none => ((0, 0, n, []), t)

/-- A read of a sidecar window (R374): LBAs that are unreadable or beyond the cap give status 0x03; a host memory buffer entry that does not
check out gives 0x02 (R320). -/
def State.dmaSide (s : State) (a lba n : Nat) : (Nat × Nat × Nat × Bytes) × State :=
  let via := (lbaList lba n).any s.viaHmb
  let t := if via then s.drawn 1 else s
  if via && s.free 7 % 2 = 1 then ((2, 0, 0, []), (t.modCar (fun c => { c with hmb := 0 })).raise 0x5D3 1 [])
  else
    let rs := (List.range n).map (fun i => (i, if s.capOn && decide (s.sideCap ≤ lba + i) then .unreadable else s.sideLba (lba + i)))
    let good := rs.filterMap (fun (e : Nat × SideRead) => match e.2 with | .data b => some (e.1, b) | .zero => some (e.1, zeroBytes 4096) | .unreadable => none)
    ((if good.length = n then (0, 0, n, []) else (3, 0, good.length, [])), t.putLbas a good)

/-- A sidecar write (R375): its data is taken once the write area has room, and it completes when it is acknowledged under R342. The result
is none while it waits. -/
def State.dmaWrite (s : State) (c : Nat) (d : Dma) (a lba : Nat) : Option (Nat × Nat × Nat × Bytes) × State :=
  if s.car.readOnly then (some (4, 0, 0, []), s)
  else if s.capOn && decide (s.sideCap < lba + d.count) then (some (3, 0, 0, []), s)
  else
    let p :=
      if d.app != 0 then (d.app, s)
      else if !s.areaRoom d.count then (0, s)
      else
        let r := s.getBytes 17 a (4096 * d.count)
        let app := r.2.nv.applied + 1
        let bs := blocksOf d.count r.1
        let ents := bs.zipIdx.map (fun (e : Bytes × Nat) =>
          (lba + e.2, ({ data := e.1, acked := false, persisted := false, app, packed := true, ds := none, timecode := none } : WLba)))
        let t := (r.2.modNv (fun n => { n with applied := app })).modCar (fun k =>
          { k with sbuf := ents.foldl (fun (m : NMap WLba) (e : Nat × WLba) => NMap.put m e.1 e.2) k.sbuf })
        (app, (t.sideWrite lba app bs).modCore c (fun y => { y with dma := y.dma.map (fun e => if e = d then { e with app } else e) }))
    let w : WriteCmd := { seq := 0, nsid := 2, slba := lba, nlb := d.count, fua := false, append := false, timecode := none, moved := true, app := p.1 }
    if p.1 = 0 then (none, s)
    else if p.2.writePersisted w then (some (0, 0, d.count, []), p.2)
    else if p.2.creditU + 4096 * d.count ≤ p.2.creditK then
      (some (0, 0, d.count, []), p.2.modCar (fun k =>
        { k with sbuf := (lbaList lba d.count).foldl (fun (m : NMap WLba) (l : Nat) =>
            NMap.modify m l (fun x => if x.app = p.1 then { x with acked := true } else x)) k.sbuf }))
    else (none, p.2)

/-- Record headers of a range in LBA order: of records in authenticated DS whose start LBA lies in it (R373). -/
def State.headersIn (s : State) (lba n : Nat) : Bytes :=
  let find (l : Nat) : Option Bytes :=
    s.rc.dirs.findSome? (fun (e : Nat × List DirEntry) =>
      match NMap.find? s.rc.auth e.1, e.2.find? (fun x => x.start = l && x.count != 0) with
      | some info, some x => some (slice info x.off 64)
      | _, _ => none)
  (lbaList lba n).flatMap (fun l => (find l).getD [])

/-- The outcome of a descriptor, none while it is not decided: status, class or cipher status, units done, IV. -/
def State.dmaOutcome (s : State) (c : Nat) (v : Invoc) (k : Kern) (d : Dma) : Option (Nat × Nat × Nat × Bytes) × State :=
  match d.res with
  | some r => (some r, s)
  | none =>
    match v.binds.find? (fun b => b.win = d.win),
      k.inWindow (some v) d.addr (if d.op = 4 then d.len else 4096 * d.count) (if d.op = 2 then 1 else 2) with
    | some b, some a =>
      let lba := b.lba + d.off
      let take := (k.wins.getD d.win ⟨0, 0, 0⟩).kind = 4
      if d.op = 2 then s.dmaWrite c d a lba
      else if d.op = 1 && !take then
        (if s.pn pCSL_CONFIG = 16 && s.car.hmb = 1 && s.sideCap < lba + d.count then (none, s)
         else let r := s.dmaSide a lba d.count; (some r.1, r.2))
      else if d.op = 1 then (if s.readDone lba d.count then let r := s.dmaTake a lba d.count; (some r.1, r.2) else (none, s))
      else if d.op = 4 then
        (if s.readDone lba d.count then
          let b := (s.headersIn lba d.count).take (d.len / 64 * 64)
          (some (0, 0, b.length, []), s.putBytes 17 a b)
         else (none, s))
      else (none, s)
    | _, _ => (none, s)

/-- A completion entry (R374). -/
def dmaEntry (tag : Nat) (r : Nat × Nat × Nat × Bytes) : Bytes :=
  leBytes 4 tag ++ leBytes 1 r.1 ++ leBytes 1 r.2.1 ++ zeroBytes 2 ++ leBytes 4 r.2.2.1 ++ zeroBytes 4 ++ fitBytes 12 r.2.2.2 ++ zeroBytes 4

/-- DMA_DESCRIPTOR_COMPLETE (R374, R375): the oldest descriptor whose outcome is decided completes: its entry is written while the completion
ring has room, WFI ends, and the next descriptors start; the last one lets an exiting invocation finish (R370). -/
def execDmaDescriptorComplete (core : Nat) (s : State) : Out :=
  .next (
    match s.running core with
    | none => s
    | some (v, k) =>
      let x := s.core core
      if x.cqsz = 0 || x.cqFull || !s.flows 78 then s
      else
        match x.dma.zipIdx.findSome? (fun (e : Dma × Nat) =>
          match s.dmaOutcome core v k e.1 with
          | (some r, t) => some (e.2, e.1.tag, r, t)
          | (none, t) => if e.1.op = 2 && e.1.app = 0 && t.core core != x then some (1024, 0, (0, 0, 0, []), t) else none) with
        | none => s
        | some (i, tag, r, t) =>
          if i = 1024 then t.goOn
          else
            match k.inWindow (some v) (x.cqb + 32 * x.cqt) 32 2 with
            | none => t
            | some a =>
              let u := ((t.pass 78 1 1).putBytes 17 a (dmaEntry tag r)).modCore core (fun y =>
                { y with dma := y.dma.eraseIdx i, cqt := (y.cqt + 1) % y.cqsz, wfi := false })
              let w := if u.flows 77 then State.startDma core 1024 u else u
              let y := w.core core
              let z := if y.exiting.isSome && y.dma.isEmpty && y.sqh = y.sqt then w.finishInvocation core else w
              (z.dropUnwanted.readAll).goOn)

/-! ### The end of an invocation, violations and traps (R370, R376, R377) -/

/-- End an invocation by a trap (R377, R380). -/
def State.trap (s : State) (core code pc : Nat) : State :=
  if (s.running core).isNone then s
  else ((s.raise 0x711 1 []).endInvocation core stKernelTrap code (pc % 2 ^ 32)).dropUnwanted

/-- ECALL_EXIT (R370, R377): with a7 = 0 and a result length within the window the invocation ends once every descriptor it has released has
completed; anything else is a trap with the code of an environment call from U-mode, 8. -/
def execEcallExit (core a7 a0 a1 pc : Nat) (s : State) : Out :=
  .next (
    match s.executing core with
    | none => s
    | some (v, k) =>
      let room := if (k.winOf 3).isSome then v.block.length else 0
      if (s.core core).exiting.isSome then s
      else if a7 != 0 || room < a1 then (s.trap core 8 pc).goOn
      else
        let t := s.modCore core (fun y => { y with exiting := some (a0, a1), pc })
        let y := t.core core
        (if y.dma.isEmpty && y.sqh = y.sqt then t.finishInvocation core else t).goOn)

/-- WFI_WAIT (R361). -/
def execWfiWait (core pc : Nat) (s : State) : Out :=
  .next (if (s.executing core).isSome && (s.core core).exiting.isNone then s.modCore core (fun y => { y with wfi := true, pc }) else s)

/-- The access of a kernel violates the map (R376): 1 fetch, 2 load, 3 store; the violations of doorbells and descriptors arise where the
device checks them. -/
def violates (k : Kern) (v : Invoc) (kind addr : Nat) : Bool :=
  let r := k.rights (some v) addr
  if kind = 1 then !Nat.testBit r 2 else if kind = 2 then !Nat.testBit r 0 else if kind = 3 then !Nat.testBit r 1 else false

/-- WINDOW_VIOLATION (R376, R380). -/
def execWindowViolation (core kind addr : Nat) (s : State) : Out :=
  .next (
    match s.executing core with
    | some (v, k) => if violates k v kind addr then ((s.freeze v.inst addr kind).dropUnwanted).goOn else s
    | none => s)

/-- KERNEL_TRAP (R377). -/
def execKernelTrap (core code pc : Nat) (s : State) : Out := .next (if (s.executing core).isSome then (s.trap core code pc).goOn else s)

/-- INVOCATION_TIME_LIMIT (R377). -/
def execInvocationTimeLimit (core : Nat) (s : State) : Out :=
  .next (
    if (s.executing core).isSome then ((((s.raise 0x711 2 []).endInvocation core stKernelTime 0 0)).dropUnwanted).goOn else s)

/-- CORE_IDLE_POWER_DOWN (R371). -/
def execCoreIdlePowerDown (core : Nat) (s : State) : Out :=
  .next (
    let x := s.core core
    if x.powered && x.run.isNone && x.frozen.isNone then s.modCore core (fun _ => Core.zero) else s)

/-! ### The lock (R278, R372) -/

/-- KLOCK_REQUEST (R278): taken when it is free. -/
def execKlockRequest (core : Nat) (s : State) : Out :=
  .next (
    match s.executing core with
    | some (v, _) => if s.keys.lock = 0 then s.modKeys (fun k => { k with lock := instId v.inst }) else s
    | none => s)

/-- KLOCK_RELEASE (R278): only the owner's, and at once unless its message is running or suspended. -/
def execKlockRelease (core : Nat) (s : State) : Out :=
  .next (
    match s.executing core with
    | some (v, _) => if s.keys.lock = instId v.inst then (s.modKeys (fun k => { k with lockRelease := true })).lockSettle else s
    | none => s)

end Sys2Proof.Machine
end

