-- ==== Sys2Proof/Machine/FifoFaults.lean ====
section
/-! DEFINITION. Pointer faults of the stream FIFOs (R111, R112), what each role does about them (R461), and the restart and sticky registers
(R113). The rebuilding of the take path from the write area and of the spool queue from the DS images serves BOOT as well (R442). -/

namespace Sys2Proof.Machine

/-! ### From the write area: records cut again (R461, R442) -/

/-- LBAs of a zone that the packer has not taken. -/
def State.unpacked (s : State) (z : Nat) : List (Nat × WLba) :=
  s.sp.wbuf.filter (fun (e : Nat × WLba) => zoneOf e.1 = z && !e.2.packed)

/-- Pack what a zone holds unpacked, in LBA order. A zone without a stream context is bound for the packing only, and released as at a close;
`last` says that its record is the last of its take (R73, R442). -/
def State.packZone (s : State) (z : Nat) (last : Bool) : State :=
  let bound := (s.zone z).ctx.isSome
  let t := if bound then s else s.bindCtx z (s.zone z).take
  let u := (t.unpacked z).foldl (fun (v : State) (e : Nat × WLba) => v.packLba z e.1 e.2.data e.2.timecode) t
  if bound then u else (u.closeRec z last).releaseCtx z

/-- Zones that hold unpacked LBAs, in rising order. -/
def State.unpackedZones (s : State) : List Nat :=
  ((s.sp.wbuf.filter (fun (e : Nat × WLba) => !e.2.packed)).map (fun (e : Nat × WLba) => zoneOf e.1)).eraseDups

/-- Pack every zone that holds unpacked LBAs; `marked` are the closed takes whose last record is among what is packed. -/
def State.packAll (s : State) (marked : List Nat) : State :=
  let zs := if s.ingestFlows then s.unpackedZones else []
  zs.foldl (fun (t : State) (z : Nat) =>
    let k := (s.zone z).take
    t.packZone z (marked.contains k && zs.all (fun y => (s.zone y).take != k || decide (y ≤ z)))) s

/-- Headers on their way into DS images: (context, take, flags) of the records not yet in an image, of those in DS not yet assembled, and of
those that go on into one. -/
def State.onTheWay (s : State) : List (Nat × Nat × Nat) :=
  s.sp.recs.map (fun r => (r.ctx, r.take, r.flags))
    ++ (s.sp.cur :: s.sp.filled).flatMap (fun d => d.dir.map (fun e => (e.ctx, e.take, e.flags)))
    ++ s.rc.dirs.flatMap (fun (d : Nat × List DirEntry) =>
         (d.2.filter (fun e => decide (s.sp.nextSeq ≤ e.lastDs d.1))).map (fun e => (e.ctx, e.take, e.flags)))

/-- Advance the sector counter of a context for a take by 2^24 (R461). -/
def State.skipSectors (s : State) (x : Nat × Nat) : State :=
  s.modSp (fun p =>
    match NMap.find? p.ctxs x.1 with
    | some c =>
      if c.take = x.2 then { p with ctxs := NMap.put p.ctxs x.1 { c with next := c.next + 2 ^ 24 } }
      else { p with floors := NMap.upd 0 p.floors (65536 * x.2 + x.1) (fun n => n + 2 ^ 24) }
    | none => { p with floors := NMap.upd 0 p.floors (65536 * x.2 + x.1) (fun n => n + 2 ^ 24) })

/-- The path from ingest to DS assembly loses what it holds: records not wholly in DS images are cut again from the write area (R461). -/
def State.recut (s : State) : State :=
  let way := s.onTheWay
  let firsts := (way.filter (fun x => Nat.testBit x.2.2 1)).map (fun x => x.2.1)
  let lasts := (way.filter (fun x => Nat.testBit x.2.2 2)).map (fun x => x.2.1)
  let t := ((way.map (fun x => (x.1, x.2.1))).eraseDups).foldl State.skipSectors s
  let u := t.modSp (fun p =>
    { p with
      recs := [], ovf := [], ovfWait := [], cur := OpenDs.start 0, filled := [], stream := s.filledStream
      takes := p.takes.map (fun (e : Nat × Take) => (e.1, if firsts.contains e.1 then { e.2 with firstCut := false } else e.2))
      wbuf := p.wbuf.map (fun (e : Nat × WLba) => (e.1, if e.2.ds.isNone then { e.2 with packed := false } else e.2)) })
  let v := u.modRc (fun r =>
    { r with dirs := r.dirs.map (fun (d : Nat × List DirEntry) => (d.1, d.2.filter (fun e => decide (e.lastDs d.1 < s.sp.nextSeq)))) })
  v.packAll lasts

/-! ### The spool queue (R442, R461) -/

/-- Copies of the DS images held: each data DS in sequence order, and behind the last one of a closed group its two parity DS. -/
def State.imageCopies (s : State) : List Copy :=
  s.sp.images.flatMap (fun (e : Nat × DsImage) =>
    { kind := .data, seq := e.1, m := 0 } ::
      (match e.2.group with
       | some f =>
         match NMap.find? s.sp.groups f with
         | some m => if e.1 + 1 = f + m then [{ kind := .parity0, seq := f, m }, { kind := .parity1, seq := f, m }] else []
         | none => []
       | none => []))

/-- The spool queue holds every image again, nothing of it started. -/
def State.fillQueue (s : State) : State :=
  ((s.modFifo 66 (fun f => { f with words := [], lp := 0, m := 0, p := 0, headRead := 0, held := [], dropping := false })).feed 66
    (s.imageCopies.flatMap Copy.packet)).1

/-- Groups not spool-committed are to be recorded again whole: their verified copies, results and locations count no more; copies whose results
are lost count as failed (R442, R461). -/
def State.regroup (s : State) : State :=
  let open_ (f : Nat) : Bool := s.sp.images.any (fun (e : Nat × DsImage) => e.2.group = some f)
  s.modSp (fun p =>
    { p with
      started := [], verified := [], ready := [], recGroup := none, locs := p.locs.filter (fun l => !open_ l.group)
      life := NMap.bumpSat (2 ^ 64 - 1) p.life 2 p.started.length
      fails := p.started.foldl (fun (m : NMap Nat) (x : Started) => NMap.upd 0 m (x.copy.word) (fun v => if v % 16 = 15 then v else v + 1)) p.fails })

/-! ### The other roles (R461) -/

/-- Where the pass under way began: the move to it and its first position. -/
def State.passStart (s : State) (p : Pass) : Option (Target × Nat) :=
  let span := match s.groupSpan p.group with | some x => some x | none => s.searchSpan p.group
  if p.kind ≤ 1 then span.map (fun x => (.position x.1 (s.windowStart x.2.1), s.windowStart x.2.1))
  else if p.kind = 2 then some (.index s.rc.wrap, 0)
  else s.calStretch.map (fun x => (.position x.1 x.2.1, x.2.1))

/-- The read path loses what it holds: the pass under way starts again and is not counted; reading ahead, which nothing waits for, ends. -/
def State.restartPass (s : State) : State :=
  let t := s.clearCapture.modRc (fun r => { r with took := [] })
  match s.rc.pass with
  | none => t
  | some p =>
    if s.ctl.after.isSome then t
    else if s.ctl.tasks.isEmpty then (t.modRc (fun r => { r with pass := none })).serve
    else
      match s.passStart p with
      | some (g, a) =>
        ((t.modRc (fun r => { r with pass := some { p with running := false }, pos := a, runAt := a })).startMove g).modCtl (fun c =>
          { c with stage := if p.kind = 2 then 2 else 1 })
      | none => t

/-- The service pool loses its messages: a kernel's gets status 0x04, the lock is freed, and Ringmaster repeats its own. -/
def State.abandonMessages (s : State) : State :=
  let all := s.keys.msg.toList ++ s.keys.urgent ++ s.keys.suspended.toList ++ s.keys.queue
  let own := all.filter (fun m => decide (m.req < 0x100))
  let norm := own.filter (fun m => !m.urgent)
  let t := (all.filter (fun m => decide (0x100 ≤ m.req))).foldl (fun (u : State) m => u.poolResult m 4 0 [] []) s
  (t.modKeys (fun k =>
    { k with
      msg := none, suspended := none, urgent := own.filter (fun m => m.urgent), queue := norm
      lock := (norm.head?.map (fun m => m.req)).getD 0, lockRelease := !norm.isEmpty })).poolNext

/-- The compute FIFOs lose what they hold: queued invocations are refused, descriptors in progress complete with status 0x02. -/
def State.abandonCompute (s : State) : State :=
  let t := s.comp.queue.foldl (fun (u : State) (v : Invoc) => u.done v.seq stKernelResources) s
  (t.modComp (fun c =>
    { c with queue := [], cores := c.cores.map (fun (e : Nat × Core) =>
      (e.1, { e.2 with dma := e.2.dma.map (fun d => if d.res.isNone then { d with res := some (2, 0, 0, []) } else d) })) })).dropUnwanted

/-- Records in an event, statistics or trace FIFO are lost and counted; a frozen trace is lost and armed again. -/
def State.dropRecords (s : State) (n lost : Nat) : State :=
  let t := s.modFifo n (fun f => { f with drops := min 65535 (f.drops + lost) })
  let u := if n ≤ 87 then t.modEv (fun v => { v with dropped := v.dropped + lost }) else t
  if 92 ≤ n && u.ctl.trace.st = 2 then u.traceArm else u

/-- What the producer and consumer of FIFO `n` do once it has been halted (R461); `lost` packets were in it. -/
def State.roleRestore (s : State) (n lost : Nat) : State :=
  if n ≤ 17 || n = 19 || n = 64 || n = 65 then s.recut
  else if n = 18 || n = 68 || n = 69 then s
  else if 20 ≤ n && n ≤ 35 then s.endCopy
  else if n = 66 then (s.endCopy.regroup).modFifo 66 (fun f => { f with held := [] })
  else if n = 67 then s.endCopy.regroup.fillQueue
  else if (36 ≤ n && n ≤ 60) || n = 79 then s.restartPass
  else if n = 61 || n = 62 || n = 70 || n = 71 then s
  else if n = 72 || n = 73 then s.abandonGen
  else if n = 63 || n = 74 || n = 75 then s.abandonMessages
  else if 76 ≤ n && n ≤ 78 then s.abandonCompute
  else s.dropRecords n lost

/-- A FIFO has been reset, its bit set: its event, with the fill it had, then the halt, and what its role does about it (R111, R461). What its producer
held is no content of the FIFO and waits for the restart, but for DS copies, which the rebuilt spool queue holds. DRAIN takes precedence: the role is
then recovered at BOOT (R463). -/
def State.fifoFault (s : State) (n cause : Nat) (f : Fifo → Fifo) : State :=
  if !fifoExists n || !s.mag.st.alive then s
  else
    let lost := (s.fifo n).packets
    let t := (((s.noteFault 0x0A).modFifo n f).raise (0x400 + n) cause (leBytes 4 (s.fifo n).fill)).modFifo n (fun x => { x with halted := true })
    if s.mag.st = .drain then t else (t.roleRestore n lost).goOn

/-- FIFO_POINTER_MISMATCH (R111, R461). -/
def execFifoPointerMismatch (n : Nat) (s : State) : Out := .next (s.fifoFault n 2 Fifo.mismatch)

/-- FIFO_EXTENDED_BODY_ERROR (R112, R461): only a FIFO whose body extends into the buffer can meet it. -/
def execFifoExtendedBodyError (n : Nat) (s : State) : Out :=
  .next (if fifoExtended n && s.pni pSFQ_EXT_SIZE n != 0 then s.fifoFault n 4 Fifo.bufferError else s)

/-- Closed takes with LBAs not packed: their last record is among what is packed next (R73). -/
def State.closedUnpacked (s : State) : List Nat :=
  ((s.unpackedZones.map (fun z => (s.zone z).take)).eraseDups).filter (fun k => ((NMap.find? s.sp.takes k).map (fun t => t.closed)).getD false)

/-- What moves again behind FIFO `n` once it has been restarted: the spool queue comes back filled; event records that their source held are routed; the
packer takes what the write area holds; verify results take effect where no boundary follows; sidecar writes are programmed; reads that could not be
returned complete (R111, R461). -/
def State.restarted (s : State) (n : Nat) : State :=
  if n = 66 then s.fillQueue
  else if 80 ≤ n && n ≤ 87 then s.routeFifo n
  else if ingestFifos.contains n then s.packAll s.closedUnpacked
  else if n = 67 then (if s.noBoundary then s.actOnResults else s)
  else if n = 18 || n = 68 then s.sideFlush
  else s.readAll

/-- SFQ_RESTART (R111): the FIFO leaves the halted state. -/
def State.fifoRestarted (s : State) (n : Nat) : State :=
  if !(s.fifo n).halted || s.mag.st = .drain then s else (s.fifoRestart n).restarted n

/-- SFQ_RESTART written 1 (R111, R113). -/
def execSfqRestart (w : Option Hdr) (n : Nat) (s : State) : Out := .next (s.regWrite w pSFQ_RESTART n 1 (fun t => t.fifoRestarted n)).goOn

/-- SFQ_STICKY written: each bit written as 1 is cleared (R113). -/
def execSfqStickyClear (w : Option Hdr) (n bits : Nat) (s : State) : Out :=
  .next (s.regWrite w pSFQ_STICKY n bits (fun t => t.fifoClear n bits)).goOn

end Sys2Proof.Machine
end

