-- ==== Sys2Proof/Machine/Health.lean ====
section
/-! DEFINITION. Events and background health: event records (R467, R468), the summary at the end of a second (R469), the persistence of the
journal (R470), Percentage Used (R452) and the health record (R451). -/

namespace Sys2Proof.Machine

/-- EVENT_RECORD (R467 to R470): a packet of a source. Ringmaster and the event FIFOs run in every state but OFF and ISLAND. -/
def execEventRecord (evt cause : Nat) (data : Bytes) (s : State) : Out :=
  .next (if s.mag.st.alive then s.raise (evt % 2048) (cause % 16) data else s)

/-- The summary record of one source: cause 0xF with the suppressed count; it counts neither against the rate nor as a record of the source
(R469). -/
def State.summary (s : State) (evt n : Nat) : State :=
  let notice := Nat.testBit (s.evtCtl evt) 1
  let t := s.journal evt 0xF notice (leBytes 4 (min n (2 ^ 32 - 1)))
  if notice then t.asyncEvent 7 0 0xC2 else t

/-- EVENT_RATE_SECOND_END (R469, R472): the sources whose records were suppressed are summed up, in the order of their numbers, and the next
second begins with the EVT_RATE then in effect. -/
def execEventRateSecondEnd (s : State) : Out :=
  .next (
    if s.mag.st.alive then
      (s.ev.suppSec.foldl (fun t (e : Nat × Nat) => t.summary e.1 e.2) s).modEv (fun v =>
        { v with inSec := [], suppSec := [], rate := s.pn pEVT_RATE })
    else s)

/-- Entries on their way into the map journal already. -/
def State.eventsQueued (s : State) : List Nat :=
  s.car.journal.flatMap (fun c => c.recs.filterMap (fun r => match r with | .event e => some e.seq | _ => none))

/-- Hand the entries not yet persisted to the map journal, each as a record (R470). -/
def State.persistEvents (s : State) : State :=
  let queued := s.eventsQueued
  let es := s.ev.unsaved.filter (fun e => !queued.contains e.seq)
  if es.isEmpty then s else s.mapCommit (es.map .event) []

/-- EVENT_JOURNAL_PERSIST (R470). -/
def execEventJournalPersist (s : State) : Out := .next (if s.mag.st.alive && s.mag.st != .drain then s.persistEvents.goOn else s)

/-- PERCENTAGE_USED_COMPUTE (R452). -/
def execPercentageUsedCompute (s : State) : Out := .next (if s.mag.st.alive then s.lifeCompute else s)

/-- HEALTH_RECORD_WRITE (R451): due once 600 s of head time have passed since the last one. -/
def execHealthRecordWrite (s : State) : Out :=
  .next (
    if s.mag.st.alive && s.mag.st != .drain && decide (s.ev.headSaved + 600 * 32768 ≤ s.ev.headTicks) then s.writeHealth else s)

end Sys2Proof.Machine
end

