-- ==== Sys2Proof/Machine/Rails.lean ====
section
/-! DEFINITION. The line, the rails and DRAIN: what is lost with power (R17), line presence and loss (R405), rail sequencing (R406 to R409),
DRAIN and its end (R414 to R416, R24, R26), the end of ISLAND (R422) and Chervil's start (R417). -/

namespace Sys2Proof.Machine

/-! ### What is lost -/

/-- The controller after a loss of its memory: as R512 states, defaults of the features (R353); the counters of SMART / Health and the Error log are
kept. `link` says that the link stays up, with CSTS.CFS. -/
def Nvme.ramLost (n : Nvme) (link : Bool) : Nvme :=
  { Nvme.zero with
    link := if link then n.link else none, linkPower := if link then n.linkPower else 0, cfs := link && n.cfs
    errLog := n.errLog, errCount := n.errCount, unitsRead := n.unitsRead, unitsWritten := n.unitsWritten, readCmds := n.readCmds
    writeCmds := n.writeCmds, powerCycles := n.powerCycles, powerOn := n.powerOn, unsafeShut := n.unsafeShut, mediaErrors := n.mediaErrors
    fwSlot2 := n.fwSlot2 }

/-- The take path without what only memory held. -/
def Spool.ramLost (p : Spool) : Spool :=
  { p with
    wbuf := [], ctxs := [], floors := [], recs := [], ovf := [], ovfWait := [], cur := OpenDs.start 0, filled := [], latch := 0, ffHist := [], fsyncOk := false
    ffRun := false, vff := 0, vreq := 0, started := [], groupFirst := none, groupCount := 0, verified := [], ready := [], recGroup := none
    wrapEnd := false, carry := false, fails := [], carried := false, skip := 0, crawl := none, closing := false, draining := false, gen := none
    stageFull := false, retireRun := [], uncommitted := [], sinceBoot := [] }

/-- The control engine without what only memory held; position and radii come back from the retention RAM at BOOT. `rails` says that the transport
rails stay on; with them off both brake outputs fall to their pull-downs (R214, R494). -/
def Ctl.ramLost (c : Ctl) (rails : Bool) : Ctl := { Ctl.zero with railsUp := rails && c.railsUp, scb := !rails || c.scb }

/-- The keys without what only memory held: every key slot is empty (R256); the lockout is Chervil's (R268). -/
def Keys.ramLost (k : Keys) : Keys := { Keys.zero with lockout := k.lockout }

/-- The Carousel without what only memory held: commits not persisted and the buffer. -/
def Car.ramLost (c : Car) : Car := { c with sbuf := [], journal := [], scrub := [], hmb := 0, bufBad := false }

/-- Memory is lost: with the rails (R17), or at a restart with the rails left on (R438, R462). Flash, NOR, fuses, the retention RAM and Chervil's
limits stay; at a restart the journal entries not yet persisted stay too, for their numbers have been given (R470). -/
def State.ramLost (s : State) (rails : Bool) : State :=
  { s with
    nv := s.nv.ramLost rails, sp := s.sp.ramLost, fifos := [], rc := { ReadCh.zero with hmcFlt := s.rc.hmcFlt }, ctl := s.ctl.ramLost rails
    keys := s.keys.ramLost, car := s.car.ramLost, comp := { kerns := [], cores := [], queue := [] }, cache := Cache.zero
    nor := { s.nor with ops := [], imp := [], impStat := (0, 0, 0), impBusy := 0 }
    ev := { s.ev with count := [], supp := [], inSec := [], suppSec := [], unsaved := if rails then s.ev.unsaved else [] }
    staged := [], pend := [], wrote := [] }

/-! ### Chervil's events -/

/-- An event that Chervil decides: raised at once while Ringmaster runs, else kept for the next BOOT. -/
def State.chvRaise (s : State) (evt cause : Nat) (data : Bytes) : State :=
  if s.pw.mgt && s.mag.st.alive then s.raise evt cause data else s.modPw (fun p => { p with owed := p.owed ++ [(evt, cause, data)] })

/-! ### Rails (R406 to R408) -/

/-- The rail whose PGOOD power-up waits for: the highest one enabled, none while no power-up step runs. -/
def State.awaited (s : State) : Option Nat :=
  if s.mag.st != .boot || s.pw.mgt || s.pw.refEn || s.pw.retry then none
  else (List.range 10).reverse.find? (fun n => Nat.testBit s.pw.en n)

/-- Every rail off, 11 down to 0, then REF_EN: the MGT domain is in reset, and memory is lost (R408). Engaged brakes and short-circuit braking need
no power. -/
def State.railsOff (s : State) : State :=
  (s.modPw (fun p => { p with en := 0, pgood := 0, refEn := false, mgt := false, retry := false, test := .idle, testPin := false })).ramLost false

/-- Power-up begins at its first step (R407). A power-up ends a halt and a held fault (R431, R462). -/
def State.powerUp (s : State) : State :=
  (s.modMag (fun g => { g with st := .boot, ctx := .none, halted := false, heldFault := false, mismatch := none, restart := 0, step := 0 })).modPw
    (fun p => { p with en := 1, pgood := 0, refEn := false, mgt := false, retry := false })

/-- The rails are off: power-up again with the line present, else ISLAND (R24, R26, R415). -/
def State.afterRails (s : State) : State :=
  if s.pw.line then s.powerUp else s.modMag (fun g => { g with st := .island, ctx := .none, restart := 0 })

/-- A failed range check is counted per input (0 LINE_SNS, 1 BANK_SNS, 2 temperature, 3 humidity, 4 shock); the previous value is kept (R418). -/
def State.badInput (s : State) (k : Nat) : State := s.modPw (fun p => { p with badInputs := NMap.bump p.badInputs k 1 })

/-- LINE_PRESENT (R405, R407, R24), with the sample of LINE_SNS in mV, which lies at or above 35.0 V and passes the range check (R418): in OFF and
ISLAND power-up starts; elsewhere the line is only noted. -/
def execLinePresent (mv : Nat) (s : State) : Out :=
  .next (
    if !s.pw.aon then s
    else if 64000 < mv then s.badInput 0
    else if mv < 35000 then s
    else if s.pw.line then s.modPw (fun p => { p with lineMv := mv })
    else
      let t := (s.modPw (fun p => { p with line := true, lineMv := mv })).chvRaise 0x780 3 []
      if s.mag.st = .off || s.mag.st = .island then t.powerUp else t)

/-- LINE_OVERVOLTAGE (R405). -/
def execLineOvervoltage (s : State) : Out := .next (if s.pw.aon && s.pw.line then s.chvRaise 0x780 2 [] else s)

/-- POWER_UP_STEP (R407): the awaited PGOOD has risen, and 100 µs later the next rail is enabled; after rail 9 the reference. -/
def execPowerUpStep (pgood : Bool) (s : State) : Out :=
  .next (
    match s.awaited with
    | none => s
    | some n =>
      if !pgood then s
      else
        s.modPw (fun p =>
          { p with
            pgood := p.pgood ||| 2 ^ n
            en := if n < 9 then p.en ||| 2 ^ (n + 1) else p.en
            refEn := decide (9 ≤ n) }))

/-- PGOOD_TIMEOUT (R407, R408): the rails go off again, and the sequence waits 10 s for its retry. -/
def execPgoodTimeout (rail : Nat) (s : State) : Out :=
  .next (
    if s.awaited != some rail then s
    else
      (((s.railsOff).chvRaise 0x783 1 (leBytes 1 rail)).ringAdd 7 (leBytes 1 rail)).modPw (fun p => { p with retry := true }))

/-- POWER_UP_RETRY (R407): for as long as the line stays present. -/
def execPowerUpRetry (s : State) : Out := .next (if s.mag.st = .boot && s.pw.retry && s.pw.line then s.powerUp else s)

/-- REFERENCE_SETTLED (R407): the PLLs lock and the MGT domain leaves reset. -/
def execReferenceSettled (s : State) : Out :=
  .next (if s.mag.st = .boot && s.pw.refEn && !s.pw.mgt then s.modPw (fun p => { p with mgt := true }) else s)

/-! ### DRAIN (R414, R416, R457, R459) -/

/-- The magazine temperature lies within CHV_TEMP_MIN to CHV_TEMP_MAX with a valid sample (R413). -/
def State.tempInRange (s : State) : Bool :=
  s.pw.tempOk && decide (10 * s.pv pCHV_TEMP_MIN 0 ≤ s.pw.temp) && decide (s.pw.temp ≤ 10 * s.pv pCHV_TEMP_MAX 0)

/-- The condition of R456 that does not hold now, as the cause of EVT 0x7F0: 2 the last bank test failed, 3 the temperature, 1 the credit not in
force; 0 when they all hold (R456, R471). -/
def State.lossWhy (s : State) : Nat :=
  if s.pw.failed then 2 else if !s.tempInRange then 3 else if s.creditK = 0 || s.creditK < s.creditU then 1 else 0

/-- The loss of this fault class is latched in the retention RAM: U per namespace and the credit in force (R420, R457). -/
def State.latchLoss (s : State) (cls : Nat) : State :=
  (s.noteFault cls).modPw (fun p =>
    { p with lossU := (unpersisted s.sp.wbuf, unpersisted s.car.sbuf), lossCredit := p.credit, lossClass := (cls, s.lossWhy) })

/-- A bank test is interrupted: BANK_TEST goes low, and the test counts neither way (R411). -/
def State.interruptTest (s : State) : State :=
  if s.pw.test = .idle then s else (s.modPw (fun p => { p with test := .idle, testPin := false })).chvRaise 0x781 4 []

/-- In DRAIN the read-channel and compute domains are powered down at once (R17). -/
def State.powerDownDrain (s : State) : State :=
  (s.modRc (fun r => { r with awake := [] })).modComp (fun c => { c with cores := c.cores.map (fun (e : Nat × Core) => (e.1, { e.2 with powered := false })) })

/-- DRAIN begins (R414): no command is fetched or completed from here on, nor are writes whose data has not been moved applied; what runs on the tape
ends with the fast stop; what was acknowledged and is neither in a DS image nor in a flush extent goes into flush extents; of the NOR writes
only the copy under way is finished. -/
def State.startDrain (s : State) (cls : Nat) : State :=
  let a := ((s.latchLoss cls).enter .drain).modNv (fun n =>
    { n with rdy := false, link := none, writes := [], held := [], unsafeShut := if n.shst = 2 then n.unsafeShut else n.unsafeShut + 1 })
  let b := ((a.endCopy.dropInvocations.endSession.dropGen).modMag (fun g => { g with restart := 0 })).modNor (fun n =>
    { n with ops := n.ops.filter (fun o => (n.ops.find? (fun x => x.area = o.area)) = some o) })
  let c := (b.modSp (fun p => { p with draining := false, closing := false })).modRc (fun r => { r with pass := none, plain := [], recs := [] })
  let d := (c.modCtl (fun k => { k with tasks := [], stage := 0, aim := none, begun := false, turn := false })).powerDownDrain
  let e :=
    if d.ctl.tsub = .dynamic || d.ctl.tsub = .braked then d
    else if d.ctl.tsub = .releasing then d.modCtl (fun k => { k with rel := k.rel.map (fun r => { r with goal := .drain }) })
    else if d.ctl.tsub.moves then
      (d.stopTape .drain true).modCtl (fun k =>
        { k with links := k.links.map (fun (x : Nat × Link) => (x.1, if x.1 < 2 && x.2.on then { x.2 with mode := x.2.mode ||| 2 } else x.2)) })
    else d.letGo .drain
  (e.flushWhere (fun _ w => w.acked)).drainLook

/-- Line loss as a trigger of R24: from BOOT the rails go off, a NOR copy under way being finished (R431); from SAFE to SERVICE a DRAIN of this fault
class begins; a DRAIN under way goes on. -/
def State.loseLine (s : State) (cls : Nat) : State :=
  let t := s.interruptTest
  if s.mag.st = .boot then (t.railsOff).afterRails
  else if s.mag.st = .safe || s.mag.st.working then t.startDrain cls
  else t

/-- LINE_LOSS (R405, R409, R414, R431). -/
def execLineLoss (s : State) : Out :=
  .next (
    if !s.pw.aon || !s.pw.line then s
    else (((s.modPw (fun p => { p with line := false })).chvRaise 0x780 1 []).ringAdd 5 []).loseLine 1)

/-- Chervil switches every rail off before the seal: the drain is incomplete, which it logs (R416). -/
def State.cutRails (s : State) (cls : Nat) : State :=
  let t := if s.mag.st = .drain then s.settleLoss.modPw (fun p => { p with lossClass := (cls, p.lossClass.2) }) else s.latchLoss cls
  ((((t.ringAdd 6 []).modPw (fun p => { p with drain := 2 })).modNv (fun n =>
    { n with unsafeShut := if s.mag.st = .drain || n.shst = 2 then n.unsafeShut else n.unsafeShut + 1 })).railsOff).afterRails

/-- The seal record has persisted. -/
def State.drainSealed (s : State) : Bool := s.mag.st = .drain && s.car.nv.sealed.isSome && s.ackedSafe

/-- PGOOD_LOST (R409, R459): on rails 3, 10 and 11 a DRAIN as for line loss; without any other rail no drain is possible, and Chervil switches every
rail off at once. -/
def execPgoodLost (rail : Nat) (s : State) : Out :=
  .next (
    if !s.pw.aon || !(Nat.testBit s.pw.en rail && Nat.testBit s.pw.pgood rail) then s
    else
      let t := ((s.modPw (fun p => { p with pgood := p.pgood - 2 ^ rail })).chvRaise 0x783 2 (leBytes 1 rail)).ringAdd 7 (leBytes 1 rail)
      let needed := rail != 3 && decide (rail < 10)
      if s.mag.st = .boot then t.loseLine 4
      else if !needed then t.loseLine 3
      else if s.drainSealed then t
      else (t.interruptTest).cutRails (if 4 ≤ rail && rail ≤ 7 then 5 else 4))

/-- DRAIN_COMPLETE (R414, R415, R24, R26): the seal record has persisted and the transport is BRAKED. -/
def execDrainComplete (s : State) : Out :=
  .next (
    if s.drainSealed && s.ctl.tsub = .braked then ((s.settleLoss.modPw (fun p => { p with drain := 1 })).railsOff).afterRails else s)

/-- BANK_BELOW_MINIMUM (R214, R416): before the seal every rail goes off; after it a stop still under way becomes an emergency stop. -/
def execBankBelowMinimum (s : State) : Out :=
  .next (
    if s.mag.st != .drain then s
    else
      let t := if s.ctl.tsub.moves then s.emergency 3 else s
      if s.drainSealed then t else t.cutRails 2)

/-! ### ISLAND and OFF (R417, R420, R422) -/

/-- The content of the retention RAM is lost, but for the drain status, which Chervil has written (R420, R422). -/
def Power.retentionLost (p : Power) : Power :=
  { p with
    ring := [], hist := [], retFails := none, retRadius := none, retPos := none, rtcOk := false, lossU := (0, 0), lossCredit := 0, owed := []
    retLost := true }

/-- BANK_BELOW_ISLAND_MINIMUM (R422, R24). -/
def execBankBelowIslandMinimum (s : State) : Out :=
  .next (
    if s.mag.st != .island then s
    else
      ((((s.enter .off).modPw (fun p => { p.retentionLost with aon := false, crystal := false, line := false })).modKeys (fun k =>
        { k with lockout := 0 })).modCar (fun c => { c with age := 0, ageFrac := 0 })))

/-- AON_PORST_N_RISE (R417, R420): Chervil starts on its internal oscillator with nothing in the retention RAM and no valid clock. -/
def execAonPorstNRise (s : State) : Out :=
  .next (
    if s.mag.st != .off || s.pw.aon then s
    else
      (s.modPw (fun p =>
        { p.retentionLost with
          aon := true, crystal := false, rtc := 0, tempOk := false, tempSeen := false, tempBad := 0, badInputs := [], ringLost := 0 })).modCar
        (fun c => { c with age := 0, ageFrac := 0 }))

/-- CRYSTAL_STABLE (R417). -/
def execCrystalStable (s : State) : Out := .next (if s.pw.aon then s.modPw (fun p => { p with crystal := true }) else s)

end Sys2Proof.Machine
end

