-- ==== Sys2Proof/Machine/Boot.lean ====
section
/-! DEFINITION. BOOT (R429, R430): the ten steps, commissioning (R259, R428), the replay of the journals (R303), and the recovery of the take
state (R442, R457). -/

namespace Sys2Proof.Machine

/-- Set SAFE cause bit `k`. -/
def State.cause (s : State) (k : Nat) : State := s.modMag (fun g => { g with why := g.why ||| 2 ^ k })

/-- A SAFE cause has been set. -/
def State.hasCause (s : State) : Bool := s.mag.why != 0

/-- Every journal commit queued so far counts as persisted: BOOT ends only once they have (R271, R303). -/
def State.settleJournal (s : State) : State :=
  s.modCar (fun c => { c with nv := (c.journal.flatMap (fun j => j.recs)).foldl NvMap.apply c.nv, journal := [] })

/-! ### Steps 1 and 2 -/

/-- Step 1 (R429, R508): memory holds nothing any more; every parameter is back at its reset value; the ring of counts since BOOT starts
again. The journal's numbers go on (R470). -/
def State.bootStart (s : State) (env : BootEnv) : State :=
  let warm := s.mag.restart != 0
  let t := if warm then s.ramLost true else s
  let u : State := { t with params := [], staged := [], pend := [], wrote := [], presets := [] }
  let v := (u.modMag (fun g => { g with ticks := 0, why := 0, step := 1, ctx := .none, dflt := .none, cause := if warm then 3 else s.pw.drain })).modPw
    (fun p =>
      { p with
        credit := 0, force0 := false, passed := false, failed := false, everPassed := false, cap := (0, 1), esr := (0, 1), test := .idle
        testPin := false, shock := 0, tj := env.tempDeci, tjPeak := env.tempDeci })
  let w := if warm then v else v.modEv (fun e => { e with jnl := v.car.nv.events, seq := v.car.nv.events.head?.elim 0 (fun x => x.seq), unsaved := [] })
  (w.modNv (fun n => { n with powerCycles := n.powerCycles + 1 })).loadSlot 256 kWrap 0

/-- Step 2, the patch package set (R440, R441): the copy written last first; the fuses are blown before it is applied. -/
def State.bootPatch (s : State) : State :=
  let c := s.copies 5
  let stored := (if c.newer = some 1 then [c.c1, c.c0] else [c.c0, c.c1]).filterMap id
  let t := s.modNv (fun n => { n with fwSlot2 := stored.head?, patchLevel := 0 })
  match stored.find? (packageOk s.nor.fuses), stored.head? with
  | some b, _ => (t.modNor (fun n => { n with fuses := max n.fuses (leAt b 7 1) })).modNv (fun n => { n with patchLevel := leAt b 0x0C 4 })
  | none, some b => t.raise 0x7E2 (if !packageFields b then 2 else if !packageSigned b then 1 else 3) []
  | none, none => t

/-- Step 2 (R506): a NOR that fails identification is neither read nor written. -/
def State.bootNor (s : State) (env : BootEnv) : State :=
  let t := s.modNor (fun n => { n with dead := !env.norOk, profile := none, profStat := 0 })
  if env.norOk then t.bootPatch else t.cause 0

/-! ### Step 3 -/

/-- Both copies of an area hold `b` from here on. -/
def State.repairTo (s : State) (area : Nat) (b : Bytes) : State :=
  let c := s.copies area
  if c.c0 = some b && c.c1 = some b then s else s.putCopies area b true true

/-- Step 3 (R427, R429, R433, R445): an event for each invalid copy; the newer valid one is applied, and the other repaired. -/
def State.bootProfile (s : State) : State :=
  let c := s.copies 0
  let f0 := s.copyFault c.c0
  let f1 := s.copyFault c.c1
  let note (t : State) (f : Option (Nat × Nat)) : State :=
    match f with
    | some (k, r) => t.raise 0x7E0 k (if k = 3 then leBytes 1 r else [])
    | none => t
  let t := note (note s f0) f1
  match newestCopy (fun b => (s.copyFault (some b)).isNone) recSeq c with
  | none => t.cause 0
  | some (i, b) =>
    let u := (t.repairTo 0 b).modNor (fun n =>
      { n with profile := some b, profStat := f0.isNone.toNat + 2 * f1.isNone.toNat + 4 * i + 2 ^ 32 * recSeq b })
    let v : State := { u with presets := presetsOf (profileMap (profileEntries b)) }
    v.modMag (fun g => { g with dflt := if leAt b 0x20 1 = 0 then .camera else .dock })

/-! ### Step 4 -/

/-- Commissioning (R259, R428): instance number and master key from the TRNG, an empty Carousel, the first root record. -/
def State.commission (s : State) : State :=
  let bs := s.trngBytes 36
  let inst := max 1 (leAt bs 0 4)
  let k : KeyRec := { inst, gen := 1, cur := kwWrap kWrap (leBytes 4 inst ++ leBytes 4 1 ++ bs.drop 4), prev := zeroBytes 48, owner := zeroBytes 40,
                      escrow := zeroBytes 48, ceiling := 0, fails := 0, lockLen := 0, seq := 1 }
  let t := ((s.drawn 1).putCopies 1 k.bytes true true).modCar (fun c =>
    { c with
      dies := [], blocks := [], blocksPerDie := 0, spares0 := 0, spares := 0, lostStage := 0, lostSide := 0, units := [], pseq := 0, pceil := none
      boots := 1, exts := [], tail := 0, nv := { NvMap.zero with events := c.nv.events }, sinceCkpt := 0, readOnly := false, orphans := 0
      log := [], sealed := false })
  t.putCopies 2 (t.rootBytes (2 ^ 32)) true true

/-- The lockout a BOOT finds (R268): after OFF it runs again whole; ended in the retention RAM, its length is cleared. -/
def State.bootLockout (s : State) : State :=
  let k := s.krec
  if k.lockLen = 0 then s
  else if s.pw.retLost then s.modKeys (fun y => { y with lockout := k.lockLen * 32768 })
  else if s.keys.lockout = 0 then s.modKeys (fun y => { y with krec := some { k with lockLen := 0 }, recDirty := true })
  else s

/-- Step 4 (R254 to R260, R268, R511): the key record in force, its copies alike; slots loaded; the IV counter at the ceiling, and the next one
on its way. A copy that is whole but does not unwrap raises EVT 0x7C3 (R258). A failure count and a lockout held in the retention RAM stand. -/
def State.bootKeys (s0 : State) : State :=
  let bad := [(s0.copies 1).c0, (s0.copies 1).c1].countP (fun c => c.any (fun b => keyCopyWhole b && !keyCopyUnwraps b))
  let s := (List.range bad).foldl (fun u _ => u.raise 0x7C3 1 []) s0
  let t := if (keyRecOf (s.copies 1)).isNone then s.commission else s
  match keyRecOf (t.copies 1) with
  | none => t
  | some k =>
    let held := match t.pw.retFails with | some r => { k with fails := r.1, lockLen := r.2 } | none => k
    let u := (t.repairTo 1 k.bytes).modKeys (fun y =>
      { y with krec := some held, recDirty := t.pw.retFails.isSome, iv := k.ceiling, ceiling := none, ceilingBusy := some (k.ceiling + 2 ^ 20)
               ivDead := false })
    u.loadRecordSlots.bootLockout

/-- A BOOT that finds a previous master key completes the rotation (R271): every entry is wrapped under the current one, journalled, and the
record written without the previous one. -/
def State.bootRotation (s : State) : State :=
  let k := s.krec
  if allZero k.prev then s
  else
    let t := (s.rewrapKeys ((unwrapMaster kWrap k.prev).getD []) s.masterKey).settleJournal
    let n := { k with prev := zeroBytes 48, seq := (k.seq + 1) % 2 ^ 32 }
    ((t.putCopies 1 n.bytes true true).modKeys (fun y => { y with krec := some n })).raise 0x7C5 1 []

/-! ### Step 5 -/

/-- The valid record of an area, the copies made alike; EVT 0x7E4 when one was invalid or is repaired. -/
def State.bootRecord (s : State) (ident : Nat) (pre : String) (area evt : Nat) : Option Bytes × State :=
  let c := s.copies area
  match newestCopy (devRecordOk ident pre) recSeq c with
  | some (_, b) => (some b, if c.c0 = c.c1 then s else (s.repairTo area b).raise 0x7E4 evt [])
  | none => (none, s.raise 0x7E4 evt [])

/-- Radii of a calibration record (R182, R437). -/
def recordRadius (b : Bytes) : Option (Nat × Nat) :=
  ((recEntries b).find? (fun e => e.pid = pCTL_RADIUS)).map (fun e => (e.vals.getD 0 0, e.vals.getD 1 0))

/-- Position and radii as the retention RAM holds them, else the radii of the record (R182, R205, R207). -/
def State.bootPosition (s : State) (radius : Option (Nat × Nat)) : State :=
  let r := match s.pw.retRadius with | some x => some x | none => radius
  let t := s.modCtl (fun c => { c with radius := r.getD (0, 0), radiusOk := r.elim false (fun x => x.1 != 0 && x.2 != 0), wrapSel := s.sp.wrap })
  match s.pw.retPos with
  | some (p, a, b) =>
    (t.modCtl (fun c =>
      { c with
        held := some (p, a, b), lastTpn := p / 80
        enc := NMap.put (NMap.put c.enc 0 { s.encoder 0 with count := a }) 1 { s.encoder 1 with count := b } })).modRc (fun x => { x with pos10 := p })
  | none => t

/-- Step 5 (R429, R437, R451): calibration and health over the profile's values. A restart with the rails left on keeps the counters it has. -/
def State.bootRecords (s : State) : State :=
  let (cal, t) := s.bootRecord 0x52434855 "UHCR" 3 1
  let u : State := match cal with
    | some b => { t with presets := overPresets t.presets (recEntries b) }
    | none => t
  let (health, v) := (u.bootPosition (cal.bind recordRadius)).bootRecord 0x52484855 "UHHR" 4 2
  if s.mag.cause = 3 then v
  else
    match health with
    | some b => v.applyHealth b
    | none =>
      (v.modSp (fun p => { p with retired := [], chan := [], perWrap := [], life := [] })).modEv (fun e =>
        { e with headTicks := 0, headSaved := 0, travel := [], lost := (0, 0), lastFault := (0, 0) })

/-! ### Step 6 -/

/-- Die blocks of each die when the Carousel is first used: as few as hold the SLC-mode capacity beside the spares (log 53). -/
def State.blocksNeeded (s : State) : Nat :=
  let n := s.blockBytes * s.dieCount * (100 - s.pn pCSL_SPARE_PCT)
  if n = 0 then 0 else (s.slcBytes * 100 + n - 1) / n

/-- The dies of the configuration; at their first use every die block is free, and CSL_SPARE_PCT of them are spares (R313). -/
def State.bootDies (s : State) : State :=
  let t := s.modCar (fun c => { c with perChan := diesOf (s.pn pCSL_CONFIG) })
  if t.car.blocksPerDie != 0 then t
  else
    let b := t.blocksNeeded
    let n := t.dieCount * b * s.pn pCSL_SPARE_PCT / 100
    t.modCar (fun c => { c with blocksPerDie := b, spares0 := n, spares := n, nv := { c.nv with spares := n } })

/-- Step 6 but for the link, which trains by itself (R429, R430, R505): buffer, ONFI and die probe while no cause is set. -/
def State.bootTrain (s : State) (env : BootEnv) : State :=
  if s.hasCause then s
  else if !env.ddrOk then s.cause 2
  else
    let t := s.bootDies
    let u := (env.onfiFail.eraseDups.filter (fun c => decide (c < 16))).foldl (fun v c => v.raise (0x5C0 + c) 1 []) t
    if env.onfiFail.any (fun c => decide (c < 16)) || env.diesAnswer < t.car.perChan then u.cause 1 else u

/-- The bank test of BOOT starts once the profile has been applied (R410, R430). -/
def State.bootTest (s : State) : State :=
  if Nat.testBit s.mag.why 0 then s else s.modPw (fun p => { p with test := .charging, testAge := 0 })

/-! ### Step 7 -/

/-- The map as the journals hold it (R300, R303): units they map are whole; every other unit is an orphan. Retirements not journalled count no
more. The journals are open again; appending to the take log goes on at the next unit (log 54). -/
def State.bootReplay (s : State) : State :=
  let nv := s.car.nv
  let keep := s.car.units.filter (fun (e : Nat × CUnit) => nv.units.contains e.1)
  let lost := if nv.sealed.isSome then 0 else s.car.units.length - keep.length
  let retired (k : Nat) : Bool := (NMap.find? nv.blocks k).elim false (fun v => v.use = 3)
  let t := s.modCar (fun c =>
    { c with
      units := keep.map (fun (e : Nat × CUnit) => (e.1, { e.2 with left := 0, persisted := true, journalled := true, mapped := true }))
      blocks := c.blocks.map (fun (e : Nat × Block) =>
        (e.1, if e.2.use = 3 && !retired e.1 then { e.2 with use := 2 } else if e.2.use = 1 then { e.2 with use := 2 } else e.2))
      dies := nv.dies.map (fun (e : Nat × Die) => (e.1, { e.2 with fails := 0, offset := 0 }))
      exts := nv.exts, spares := nv.spares, readOnly := nv.readOnly, tail := (nv.tail + 2 ^ 20 - 1) / 2 ^ 20 * 2 ^ 20, orphans := lost, sealed := false
      nv := { nv with sealed := none }, hmb := 0 })
  let u := t.car.blocks.foldl (fun (v : State) (e : Nat × Block) => v.freeIfEmpty (e.1 / 65536) (e.1 % 65536)) t
  let v := u.modKeys (fun k => { k with macs := nv.macs, macCur := nv.macCur, medias := nv.medias, mediaNext := nv.mediaNext })
  let w := v.bootRotation.loadMacSlots
  if lost = 0 then w else w.raise 0x5D5 1 (leBytes 4 lost)

/-- The age clock after OFF: from the newest seal or checkpoint (R421). -/
def State.bootAge (s : State) : State :=
  if s.pw.retLost then s.modCar (fun c => { c with age := c.nv.sealed.elim c.nv.ckAge (fun x => x.1), ageFrac := 0 }) else s

/-- Step 7 (R303, R428, R429). A commissioning BOOT has its first root record already; at any other one the sequences start at the old ceiling, and
PROGRAM_SEQUENCE_CEILING writes the next record. -/
def State.bootCarousel (s : State) (env : BootEnv) (first : Bool) : State :=
  if s.hasCause then s
  else
    let c := s.copies 2
    let t := if c.c0.any rootValid && c.c1.any rootValid then s else s.raise 0x7E4 3 []
    match s.rootRec with
    | none => t.cause 3
    | some b =>
      if !env.journalsOk then t.cause 3
      else
        let u := if first then t.modCar (fun k => { k with pceil := some (2 ^ 32) })
                 else t.modCar (fun k => { k with boots := leAt b 0x0C 4 + 1, pseq := leAt b 0x10 8, pceil := none })
        (env.mirrorLost.eraseDups.filter (fun j => j = 1 || j = 2)).foldl (fun (t : State) j => t.raise 0x5D4 j []) u.bootAge.bootReplay

/-! ### Step 8 -/

/-- The event a ring entry stands for: number, cause, data (R420, R425). The spec gives a lid entry no event number: it is a free value (log 2). -/
def State.ringEvent (s : State) (r : Ring) : Nat × Nat × Bytes :=
  match r.kind with
  | 1 => (0x793, 1, r.data)
  | 2 => (0x791, leAt r.data 3 1, r.data.drop 2)
  | 3 => (0x792, leAt r.data 3 1, r.data.drop 2)
  | 4 => (s.free 11 % 65536, s.free 11 / 65536 % 256, r.data)
  | 5 => (0x780, 1, [])
  | 7 => (0x783, 2, r.data)
  | _ => (0x784, 2, [])

/-- Copy one ring entry into the event journal, with its own time and state. -/
def State.copyRing (s : State) (r : Ring) : State :=
  let (evt, cause, data) := s.ringEvent r
  let e : JEntry := { seq := s.ev.seq + 1, rtc := r.rtc, evt, notice := Nat.testBit (s.evtCtl evt) 1, cause, st := r.st, ms := 0, data := fitBytes 12 data }
  let cap := s.pn pEVT_JNL_ENTRIES
  (s.drawn (if r.kind = 4 then 1 else 0)).modEv (fun v =>
    { v with
      seq := v.seq + 1, jnl := (e :: v.jnl).take cap, unsaved := v.unsaved ++ [e]
      lostOld := if cap ≤ v.jnl.length then v.lostOld + 1 else v.lostOld })

/-- Step 8 (R407, R416, R421, R508): the ring entries written since the last copy, but for the incomplete drain, which the drain status stands for; the
events Chervil decided without Ringmaster; what OFF lost; a thermal trip. -/
def State.bootRing (s : State) : State :=
  let a := (s.pw.ring.filter (fun r => !r.copied && r.kind != 6)).foldl State.copyRing s
  let b := s.pw.owed.foldl (fun (t : State) (x : Nat × Nat × Bytes) => t.raise x.1 x.2.1 x.2.2) a
  let c := if s.mag.cause = 2 then b.raise 0x784 2 [] else b
  let d := if s.pw.retLost then (c.raise 0x790 1 []).raise 0x790 2 [] else c
  let e := if s.pw.tripped then d.raise 0x786 3 [] else d
  e.modPw (fun p => { p with ring := p.ring.map (fun r => { r with copied := true }), owed := [], retLost := false, tripped := false })

/-! ### Step 9 (R442) -/

/-- Runs of persisted LBAs of a zone, relative to its start, lowest first: of DS images and of flush extents. -/
def State.zoneRuns (s : State) (z : Nat) : List (Nat × Nat) :=
  let imgs := s.car.nv.images.flatMap (fun (e : Nat × DsImage) => e.2.lbas)
  let fls := (s.car.units.filter (fun (e : Nat × CUnit) => e.2.kind = .flush && e.2.mapped)).map
    (fun (e : Nat × CUnit) => (e.2.lbas.getD 0 0, e.2.lbas.getD 1 0))
  (((imgs ++ fls).filter (fun r => zoneOf r.1 = z)).map (fun r => (r.1 % 65536, r.2))).mergeSort (fun a b => decide (a.1 ≤ b.1))

/-- The end of the gapless run from `n` on. -/
def runEnd (rs : List (Nat × Nat)) (n : Nat) : Nat := rs.foldl (fun n r => if r.1 ≤ n then max n (r.1 + r.2) else n) n

/-- LBAs of the runs at or above `n`. -/
def runAbove (rs : List (Nat × Nat)) (n : Nat) : Nat :=
  (rs.foldl (fun (a : Nat × Nat) r => (max a.1 (r.1 + r.2), a.2 + (r.1 + r.2 - max a.1 r.1))) (n, 0)).2

/-- The recovered write pointer of a zone: below it every LBA is spool-committed, in an image or in a flush extent. -/
def State.zoneEnd (s : State) (z : Nat) : Nat := runEnd (s.zoneRuns z) (NMap.get 0 s.car.nv.floors z)

/-- Zones that hold something: journalled, or with persisted LBAs. -/
def State.zonesFound (s : State) : List Nat :=
  (NMap.keys s.car.nv.zones ++ s.car.nv.images.flatMap (fun (e : Nat × DsImage) => e.2.lbas.map (fun r => zoneOf r.1))
    ++ (s.car.units.filter (fun (e : Nat × CUnit) => e.2.kind = .flush && e.2.mapped)).map
      (fun (e : Nat × CUnit) => zoneOf (e.2.lbas.getD 0 0))).eraseDups

/-- The take of a zone: as journalled, else as its flush extents or its records name it. -/
def State.zoneTake (s : State) (z : Nat) : Nat :=
  match NMap.find? s.car.nv.zones z with
  | some x => x.take
  | none =>
    match s.car.units.filter (fun (e : Nat × CUnit) => e.2.kind = .flush && e.2.mapped && zoneOf (e.2.lbas.getD 0 0) = z) with
    | e :: _ => leAt e.2.data 4 4
    | [] => ((s.car.nv.images.flatMap (fun (e : Nat × DsImage) => dirOf e.2.bytes)).find? (fun d => d.zone = z)).elim 0 (fun d => d.take)

/-- A zone after recovery: Offline and finished ones stay as they are; any other one has the state its write pointer gives. -/
def State.zoneAfter (s : State) (z : Nat) : Zone :=
  let o := NMap.get Zone.zero s.car.nv.zones z
  let n := s.zoneEnd z
  let base : Zone := { Zone.zero with take := s.zoneTake z, wp := n, written := n }
  if o.st = .offline then { o with ctx := none }
  else if o.st = .full && (o.byTakeMark || decide (o.written < 65536)) then { o with written := n, ctx := none }
  else if 65536 ≤ n then { base with st := .full }
  else if n = 0 then Zone.zero
  else { base with st := .closed }

/-- LBAs of a zone persisted above a gap. -/
def State.zoneLoss (s : State) (z : Nat) : Nat :=
  if (NMap.get Zone.zero s.car.nv.zones z).st = .offline then 0 else runAbove (s.zoneRuns z) (s.zoneEnd z)

/-- Sequence number of the next data DS: behind the newest image and the newest located one. -/
def State.nextAfter (s : State) : Nat :=
  let located := s.car.nv.locs.foldl (fun m l => if l.kind = 0 then max m (l.seq + l.count) else m) 0
  s.car.nv.images.foldl (fun m (e : Nat × DsImage) => max m (e.1 + 1)) located

/-- Closed groups whose images are all there; the images of any other one form the open group. -/
def State.wholeGroups (s : State) : NMap Nat :=
  s.car.nv.groups.filter (fun (e : Nat × Nat) => (List.range e.2).all (fun i => (NMap.find? s.car.nv.images (e.1 + i)).isSome))

/-- The position behind the last copy located on the journalled append wrap (R443). -/
def State.tailStart (s : State) : Nat :=
  let w := s.car.nv.append.1
  s.car.nv.locs.foldl (fun m l => if l.wrap = w then max m (l.pos + l.count) else m) s.car.nv.append.2

/-- The take namespace as the journals hold it, with every zone recovered, and the spool queue rebuilt from the images (R442). A restart keeps the
place on tape it knows; after a DRAIN a tail scan is to find it (R443). -/
def State.bootTakes (s : State) : State :=
  let nv := s.car.nv
  let zs := (s.zonesFound.map (fun z => (z, s.zoneAfter z))).filter (fun x => x.2 != Zone.zero)
  let zones : NMap Zone := zs.foldl (fun m x => NMap.put m x.1 x.2) []
  let groups := s.wholeGroups
  let groupOfImage (q : Nat) : Option Nat := (List.filter (fun (e : Nat × Nat) => decide (e.1 ≤ q) && decide (q < e.1 + e.2)) groups).head?.map Prod.fst
  let loose := (nv.images.filter (fun (e : Nat × DsImage) => (groupOfImage e.1).isNone)).map Prod.fst
  let images : NMap DsImage := nv.images.map (fun (e : Nat × DsImage) =>
    (e.1, { e.2 with persisted := true, committed := false, group := match groupOfImage e.1 with | some g => some g | none => loose.head? }))
  let next := s.nextAfter
  let dirs : NMap (List DirEntry) := images.map (fun (e : Nat × DsImage) =>
    (e.1, (dirOf e.2.bytes).filter (fun d => decide (d.lastDs e.1 < next))))
  let begun (t : Nat) : Bool := zs.any (fun x => x.2.take = t && (NMap.get 0 nv.floors x.1 != 0
    || images.any (fun (e : Nat × DsImage) => e.2.lbas.any (fun r => zoneOf r.1 = x.1))))
  let takes : NMap Take := nv.takes.map (fun (e : Nat × Take) =>
    (e.1, { e.2 with firstCut := begun e.1, zones := max e.2.zones (zs.countP (fun x => x.2.take = e.1)) }))
  let openG (g : Nat) : Bool := images.any (fun (e : Nat × DsImage) => e.2.group = some g)
  let recorded := ((nv.locs.map (fun l => l.group)).filter openG ++ (images.head?.bind (fun (e : Nat × DsImage) => e.2.group)).toList
    ++ loose.head?.toList).eraseDups
  let warm := s.mag.cause = 3
  let t := (s.modSp (fun p =>
    { p with
      zones, nz := nv.nz, takes, lastTake := nv.lastTake, current := nv.current, wbuf := [], ctxs := []
      floors := nv.sectors.map (fun (e : Nat × Nat) => (e.1, e.2 - 1 + 2 ^ 24))
      stream := nv.stream + dsPayload * next - dsPayload * nv.nextSeq, nextSeq := next, images, groups, groupFirst := loose.head?
      groupCount := loose.length, locs := nv.locs.filter (fun l => !openG l.group), started := [], verified := [], ready := [], recGroup := none
      wrap := if warm then p.wrap else nv.append.1, pos := if warm then p.pos else s.tailStart
      wrapUsed := if warm then p.wrapUsed else decide (s.tailStart ≠ 0), resume := true, cartridge := nv.cartridge, initCount := nv.initCount
      newest := nv.newest, lastGen := nv.lastGen, genDue := true, sinceGen := nv.sinceGen, tailScan := if warm then p.tailScan else decide (s.mag.cause ≠ 0) })).modRc
        (fun r => { r with dirs })
  let u := (NMap.keys images).foldl State.noteTakes t
  let v := u.modSp (fun p =>
    { p with copied := u.imageCopies.filter (fun c =>
        recorded.contains (match c.kind with | .data => ((NMap.find? images c.seq).bind (fun e => e.group)).getD c.seq | _ => c.seq)) })
  (v.modCar (fun c => { c with nv := { c.nv with locs := v.sp.locs, groups, genDue := true } })).fillQueue

/-- Flush extents above a gap are released; those below it give their LBAs back to the write area, persisted and not in U, and the packer takes what
lies in no image (R442). -/
def State.bootFlush (s : State) : State :=
  let fls := s.car.units.filter (fun (e : Nat × CUnit) => e.2.kind = .flush && e.2.mapped)
  let dead := fls.filter (fun (e : Nat × CUnit) => decide ((s.zone (zoneOf (e.2.lbas.getD 0 0))).written ≤ e.2.lbas.getD 0 0 % 65536))
  let t := (s.modCar (fun c => { c with units := dead.foldl (fun (m : NMap CUnit) e => NMap.put m e.1 { e.2 with mapped := false }) c.units })).when
    (!dead.isEmpty) (fun x => x.mapCommit (dead.map (fun e => .release e.1)) [])
  let inImage (l : Nat) : Bool := s.sp.images.any (fun (e : Nat × DsImage) => e.2.lbas.any (fun r => decide (r.1 ≤ l) && decide (l < r.1 + r.2)))
  let cells := (fls.filter (fun e => !dead.contains e)).flatMap (fun (e : Nat × CUnit) =>
    (List.range (e.2.lbas.getD 1 0)).filterMap (fun i =>
      let l := e.2.lbas.getD 0 0 + i
      if inImage l then none else (t.flushLba e.2 l).map (fun b => (l, b))))
  let u := t.modSp (fun p =>
    { p with
      wbuf := cells.foldl (fun (m : NMap WLba) x =>
        NMap.put m x.1 { data := x.2, acked := true, persisted := true, app := 0, packed := false, ds := none, timecode := none }) p.wbuf
      uncommitted := (p.images.flatMap (fun (e : Nat × DsImage) => e.2.lbas.flatMap (fun r => (List.range r.2).map (fun i => r.1 + i)))
        ++ cells.map Prod.fst).foldl (fun (m : NMap Nat) l => NMap.put m l 0) [] })
  u.packAll ((u.sp.takes.filter (fun (e : Nat × Take) => e.2.closed)).map Prod.fst)

/-- A fault class whose acknowledged writes are kept (R459). -/
def classKept (c : Nat) : Bool := !(c = 2 || c = 4 || c = 5 || c = 6 || c = 7)

/-- Acknowledged LBAs are found missing, per namespace (R457). -/
def State.countLoss (s : State) (cls why n1 n2 : Nat) : State :=
  if n1 = 0 && n2 = 0 then s
  else (s.modEv (fun v => { v with lost := (v.lost.1 + n1, v.lost.2 + n2) })).raise 0x7F0 why
    (leBytes 1 cls ++ zeroBytes 3 ++ leBytes 4 n1 ++ leBytes 4 n2)

/-- What is missing after recovery (R442, R456, R457): the acknowledged LBAs that never persisted and those above a gap. -/
def State.bootLoss (s : State) (above : Nat) : State :=
  let n1 := s.pw.lossU.1 + above
  let n2 := s.pw.lossU.2
  let cls := s.pw.lossClass.1
  let why := if s.pw.lossClass.2 != 0 then s.pw.lossClass.2 else if classKept cls then 1 else 4
  let a := if cls = 0 then s else s.noteFault cls
  let b := if above = 0 then a else a.raise 0x7E6 1 (leBytes 4 above)
  (b.countLoss cls why n1 n2).modPw (fun p => { p with lossU := (0, 0), lossClass := (0, 0) })

/-- Step 9. -/
def State.bootTake (s : State) : State :=
  if s.hasCause then s
  else
    let above := (s.zonesFound.map s.zoneLoss).foldl (· + ·) 0
    ((s.bootTakes).bootFlush).bootLoss above

/-! ### The end of BOOT -/

/-- READY or SAFE (R20, R325, R340, R430, R444, R445, R462); the duration of BOOT is not modelled: a free value (log 2). -/
def State.bootEnd (s : State) : State :=
  let ms := s.free 10 % 2 ^ 20
  let t := (((s.drawn 1).traceArmWith 1).modEv (fun v => { v with rate := s.pn pEVT_RATE, inSec := [], suppSec := [] })).modNv (fun n => { n with rdy := n.en })
  if s.hasCause || s.mag.heldFault then
    (t.modMag (fun g =>
      { g with st := .safe, step := 8, bootMs := ms, restart := 0, ctx := if Nat.testBit g.why 0 then .none else g.dflt })).raise 0x7E1 s.mag.why []
  else
    (((t.modMag (fun g => { g with st := .ready, step := 10, bootMs := ms, restart := 0, ctx := g.dflt })).modSp (fun p => { p with fsyncOk := true })).growZones
      false).goOn

/-- Step 1 holds BOOT: the part is below -20 °C at power-up, or not yet below 95 °C after a thermal trip (R508). -/
def State.bootWaits (s : State) (env : BootEnv) : Bool :=
  s.mag.restart = 0 && (decide (env.tempDeci < -200) || (s.pw.tripped && decide (950 ≤ env.tempDeci)))

/-- BOOT_SEQUENCE (R429 to R431, R507): the steps in their order. A failed self-test, or a TEST_MODE strap other than 0 at power-up, halts BOOT at step
1; a lockstep restart begins at step 2 (R462). -/
def execBootSequence (env : BootEnv) (s : State) : Out :=
  .next (
    if s.mag.st != .boot || !s.pw.mgt || s.mag.halted || s.bootWaits env then s
    else if s.mag.restart != 2 && (!env.selfTest || (s.mag.restart = 0 && env.testMode != 0)) then
      (if s.mag.restart = 0 then s else s.ramLost true).modMag (fun g => { g with halted := true, step := 0 })
    else
      let a := (s.bootStart env).bootNor env
      let b := if a.nor.dead then a else a.bootProfile
      let first := !b.nor.dead && (keyRecOf (b.copies 1)).isNone
      let c := if b.nor.dead then b else b.bootKeys
      let d := if c.hasCause then c.bootPosition none else c.bootRecords
      let e := (d.bootTrain env).bootTest
      ((e.bootCarousel env first).bootRing.bootTake).bootEnd)

end Sys2Proof.Machine
end

