-- ==== Sys2Proof/Machine/CacheCmd.lean ====
section
/-! DEFINITION. The cluster cache's commands: accesses and fills (R384, R389), range operations (R393, R394), way enables, cleans and wakes
(R396, R398), hardware way disables (R400). -/

namespace Sys2Proof.Machine

/-- CACHE_ACCESS (R384 to R392, R399): an address outside the compute region bypasses the cache (R382). -/
def execCacheAccess (q : Nat) (wr : Bool) (addr : Nat) (data : Bytes) (err : Nat) (s : State) : Out :=
  .next (if s.mag.st.alive && s.inRegion (addr / 64) then (s.cacheReq { q, wr, addr, data, err }).goOn else s)

/-- CACHE_MISS_FILL_COMPLETE (R389, R391). -/
def execCacheMissFillComplete (bank : Nat) (s : State) : Out := .next (if s.mag.st.alive then (s.fillDone bank).goOn else s)

/-- Start a range operation (R393). -/
def State.rangeStart (s : State) (op : Nat) : State :=
  s.modCache (fun c => { c with range := some (op, (compBase + s.pn pCCA_RNG_BASE) / 64, s.pn pCCA_RNG_LEN / 64) })

/-- A write of CCA_RNG_OP by Ringmaster itself: refused while another operation runs. -/
def State.rangeOwn (s : State) (op : Nat) : State := if s.cache.clean.isSome || s.cache.range.isSome then s else s.rangeStart op

/-- CCA_RANGE_CLEAN (R393). -/
def execCcaRangeClean (w : Option Hdr) (s : State) : Out := .next (s.regWrite w pCCA_RNG_OP 0 1 (fun t => t.rangeOwn 1)).goOn

/-- CCA_RANGE_CLEAN_INVALIDATE (R393, R395). -/
def execCcaRangeCleanInvalidate (w : Option Hdr) (s : State) : Out := .next (s.regWrite w pCCA_RNG_OP 0 2 (fun t => t.rangeOwn 2)).goOn

/-- RANGE_OPERATION_COMPLETE (R394). -/
def execRangeOperationComplete (s : State) : Out := .next s.rangeEnd

/-- Ways that CCA_WAY_EN leaves to be used: those that hardware has not taken out. -/
def State.wantWays (s : State) (en : Nat) : List Nat := (wayList en).filter (fun w => !Nat.testBit s.cache.fail w)

/-- Make `ws` the ways to be used: ways removed are cleaned, ways added are woken (R396, R398). -/
def State.setWays (s : State) (ws : List Nat) (off : Bool) : State :=
  let gone := (wayList s.cache.ways).filter (fun w => !ws.contains w)
  let t := s.modCache (fun c => { c with waking := wayBits (ws.filter (fun w => !Nat.testBit c.ways w)) })
  if gone.isEmpty && !off then t else t.startClean gone off

/-- The write of CCA_WAY_EN has been accepted: it acts at once unless the cache is disabled. -/
def State.wayEnable (s : State) (v : Nat) : State :=
  let t := s.setElem pCCA_WAY_EN 0 v
  if t.pn pCCA_ENABLE = 1 then t.setWays (t.wantWays v) false else t

/-- The write of CCA_ENABLE has been accepted. -/
def State.cacheEnable (s : State) (v : Nat) : State :=
  let was := s.pn pCCA_ENABLE
  let t := s.setElem pCCA_ENABLE 0 v
  if v = was then t
  else if v = 0 then t.setWays [] true
  else t.setWays (t.wantWays (t.pn pCCA_WAY_EN)) false

/-- CCA_WAY_EN_WRITE (R396, R398). -/
def execCcaWayEnWrite (w : Option Hdr) (value : Nat) (s : State) : Out :=
  .next (s.regWrite w pCCA_WAY_EN 0 value (fun t =>
    if t.cache.clean.isSome || 65536 ≤ value || popCount 16 value < 2 then t else t.wayEnable value)).goOn

/-- CCA_ENABLE_WRITE (R396, R398). -/
def execCcaEnableWrite (w : Option Hdr) (value : Nat) (s : State) : Out :=
  .next (s.regWrite w pCCA_ENABLE 0 value (fun t => if t.cache.clean.isSome || 2 ≤ value then t else t.cacheEnable value)).goOn

/-- CACHE_CLEAN_COMPLETE (R396). -/
def execCacheCleanComplete (s : State) : Out := .next s.cleanEnd.goOn

/-- WAY_WAKE_COMPLETE (R398). -/
def execWayWakeComplete (s : State) : Out := .next (s.modCache (fun c => { c with ways := c.ways ||| c.waking, waking := 0 }))

/-- HARDWARE_WAY_DISABLE (R400, R402): at the ninth corrected error of a way within a second, or its second uncorrectable error since BOOT. -/
def execHardwareWayDisable (way : Nat) (s : State) : Out :=
  let many := (s.cache.ceAt = s.rtcSec && decide (9 ≤ NMap.get 0 s.cache.ceSec way)) || decide (2 ≤ s.pni pCCA_UE_CNT way)
  .next (
    if !many || Nat.testBit s.cache.fail way || 16 ≤ way then s
    else
      let used := Nat.testBit s.cache.ways way
      let t := (s.modCache (fun c =>
        { c with
          fail := c.fail + 2 ^ way
          waking := wayBits ((wayList c.waking).filter (fun w => w != way))
          due := if used then c.due ++ [way] else c.due })).raise 0x748 1 (leBytes 1 way)
      let few := ((t.wantWays (t.pn pCCA_WAY_EN)).length : Nat) < 2
      ((if few then t.raise 0x748 2 (leBytes 1 way) else t).cleanDue).goOn)

end Sys2Proof.Machine
end

