-- ==== Sys2Proof/Machine/Chervil.lean ====
section
/-! DEFINITION. Bank tests (R410, R411), the hold-up credit (R412, R413), Chervil's sensors (R418 to R421) and the thermal actions (R508). -/

namespace Sys2Proof.Machine

/-! ### The hold-up credit (R412, R413) -/

/-- CSL_PROG_RATE in bytes per second; while it is 0, half the configuration's sustained program rate of R29. -/
def State.progRate (s : State) : Nat :=
  let own := s.pn pCSL_PROG_RATE * 10 ^ 6
  if own != 0 then own
  else
    let c := s.pn pCSL_CONFIG
    (if c = 2 then 4800 else if c = 4 then 9600 else if c = 8 then 19200 else if c = 16 then 28000 else 0) * 10 ^ 6 / 2

/-- The credit of R412 in MiB, with C in µF and ESR in µΩ as fractions. v_top is a/(v·d) mV with a = d·(v² − 2,000·v) − p·e for an ESR of e/d; energy,
time and the product with the rate are kept exact as one fraction, rounded down once. A v_top that is not positive gives 0 (log 51). -/
def creditOf (mv : Nat) (cap esr : Nat × Nat) (watts fixMs derate minMv rate : Nat) : Nat :=
  let v : Int := mv
  let e : Int := (esr.2 : Nat)
  let a : Int := e * (v * v - 2000 * v) - (watts * esr.1 : Nat)
  if a ≤ 0 || watts = 0 then 0
  else
    let n : Int := (derate * cap.1 : Nat) * (a * a - (minMv * minMv : Nat) * (v * v) * (e * e))
    let d : Int := (2 * 10 ^ 14 * watts * cap.2 : Nat) * (v * v) * (e * e)
    let top : Int := (rate : Int) * (1000 * n - (fixMs : Int) * d)
    if top ≤ 0 then 0 else min 8192 (top / (1000 * d * 2 ^ 20)).toNat

/-- The credit now: 0 unless a test has passed since BOOT, the last one has not failed, and the temperature is in range (R413). -/
def State.creditNow (s : State) : Nat :=
  if !s.pw.everPassed || s.pw.failed || !s.tempInRange then 0
  else
    creditOf s.pw.bankMv s.pw.cap s.pw.esr (s.pn pPWR_DRAIN_W) (s.pn pPWR_DRAIN_FIX_MS) (s.pn pPWR_DERATE) (s.pn pPWR_BANK_MIN) s.progRate

/-- Acknowledged LBAs of the take namespace that a flush extent can take, oldest application first. -/
def State.flushable (s : State) : List (Nat × Nat) :=
  let l := (s.sp.wbuf.filter (fun (e : Nat × WLba) => e.2.acked && !e.2.persisted && e.2.ds.isNone && !s.inFlush e.1)).map
    (fun (e : Nat × WLba) => (e.2.app, e.1))
  l.mergeSort (fun a b => decide (a.1 ≤ b.1))

/-- The acknowledged data above the credit is persisted at once: take data as flush extents; the sidecar's is on its way (R413). -/
def State.persistExcess (s : State) : State :=
  let excess := (s.creditU - s.creditK + 4095) / 4096
  if excess = 0 then s
  else
    let ls := (s.flushable.take excess).map Prod.snd
    s.flushWhere (fun l w => w.acked && ls.contains l)

/-- Put a new credit in force: it acts on acknowledgements at once, and entering or leaving 0 is reported (R413). -/
def State.setCredit (s : State) (c : Nat) : State :=
  let t := s.modPw (fun p => { p with credit := c })
  let u := if c = 0 && s.pw.credit != 0 then t.raise 0x782 1 [] else if c != 0 && s.pw.credit = 0 then t.raise 0x782 2 [] else t
  u.persistExcess.goOn

/-- Ringmaster runs and no DRAIN is under way. -/
def State.awake (s : State) : Bool := s.pw.mgt && s.mag.st.alive && s.mag.st != .drain

/-- Parameters of the bank group. -/
def isPwrGroup (pid : Nat) : Bool := decide (pPWR_BANK_FULL ≤ pid) && decide (pid ≤ pPWR_DERATE)

/-- A sample of BANK_SNS in mV after its filter, the mean of 4 (R418): outside 0 to 64 V it is discarded and counted, and the previous value is kept. -/
def State.takeBank (s : State) (mv : Nat) : State := if 64000 < mv then s.badInput 1 else s.modPw (fun p => { p with bankMv := mv })

/-- CREDIT_RECOMPUTE (R412, R413, R425): with the latest sample of the bank; a pending bank group takes effect. -/
def execCreditRecompute (mv : Nat) (s : State) : Out :=
  .next (
    if !s.awake then (if s.pw.aon then s.takeBank mv else s)
    else
      let t := (s.applyPend (fun p _ => isPwrGroup p)).takeBank mv
      t.setCredit t.creditNow)

/-! ### Bank tests (R410, R411) -/

/-- A bank test starts: none runs, and the profile has been applied (R430). -/
def State.testStart (s : State) : State :=
  if !s.awake || s.pw.test != .idle || Nat.testBit s.mag.why 0 then s
  else s.modPw (fun p => { p with test := .charging, testAge := 0 })

/-- The test in progress has failed (R411): the credit is 0 until a later one passes. -/
def State.testFail (s : State) (cause : Nat) : State :=
  ((s.modPw (fun p =>
    { p with test := .idle, testPin := false, passed := false, failed := true, testFails := min 255 (p.testFails + 1) })).raise 0x781 cause
      []).setCredit 0

/-- BANK_TEST_START (R410): the 600 s since the start of the last test have passed. -/
def execBankTestStart (mv : Nat) (s : State) : Out :=
  .next (if !s.awake then s else (s.takeBank mv).testStart)

/-- PWR_TEST_NOW written 1 (R410). -/
def execPwrTestNow (w : Option Hdr) (s : State) : Out := .next (s.regWrite w pPWR_TEST_NOW 0 1 State.testStart).goOn

/-- BANK_TEST_CHARGED (R410 steps 1 and 2). -/
def execBankTestCharged (mv : Nat) (s : State) : Out :=
  .next (
    if s.pw.test != .charging || mv + 1000 < s.pn pPWR_BANK_FULL then s
    else s.modPw (fun p => { p with bankMv := mv, test := .loaded mv, testPin := true }))

/-- BANK_TEST_CHARGE_TIMEOUT (R410 step 1). -/
def execBankTestChargeTimeout (s : State) : Out := .next (if s.pw.test = .charging then s.testFail 1 else s)

/-- BANK_TEST_V1_SAMPLE (R410 steps 3 and 4): a drop of 2.0 V by then ends the test, which fails. -/
def execBankTestV1Sample (mv : Nat) (s : State) : Out :=
  .next (
    match s.pw.test with
    | .loaded v0 =>
      let t := s.modPw (fun p => { p with bankMv := mv })
      if mv + 2000 ≤ v0 then t.testFail 3 else t.modPw (fun p => { p with test := .sampled v0 mv })
    | _ => s)

/-- ESR of a test in µΩ: (V0 − V1)·RTEST/V0, RTEST in 0.1 Ω (R410). -/
def esrOf (v0 v1 rtest : Nat) : Nat × Nat := ((v0 - v1) * rtest * 10 ^ 5, v0)

/-- C of a test in µF: t·((V1 + V2)/2)/RTEST/(V1 − V2), t in µs (R410). -/
def capOf (v1 v2 rtest us : Nat) : Nat × Nat := (us * (v1 + v2) * 10, 2 * rtest * (v1 - v2))

/-- BANK_TEST_END (R410 steps 4 and 5, R411): 100 ms have passed or the bank has dropped by 2.0 V. C is compared with PWR_C_MIN and ESR with
PWR_ESR_MAX as exact fractions; when both fail, capacitance is named (log 52). Where V2 is not below V1 the formula gives no C: a free value. -/
def execBankTestEnd (mv us : Nat) (s : State) : Out :=
  .next (
    match s.pw.test with
    | .sampled v0 v1 =>
      if us < 100000 && v0 < mv + 2000 then s
      else
        let r := s.pn pPWR_RTEST
        let open_ := decide (v1 ≤ mv) || r = 0
        let c := if open_ then (s.free 9, 1) else capOf v1 mv r us
        let e := esrOf v0 v1 r
        let cOk := decide (s.pn pPWR_C_MIN * c.2 ≤ c.1)
        let eOk := decide (e.1 ≤ s.pn pPWR_ESR_MAX * 1000 * e.2)
        let t := (s.modPw (fun p => { p with bankMv := mv, testPin := false })).drawn (if open_ then 1 else 0)
        if !cOk then t.testFail 2
        else if !eOk then t.testFail 3
        else
          t.modPw (fun p =>
            { p with test := .idle, passed := true, failed := false, everPassed := true, testFails := 0, cap := c, esr := e })
    | _ => s)

/-! ### Sensors (R418, R419, R420) -/

/-- A crossing of threshold `th` by a value that was above it or not before and is now: logged in the ring and raised (R419, R420). `kind` is the ring
type; the bytes after the temperature are the model's own. -/
def State.crossing (s : State) (evt kind th : Nat) (was now : Bool) (value : Nat) : State :=
  if was = now then s
  else
    let cause := if now then 1 else 2
    (s.ringAdd kind (leBytes 2 value ++ leBytes 1 th ++ leBytes 1 cause)).chvRaise evt cause (leBytes 1 th)

/-- A signed number of tenths in 16 bits. -/
def tenths16 (t : Int) : Nat := (t % 65536).toNat

/-- A valid temperature in tenths (R418, R419): the exposure band, the crossings, the age clock's temperature. Before the first sample the
temperature counts as in range. -/
def State.takeTemp (s : State) (t : Int) : State :=
  let lo := 10 * s.pv pCHV_TEMP_MIN 0
  let hi := 10 * s.pv pCHV_TEMP_MAX 0
  let old := if s.pw.tempSeen then s.pw.temp else max lo (min hi t)
  let a := s.modPw (fun p =>
    { p with temp := t, tempOk := true, tempSeen := true, tempBad := 0, hist := NMap.bumpSat (2 ^ 32 - 1) p.hist ((t + 400) / 50).toNat 16 })
  let b := (a.crossing 0x791 2 0 (decide (lo ≤ old)) (decide (lo ≤ t)) (tenths16 t)).crossing 0x791 2 1 (decide (hi < old)) (decide (hi < t))
    (tenths16 t)
  if a.tempInRange then b else if s.tempInRange || !s.pw.tempSeen then b.noteFault 0x10 else b

/-- An invalid temperature: the fourth in a row makes the sensor invalid (R419). -/
def State.badTemp (s : State) : State :=
  let t := (s.badInput 2).modPw (fun p => { p with tempBad := min 255 (p.tempBad + 1) })
  if t.pw.tempBad = 4 then ((t.modPw (fun p => { p with tempOk := false })).noteFault 0x10).chvRaise 0x794 1 [] else t

/-- A humidity sample in 0.1 % (R418, R419). -/
def State.takeHumidity (s : State) (h : Nat) : State :=
  if 1000 < h then s.badInput 3
  else
    let lim := 10 * s.pn pCHV_RH_MAX
    (s.modPw (fun p => { p with rh := h })).crossing 0x792 3 2 (decide (lim < s.pw.rh)) (decide (lim < h)) h

/-- A shock sample: the peaks of the three axes in 0.1 g (R418, R420, R425). -/
def State.takeShock (s : State) (ps : List Nat) : State :=
  let m := ps.foldl max 0
  if 4000 < m then s.badInput 4
  else
    let t := s.modPw (fun p => { p with shock := max p.shock m })
    if s.pn pCHV_SHOCK_LOG < m then
      (t.ringAdd 1 ((List.range 3).flatMap (fun i => leBytes 2 (ps.getD i 0)))).chvRaise 0x793 1 []
    else t

/-- Sensor 2 or the composite has come past a threshold of Feature 04h: the SMART temperature event (R353, R357, R358). -/
def State.noteThreshold (before after : State) : State :=
  if after.pw.mgt && after.mag.st.alive && after.thresholdCrossed && !before.thresholdCrossed then after.asyncEvent 1 1 2 else after

/-- TEMPERATURE_SAMPLE (R418, R419): temperature in 0.01 °C, none when the sensor does not answer; humidity in 0.1 %; the three shock peaks. A pending
temperature group takes effect (R425). -/
def execTemperatureSample (centi : Option Int) (humidity : Nat) (shocks : List Nat) (s : State) : Out :=
  .next (
    if !s.pw.aon then s
    else
      let s0 := s.applyPend (fun p _ => p = pCHV_TEMP_MIN || p = pCHV_TEMP_MAX)
      let a :=
        match centi with
        | some c => if decide (-4000 ≤ c) && decide (c ≤ 12500) then s0.takeTemp (c / 10) else s0.badTemp
        | none => s0.badTemp
      State.noteThreshold s ((a.takeHumidity humidity).takeShock shocks))

/-- SHOCK_INTERRUPT (R418). -/
def execShockInterrupt (x y z : Int) (s : State) : Out :=
  .next (if s.pw.aon then s.takeShock [x.natAbs, y.natAbs, z.natAbs] else s)

/-! ### Thermal actions (R508) -/

/-- COMPOSITE_TEMPERATURE_SAMPLE (R508, R510): the warning from 100 °C, the critical level from 105 °C, both until below 97 °C. -/
def execCompositeTemperatureSample (deci : Int) (s : State) : Out :=
  .next (
    if !(s.pw.mgt && s.mag.st.alive) then s
    else
      let a := s.modPw (fun p => { p with tj := deci, tjPeak := max p.tjPeak deci })
      let warn := decide (1000 ≤ deci) && s.pw.thermal = 0
      let crit := decide (1050 ≤ deci) && decide (s.pw.thermal < 2)
      let b := if warn then ((a.modPw (fun p => { p with thermal := 1 })).raise 0x786 1 []).asyncEvent 1 1 2 else a
      let c := if crit then (b.modPw (fun p => { p with thermal := 2 })).raise 0x786 2 [] else b
      let d := if decide (deci < 970) && s.pw.thermal != 0 then (c.modPw (fun p => { p with thermal := 0 })).raise 0x786 4 [] else c
      (State.noteThreshold s d).goOn)

/-- THERMAL_TRIP (R508): treated as line loss; a trip during DRAIN changes nothing. -/
def execThermalTrip (s : State) : Out :=
  .next (
    if !(s.pw.mgt && s.mag.st.alive) || s.mag.st = .drain then s
    else (s.modPw (fun p => { p with tripped := true })).loseLine 1)

end Sys2Proof.Machine
end

