-- ==== Sys2Proof/Machine/Transport.lean ====
section
/-! DEFINITION. The transport commands (R219, R220) and the events of the tape sequences (R205 to R218): tension up, radius probe, find
position, arrival, stops, lid, idle times. -/

namespace Sys2Proof.Machine

/-! ### Commands -/

/-- A Transport Command that has been accepted joins the activities (R202). -/
def State.addTask (s : State) (q : Nat) (t : Task) : State :=
  (s.modNv (fun n => n.setWait q .transport)).modCtl (fun c => { c with tasks := c.tasks ++ [t] })

/-- A Transport Command: refused with the first status that applies, else it joins the activities (R219, R220). -/
def State.transport (s : State) (h : Hdr) (check : State → Option Status) (task : Nat → Task) : State :=
  (s.adminCmd h false (fun q t => match check t with | some st => t.done q st | none => t.addTask q (task q))).goOn

/-- A check that the magazine is in one of these states. -/
def State.inStates (s : State) (ms : List MagState) : Option Status := if ms.contains s.mag.st then none else some stSequence

/-- States in which tension and calibrate are accepted (R219). -/
def stillStates : List MagState := [.ready, .tensioned, .parked, .service]

/-- States in which locate is accepted (R219). -/
def locateStates : List MagState := [.ready, .tensioned, .parked, .playback, .locating, .service]

/-- A read waits for tape. -/
def State.readWaits (s : State) : Bool := s.ctl.tasks.any (fun t => match t with | .read _ => true | _ => false)

/-- The spool queue holds data to be recorded and tape writing is not suspended, in camera or dock context (R220). -/
def State.queueBars (s : State) : Bool := s.mag.ctx.records && !s.queueEmpty && !s.sp.suspended

/-- TRANSPORT_TENSION_ON (R205, R219). -/
def execTransportTensionOn (h : Hdr) (s : State) : Out := .next (s.transport h (fun t => t.inStates stillStates) (fun q => .tensionOn (some q)))

/-- TRANSPORT_TENSION_OFF (R215, R219, R220). -/
def execTransportTensionOff (h : Hdr) (s : State) : Out :=
  .next (s.transport h (fun t => if t.readWaits || !t.queueEmpty then some stSequence else t.inStates stillStates) (fun q => .tensionOff (some q)))

/-- TRANSPORT_PARK (R215, R219). -/
def execTransportPark (h : Hdr) (arg : Nat) (s : State) : Out :=
  .next (s.transport h (fun t => if !t.mag.st.working then some stSequence else if arg != 0 then some stField else none)
    (fun q => .park (some q) false))

/-- TRANSPORT_LOCATE (R211, R219): CDW11 bits [7:0] the wrap, bit 31 a TPN target; CDW12 the position or TPN. -/
def execTransportLocate (h : Hdr) (d11 d12 : Nat) (s : State) : Out :=
  .next (
    let wrap := d11 % 256
    let tpn := Nat.testBit d11 31
    s.transport h (fun t =>
        if t.queueBars then some stSequence
        else match t.inStates locateStates with
          | some st => some st
          | none =>
            if 47 < wrap then some stField
            else if tpn then (if d12 < 16 || 96591 < d12 then some stField else none)
            else if 767999 < d12 then some stField else none)
      (fun q => .locate (some q) (if tpn then .tpn (some wrap) d12 else .position wrap d12)))

/-- TRANSPORT_SHUTTLE (R212, R219, R220): in dock context only. -/
def execTransportShuttle (h : Hdr) (s : State) : Out :=
  .next (s.transport h (fun t => if t.queueBars || t.mag.ctx != .dock then some stSequence else t.inStates locateStates) (fun q => .shuttle (some q)))

/-- TRANSPORT_CALIBRATE (R217, R219, R220). -/
def execTransportCalibrate (h : Hdr) (arg : Nat) (s : State) : Out :=
  .next (s.transport h (fun t =>
      if t.queueBars then some stSequence
      else match t.inStates stillStates with
        | some st => some st
        | none => if arg != 0 then some stField else none)
    (fun q => .calibrate (some q)))

/-- TRANSPORT_EJECT_PREPARE (R216, R219). -/
def execTransportEjectPrepare (h : Hdr) (arg : Nat) (s : State) : Out :=
  .next (s.transport h (fun t => if !t.mag.st.working then some stSequence else if arg != 0 then some stField else none)
    (fun q => .park (some q) true))

/-- Service is accepted in SERVICE with the owner authenticated (R219, R220). -/
def State.serviceCheck (s : State) : Option Status :=
  if s.mag.st != .service then some stSequence else if !s.keys.session then some stDenied else none

/-- TRANSPORT_SERVICE_UNLOAD (R218). -/
def execTransportServiceUnload (h : Hdr) (s : State) : Out := .next (s.transport h State.serviceCheck (fun q => .unload (some q)))

/-- TRANSPORT_SERVICE_LOAD (R218): with the lid open it is refused and changes nothing. -/
def execTransportServiceLoad (h : Hdr) (s : State) : Out :=
  .next (s.transport h (fun t => match t.serviceCheck with | some st => some st | none => if t.pw.lid then some stSequence else none)
    (fun q => .load (some q)))

/-- TRANSPORT_RESUME_WRITING (R89, R219): it completes at once, the suspension cleared; recording goes on once the magazine leaves SERVICE. -/
def execTransportResumeWriting (h : Hdr) (arg : Nat) (s : State) : Out :=
  .next ((s.adminCmd h false (fun q t =>
    if t.mag.st != .service || !t.sp.suspended then t.done q stSequence
    else if arg != 0 then t.done q stField
    else t.endSuspension.done q stOk)).goOn)

/-! ### Tension up (R205, R206, R408) -/

/-- A tension-up fails: brakes on, every slot OFF unless a refused re-arm keeps it in HOLD, links released, READY; the event carries the
cause (R205). -/
def State.tensionFail (s : State) (cause : Nat) : State := (((s.release .ready).raise 0x478 cause []).failHead).serve

/-- Re-arm every loop slot in HOLD at the start of a tension-up: all accepted, or not (R191, R205). A slot accepted leaves HOLD, and is armed in its turn
of the sequence: until then it is OFF (R184, R206; DEDUCED, log 18). -/
def State.rearmAll (s : State) : Bool × State :=
  (List.range 6).foldl (fun (a : Bool × State) n =>
    if (a.2.slot n).st = .hold then (let r := a.2.rearm n (n = 4); (a.1 && r.1, if r.1 then r.2.slotOff n else r.2)) else a) (true, s)

/-- L0 and L1 are armed with v_lim at 0, unless in HOLD: TENSIONING (R184, R191, R205). -/
def State.armReels (s : State) : State :=
  ((s.armUnlessHeld 0).armUnlessHeld 1).modCtl (fun c => { c with tsub := .tensioning, vlim := 0, alim := 0, target := 0, tensFor := 0 })

/-- Enable or disable every transport link. -/
def State.linksOn (s : State) : State := (List.range 4).foldl (fun t k => t.modLink k (fun l => { l with on := true, cmd := 0, mode := 1 })) s

/-- Direction of find position: forward unless the last stored TPN lies beyond 48,303 (R207). -/
def State.findDir (s : State) : Int := if 48303 < s.ctl.lastTpn then -1 else 1

/-- TENSION_UP (R205, R408): a need for tape in READY, PARKED or SERVICE with the transport braked. `pg10` and `pg11` are the answers of the
transport rails, asked for at the first tension-up after BOOT. -/
def execTensionUp (pg10 pg11 : Bool) (s : State) : Out :=
  .next (
    let can := s.ctl.tsub = .braked && s.ctl.stage = 0 && s.ctl.after.isNone && !s.nv.pp && s.tapeNeeded
      && (s.mag.st = .ready || s.mag.st = .parked || s.mag.st = .service)
    if !can then s
    else
      let s0 := s.tapeState .tensioned
      if !s0.ctl.railsUp && !(pg10 && pg11) then
        ((s0.raise 0x783 1 (leBytes 1 (if pg10 then 11 else 10))).modPw (fun p =>
          { p with en := p.en % 1024, pgood := p.pgood % 1024 })).tensionFail 1
      else
        let s1 := (s0.modCtl (fun c => { c with railsUp := true })).modPw (fun p =>
          { p with en := p.en % 1024 + 3072, pgood := p.pgood % 1024 + 3072 })
        let r := s1.rearmAll
        if !r.1 then r.2.tensionFail 2
        else
          let t := (r.2.linksOn.modCtl (fun c =>
            { c with brake := false, scb := false, fast := false, supStop := false, probed := false, dwell := false, reversing := false, begun := true
                     probeTpn := false, tensFor := 0, sweep := none, swept := false
                     stage := match c.tasks with | .load _ :: _ => 1 | _ => 0 })).modRc (fun x =>
              { x with servo := x.servo.map (fun e => (e.1, { e.2 with ref := 256 * e.2.amps.sum / max 1 e.2.amps.length })) })
          if t.ctl.radiusOk then t.armReels
          else t.modCtl (fun c => { c with tsub := .probing, dir := t.findDir }))

/-- RADIUS_PROBE_DONE (R206): the radii measured, or the probe failed. -/
def execRadiusProbeDone (ok : Bool) (supplyUm takeupUm : Nat) (s : State) : Out :=
  .next (
    if s.ctl.tsub != .probing then s
    else if ok then
      ((s.modCtl (fun c => { c with radius := (supplyUm, takeupUm), radiusOk := true, radHist := [] })).modPw (fun p =>
        { p with retRadius := some (supplyUm, takeupUm) })).armReels
    else s.tensionFail 3)

/-- TNS_ shows a tension within 300,000 to 1,000,000 µN. -/
def State.tensionIn (s : State) : Bool := decide (300000 ≤ (s.link 2).a) && decide ((s.link 2).a ≤ 1000000)

/-- A running probe is looked at once per super-frame: it fails when the tension leaves its range after having been in it, or when the measured speed
exceeds 600 mm/s (R206). -/
def State.probeWatch (s : State) : State :=
  if s.ctl.tsub != .probing then s
  else if (s.ctl.tensFor != 0 && !s.tensionIn) || (s.rc.speedOk && decide (600000 < s.rc.speed.natAbs)) then s.tensionFail 3
  else if s.tensionIn then s.modCtl (fun c => { c with tensFor := 1 })
  else s

/-- TENSION_SETTLED (R184, R205, R207): L2, should its 5 ms not have passed in super-frames, then L3, and L4 and L5 with it, are armed, unless in HOLD:
HELD. Tension on completes. Unless position is held, find position begins. -/
def execTensionSettled (s : State) : Out :=
  .next (
    if s.ctl.tsub != .tensioning then s
    else
      let t := [3, 4, 5].foldl State.armUnlessHeld (if (s.slot 2).st = .off then s.arm 2 else s)
      let kept := t.positionKept
      let u := t.modCtl (fun c => { c with held := kept, tsub := .held, idleTens := s.pn pCTL_IDLE_TENS })
      let v := match u.ctl.tasks with | .tensionOn _ :: _ => u.finishTask 0 | _ => u
      if kept.isSome then v.serve
      else v.modCtl (fun c => { c with tsub := .finding, sweep := none, swept := false, begun := !c.tasks.isEmpty, dir := v.findDir, target := v.findDir * v.pn pCTL_FIND_V }))

/-- TENSION_TIMEOUT (R205): the tension did not settle; every slot is set OFF. -/
def execTensionTimeout (s : State) : Out :=
  .next (
    if s.ctl.tsub != .tensioning then s
    else ((List.range 6).foldl (fun t n => t.slotOff n) s).tensionFail 1)

/-! ### Find position (R207) -/

/-- Index passes of a service load begin on wrap 0; no retired-channel map is known while they run (R69, R153, R170, R218). -/
def State.startIndexRead (s : State) (w : Nat) : State :=
  (((s.clearCapture.modRc (fun r =>
    { r with pass := some { kind := 2, group := 2 ^ 32 + 4096 * w, last := indexPositions - 1, running := false }, variant := 0, wrap := w, pos := 0
             idx := if w = 0 then [] else r.idx }))).modSp (fun p => { p with indexRetired := none })).startMove (.index w)
    |>.modCtl (fun c => { c with stage := 2 })

/-- POSITION_VALID (R207): the position is confirmed and stored, the boundary index fixed; the next activity begins, or a normal stop. -/
def execPositionValid (tpn frame boundary : Nat) (s : State) : Out :=
  .next (
    if s.ctl.tsub != .finding then s
    else
      let p := 80 * tpn + frame
      let pos := (p, (s.encoder 0).count, (s.encoder 1).count)
      let t := ((s.modRc (fun r => { r with pos10 := p, servo := r.servo.map (fun e => (e.1, { e.2 with k := boundary })) })).modCtl (fun c =>
        { c with held := some pos, lastTpn := tpn, sweep := none, swept := true, tsub := .moving })).modPw (fun w => { w with retPos := some pos })
      match t.ctl.tasks with
      | .load _ :: _ => if t.ctl.stage = 1 then t.startIndexRead 0 else t.serve
      | _ => t.serve)

/-- FIND_POSITION_FAILED (R207): a normal stop, then tension is released and the magazine is READY. -/
def execFindPositionFailed (cause : Nat) (s : State) : Out :=
  .next (if s.ctl.tsub != .finding then s else ((s.raise 0x479 cause []).failHead).stopTape .release false)

/-! ### Arrival (R208, R211, R215, R218) -/

/-- The tape stands at the approach point of a recording or of a pass and ramps to 500 mm/s in the wrap's direction (R208). -/
def State.ramp (s : State) (wrap : Nat) : State :=
  let d : Int := if wrapForward wrap then 1 else -1
  s.modCtl (fun c => { c with tsub := .moving, aim := none, dir := d, target := d * 500, vlim := 0, alim := 0, wrapGoal := wrap })

/-- A park or unload has reached its place: tension is released (R215, R218). -/
def State.parkArrived (s : State) : State := (s.modCtl (fun c => { c with stage := 4 })).letGo .parked

/-- A release of tension has come to its end: BRAKED, and the activity that asked for it completes or goes on: tension off, the writes of a park
(R215, R216), the unloaded cartridge (R218). -/
def State.releaseDone (s : State) (m : MagState) : State :=
  let t := s.toBraked m
  match t.ctl.tasks with
  | .tensionOff _ :: _ => if t.ctl.stage = 1 then (t.finishTask 0).serve else t.serve
  | .park _ eject :: _ =>
    if t.ctl.stage != 4 then t.serve
    else
      let u := t.parkWrites
      if eject then
        let v := u.sealJournal.modCtl (fun c => { c with stage := 5 })
        (if v.ejectReady then v.finishTask 0 else v).serve
      else (u.finishTask 0).serve
  | .unload _ :: _ =>
    if t.ctl.stage != 4 then t.serve
    else (((t.parkWrites).forgetPosition true |>.modMag (fun g => { g with unloaded := true })).modCtl (fun c => { c with stage := 6 })).serve
  | _ => t.serve

/-- LIMITER_UPDATE (R188, R189, R205 to R207, R215): one super-frame; a release whose 20 ms are over ends. -/
def execLimiterUpdate (s : State) : Out :=
  .next (
    let t := s.superFrame.probeWatch
    match t.ctl.rel with
    | some r => if r.left = 0 then t.releaseDone r.goal else t
    | none => t)

/-- A data DS that a waiting read needs from tape (R24, R166). -/
def State.readNeeds (s : State) (q : Nat) : Bool := s.neededDs.contains q

/-- The tape stands still within 2 mm of the point of the move under way (R211). -/
def State.arrived (s : State) : Bool :=
  (s.ctl.tsub = .moving || s.ctl.tsub = .dwell) && s.ctl.vlim = 0 && s.ctl.alim = 0 && s.ctl.aim.elim false s.atAim

/-- LOCATE_ARRIVAL (R24, R208, R211): the tape stands within 2 mm of the point, and the activity goes on. A read that nothing waits for any more ends
in TENSIONED. -/
def execLocateArrival (s : State) : Out :=
  .next (
    if !s.arrived then s
    else
      let t := s.settle
      match t.ctl.tasks with
      | .locate _ _ :: _ => ((t.tapeState .tensioned).finishTask 0).serve
      | .record :: _ =>
        if t.sp.tailScan then s
        else ((t.tapeState .spooling).ramp t.recWrap).modCtl (fun c => { c with stage := 2 })
      | .park _ _ :: _ =>
        if t.ctl.stage = 1 then (if t.sp.tailScan then s else (t.tapeState .spooling).ramp t.recWrap)
        else if t.ctl.stage = 2 then t.ramp t.recWrap
        else t.parkArrived
      | .unload _ :: _ => if t.ctl.stage = 2 then t.ramp t.recWrap else t.parkArrived
      | .read q :: _ =>
        if t.readNeeds q then ((t.tapeState .playback).ramp t.rc.wrap).modCtl (fun c => { c with stage := 2 })
        else (((t.tapeState .tensioned).modRc (fun r => { r with pass := none })).popTask.dropUnwanted).serve
      | .calibrate _ :: _ => (t.ramp t.rc.wrap).modCtl (fun c => { c with stage := 2 })
      | .load _ :: _ => t.ramp t.rc.wrap
      | _ => (t.tapeState .tensioned).serve)

/-- LOCATE_TIMEOUT (R211): a locate that has not arrived after 90 s is ended with a normal stop. -/
def execLocateTimeout (s : State) : Out :=
  .next (
    if s.ctl.aim.isNone || !s.moves then s
    else ((s.raise 0x47A 1 []).failHead).stopTape .hold false)

/-! ### Stops (R24, R195, R209, R213, R214) -/

/-- A stop while the append wrap was recorded: the positions passed are consumed, and recording resumes at the second position after the last
one passed, blank ones included, once any has passed since the wrap began (R62, R209). A generation being recorded is not resumed. -/
def State.resumePoint (s : State) : State :=
  if (s.mag.st = .spooling || s.mag.st = .crawl) && s.sp.gen.isNone && s.sp.wrapUsed && !s.sp.wrapEnd && !s.sp.resume then
    (s.modSp (fun p => { p with pos := p.pos + 1, resume := true, crawl := none }))
  else s.modSp (fun p => { p with crawl := none })

/-- Slots still on their estimate enter HOLD: the tape is still (R194). -/
def State.endSubstitutions (s : State) : State :=
  (List.range 6).foldl (fun t n => if (t.slot n).subst then t.toHold n (t.slot n).cause else t) s

/-- One of L0 to L3 is in HOLD. -/
def State.reelHeld (s : State) : Bool := (List.range 4).any (fun n => (s.slot n).st = .hold)

/-- State reached when the tape has stopped with tension on (R24): PLAYBACK and SERVICE stay. -/
def State.stillState (s : State) : State := if s.mag.st = .playback then s else s.tapeState .tensioned

/-- STOP_COMPLETE (R24, R195, R209, R213 to R215): the limiter is at zero and the tape rests; what follows is decided by the reason of the stop
and, after a supervisor stop, by the slots in HOLD. -/
def execStopComplete (s : State) : Out :=
  .next (
    let rest := (s.ctl.tsub = .stopping && s.ctl.vlim = 0 && s.ctl.alim = 0) || (s.ctl.tsub = .dynamic && s.ctl.brake)
    match s.ctl.after with
    | none => s
    | some a =>
      if !rest then s
      else
        let t := (s.resumePoint.endSubstitutions).modCtl (fun c => { c with after := none })
        match a with
        | .hold =>
          let u := t.settle.stillState
          (match u.ctl.tasks with
           | .record :: _ => u.popTask.serve
           | .calibrate _ :: _ => if u.ctl.stage = 3 then (u.finishTask u.ctl.unmeasured).serve else u.serve
           | _ => u.serve)
        | .release => t.letGo .ready
        | .park => t.settle.serve
        | .supervisor =>
          let u := t.endSequence
          if u.reelHeld then ((u.stopReads.dropUnwanted).release .ready).serve
          else ((u.settle.tapeState .tensioned).modCtl (fun c => { c with supStop := false })).serve
        | .lid => ((t.endSequence.dropTapeReads).release .ready).serve
        | .emergency =>
          let u := t.endSequence
          if u.mag.st = .drain then u.release .drain
          else (((if u.reelHeld then u.stopReads.dropUnwanted else u.dropTapeReads).release .ready).forgetPosition false).serve
        | .drain => t.letGo .drain)

/-- TRAPEZE_AUTO_REARM (R166, R191): L4 or L5 in HOLD, the tape held: re-armed, or tension is released and the waiting tape reads are refused. -/
def execTrapezeAutoRearm (s : State) : Out :=
  .next (
    if s.ctl.tsub != .held || s.lateralOkToMove then s
    else
      let r := [4, 5].foldl (fun (a : Bool × State) n =>
        if (a.2.slot n).st = .hold then (let x := a.2.rearm n (n = 4); (a.1 && x.1, x.2)) else a) (true, s)
      if r.1 then r.2.serve
      else (r.2.dropTapeReads).letGo .ready)

/-! ### Idle times (R24, R222) -/

/-- TENSIONED_IDLE_TIMEOUT (R24): the magazine parks. -/
def execTensionedIdleTimeout (s : State) : Out :=
  .next (
    if s.mag.st = .tensioned && s.ctl.tsub = .held && s.ctl.tasks.isEmpty && s.ctl.idleTens != 0 then
      (s.modCtl (fun c => { c with tasks := [.park none false] })).serve
    else s)

/-- PLAYBACK_IDLE_TIMEOUT (R24): TENSIONED; the tape stops when it moves. -/
def execPlaybackIdleTimeout (s : State) : Out :=
  .next (
    if s.mag.st = .playback && !s.readWaits && s.ctl.idlePb != 0 then
      let t := (s.enter .tensioned).modRc (fun r => { r with pass := none })
      (if t.moves then t.stopTape .hold false else t).serve
    else s)

/-! ### Lid (R213, R218, R418) -/

/-- LID_SW_CHANGE (R25, R213, R218, R418): logged in the event ring; opening stops a moving tape, unless a stop of higher rank runs, and completes
an unload; closing ends the unloaded condition. The ring entry's data is open for this type (log 2). -/
def execLidSwChange (opened : Bool) (s : State) : Out :=
  .next (
    let t := ((s.modPw (fun p => { p with lid := opened })).ringAdd 4 (leBytes 10 (s.free 5))).drawn 1
    if !opened then t.modMag (fun g => { g with unloaded := false })
    else
      match t.ctl.tasks, t.ctl.stage with
      | .unload _ :: _, 6 => (t.finishTask 0).serve
      | _, _ =>
        if t.mag.st = .drain || t.ctl.after = some .supervisor || t.ctl.after = some .emergency || t.ctl.after = some .drain then t
        else if t.moves then t.endCopy.stopTape .lid true
        else if t.ctl.tsub = .held && (t.mag.st = .playback || t.mag.st = .spooling || t.mag.st = .crawl || t.mag.st = .locating) then
          ((t.endSequence.dropTapeReads).release .ready).serve
        else t)

end Sys2Proof.Machine
end

