-- ==== Sys2Proof/Machine/ReadChannel.lean ====
section
/-! DEFINITION. The read channel: waking of engine groups (R116), the zone values a lane loads (R123 to R125, R139), framing (R126 to R132),
dropouts and erasure pointers (R133 to R136), delivery of rows (R137, R138), servo lanes (R140 to R145, R149), and the preamplifiers (R138,
R497, R498). The samples of the data lanes, and the marks, times and amplitudes of the servo frames, come from the tape: they are operands. -/

namespace Sys2Proof.Machine

/-! ### Whether a wrap is being decoded -/

/-- Change lane `c`. -/
def State.modLane (s : State) (c : Nat) (f : Lane → Lane) : State := s.modRc (fun r => { r with lanes := NMap.upd Lane.zero r.lanes c f })

/-- Wrap that the data lanes decode: the one being recorded, for verify, else the one being read. -/
def State.laneWrap (s : State) : Nat := if s.recording then s.recWrap else s.rc.wrap

/-- The data lanes decode: the tape moves in the wrap's recording direction, and a copy is verified or a pass is under way (R13, R115). -/
def State.decoding (s : State) : Bool :=
  s.ctl.tsub.moves && s.ctl.aim.isNone && !s.ctl.shuttle && (s.recording || s.rc.pass.isSome) && s.mag.st != .drain
    && decide (s.ctl.dir = (if wrapForward s.laneWrap then 1 else -1))

/-- Kind of the pass under way, none while recording. -/
def State.passKind (s : State) : Option Nat := if s.recording then none else s.rc.pass.map (fun p => p.kind)

/-- The engine group of lane `c` is awake while the lanes decode (R116). -/
def State.groupOn (s : State) (c : Nat) : Bool := s.decoding && s.rc.awake.contains (c / 32)

/-- Why a lane delivers every row as erased: 6 its channel is retired, outside calibrate; 7 its module's preamplifier has failed (R138, R497). -/
def State.laneDead (s : State) (c : Nat) : Option Nat :=
  if s.moduleBad (c / 32) then some 7 else if s.sp.retired.contains c && !s.calibrating then some 6 else none

/-- Lane `c` frames rows: its group is awake, its channel is not retired, outside calibrate, and its module is sound (R116, R138). -/
def State.laneOn (s : State) (c : Nat) : Bool := s.groupOn c && (s.laneDead c).isNone

/-! ### Zone values (R121, R123 to R125, R139) -/

/-- Zone of a speed in µm/s without hysteresis: the last whose lower edge it reaches, Z0 below the first. -/
def State.rawZone (s : State) (v : Int) : Nat :=
  ((List.range 16).filter (fun z => z != 0 && decide (1000 * (s.pni pTRC_ZEDGE z : Int) ≤ (v.natAbs : Int)))).getLastD 0

/-- The copy whose DS separator a lane sees next: the first started that it has not seen (R124, R126). -/
def State.nextCopy (s : State) (c : Nat) : Option Started := s.sp.started.find? (fun x => !x.heads.contains c)

/-- Zone of the DS that begins on lane `c`: that of the copy being verified, else the zone of the measured speed (R81, R124). -/
def State.laneZone (s : State) (c : Nat) : Nat :=
  if s.recording then ((s.nextCopy c).map (fun x => x.zone)).getD s.sp.zone
  else match (s.lane c).zone with
    | some z => s.nextZone z s.rc.speed
    | none => s.rawZone s.rc.speed

/-- Read tag of the DS that begins on lane `c`: the copy verified, or the position read, or the one after when the lane has had that (R137). -/
def State.nextTag (s : State) (c : Nat) : Nat :=
  if s.recording then ((s.nextCopy c).map (fun x => readTag x.wrap x.pos)).getD (readTag s.recWrap s.sp.pos)
  else
    let t := readTag s.rc.wrap s.rc.pos
    match (s.lane c).tag with
    | some x => if x / 2 ^ 20 = s.rc.wrap && decide (t ≤ x) then x + 1 else t
    | none => t

/-- The separator of a copy being verified has passed lane `c`. -/
def State.seeHead (s : State) (c : Nat) : State :=
  match (if s.recording then s.nextCopy c else none) with
  | some x => s.modSp (fun p => { p with started := p.started.map (fun y => if y.wrap = x.wrap && y.pos = x.pos then { y with heads := c :: y.heads } else y) })
  | none => s

/-- Read variant in force: 0 at verify (R139). -/
def State.variantNow (s : State) : Nat := if s.recording then 0 else s.rc.variant

/-- Zone whose start values a variant takes (R139). -/
def startZone (variant z : Nat) : Nat :=
  if variant = 1 then (if z = 0 then 1 else z - 1) else if variant = 2 then (if z = 15 then 14 else z + 1) else z

/-- Detector target a variant takes; a calibrate pass reads under its own (R139, R147). -/
def State.laneTarget (s : State) (z : Nat) : Nat :=
  let v := s.variantNow
  match s.passKind, s.rc.pass with
  | some 3, some p => p.group % 16
  | _, _ => if 5 ≤ v && v ≤ 8 then v - 5 else s.pni pTRC_TGT_SEL z

/-- Load the start values of a zone into a lane (R124). -/
def State.loadLane (s : State) (c z : Nat) (l : Lane) : Lane :=
  let zs := startZone s.variantNow z
  let e := s.pni pTRC_ZTAB (512 * zs + c)
  let f := s.pvs pTRC_FIR_INIT (11 * zs) 11
  { l with zone := some z, reload := false, cur := e, start := e, target := s.laneTarget z, boundRun := 0, fir := f.map (256 * ·), fir0 := f }

/-- Factor on the adaptation bounds of a variant: doubled for 3, none for 4 (R139). -/
def State.boundFactor (s : State) : Nat := if s.variantNow = 3 then 2 else if s.variantNow = 4 then 0 else 1

/-- The bounds that a DS separator takes over (R125, R150). -/
def State.boundsNow (s : State) : Bounds :=
  { gain := s.pn pTRC_GAIN_BND, offset := s.pn pTRC_OFS_BND, asym := s.pn pTRC_ASY_BND, fir := s.pn pTRC_FIR_BND, mu := s.pn pTRC_FIR_MU
    adapt := s.pn pTRC_ADAPT, factor := s.boundFactor }

/-- TRC_SYNC_MAXD, or 6 under variants 3 and 4 (R139). -/
def State.syncMax (s : State) : Nat := if s.variantNow = 3 || s.variantNow = 4 then 6 else s.pn pTRC_SYNC_MAXD

/-- The row parameters in force (R150). -/
def State.rowParNow (s : State) : RowPar :=
  { sync := s.syncMax, resync := s.pn pTRC_RSYNC_MAXD, loss := s.pn pTRC_SYNC_LOSS, thr := s.pn pTRC_DO_THR, win := s.pn pTRC_DO_WIN, ta := s.pn pTRC_TA_THR
    ext := s.pn pTRC_DO_EXT, rowMax := s.pn pTRC_DO_ROWMAX }

/-- Lane `c` hears a run of input samples, in 1/256 LSB at 0 dB (R117 to R122, R133). -/
def State.hear (s : State) (c : Nat) (us : List Int) : State :=
  s.modLane c (fun l =>
    l.hears { period := bitPeriod s.rc.speed.natAbs, taps := targetTaps (s.pvs pTRC_TGT_USER 0 5) l.target, par := s.rowParNow }
      (entryGain l.cur, entryOffset l.cur, entryAsym l.cur) us)

/-- A code after `n` steps at most towards `v`, held within `b` of its start; the result says whether it stands at the bound. -/
def bounded (b n : Nat) (start now v : Int) : Int × Bool :=
  let w := max (now - n) (min (now + n) v)
  let x := max (start - b) (min (start + b) w)
  (x, decide (b ≠ 0) && (x = start - b || x = start + b))

/-- The gain, offset and asymmetry codes at the end of a row (R125, R133): towards what adaptation would reach, by one step per 64, 64 and 256 bits,
within the bounds around those loaded, held at the loaded value where TRC_ADAPT freezes them. Gain and offset pause in a thermal asperity. The
result says whether one stands at a bound, or a coefficient of the equaliser does. -/
def Lane.adapt (l : Lane) (gain offset asym : Int) : Nat × Bool :=
  let b := l.bnd
  let on (i n : Nat) : Nat := if Nat.testBit b.adapt i then b.factor * n else 0
  let free := rowBits - l.sig.paused
  let g := bounded (on 0 b.gain) (free / 64) (entryGain l.start) (entryGain l.cur) gain
  let o := bounded (on 1 b.offset) (free / 64) (entryOffset l.start) (entryOffset l.cur) offset
  let a := bounded (on 2 b.asym) (rowBits / 256) (entryAsym l.start) (entryAsym l.cur) asym
  let f := on 3 b.fir
  let atEnd := f != 0 && (List.range 11).any (fun i => decide (256 * f ≤ (l.fir.getD i 0 - 256 * l.fir0.getD i 0).natAbs))
  (entryOf g.1 o.1 a.1 (decide (2 ^ 31 ≤ l.start)), g.2 || o.2 || a.2 || atEnd)

/-! ### Separator (R124, R126, R150, R208) -/

/-- Zones that a changed element belongs to, whose statistics are discarded (R146). -/
def zonesTouched (pid i : Nat) : List Nat :=
  if pid = pTRC_ZEDGE then [i, i - 1]
  else if pid = pTRC_ZTAB then [i / 512]
  else if pid = pTRC_TGT_SEL then [i]
  else if pid = pTRC_FIR_INIT then [i / 11]
  else []

/-- Zones whose statistics a pending element discards: those that read under the user's target, for a tap of it (R146). -/
def State.touched (s : State) (pid i : Nat) : List Nat :=
  if pid = pTRC_TGT_USER then (List.range 16).filter (fun z => s.pni pTRC_TGT_SEL z = 4) else zonesTouched pid i

/-- Commits of the zone group and the equaliser group act at a DS separator: every lane loads anew at its next one (R124, R150). -/
def State.applyZoneGroups (s : State) : State :=
  let mine (p i : Nat) : Bool := let g := (groupOf p i).1; g = pTRC_ZEDGE || g = pTRC_TGT_SEL
  let zs := s.pend.flatMap (fun e => s.touched (e.1 / 2 ^ 20) (e.1 % 2 ^ 20) ++ (s.applyPend mine).touched (e.1 / 2 ^ 20) (e.1 % 2 ^ 20))
  if s.pend.any (fun e => mine (e.1 / 2 ^ 20) (e.1 % 2 ^ 20)) then
    (s.applyPend mine).modRc (fun r =>
      { r with lanes := r.lanes.map (fun (e : Nat × Lane) => (e.1, { e.2 with reload := true })), cal := r.cal.filter (fun e => !zs.contains (e.1 / 512)) })
  else s

/-- Speed a pass runs at from the leading edge of its first position (R165, R169, R208, R217), mm/s. -/
def State.passSpeed (s : State) (p : Pass) : Nat :=
  if p.kind = 1 then s.pn pTRC_RETRY_SPEED else if p.kind = 3 then s.midSpeed (p.group / 16) else s.pn pTRC_PB_VMAX

/-- The leading edge of the first position of a pass: its own speed target takes over (R208). -/
def State.passBegins (s : State) : State :=
  if s.recording then s
  else match s.rc.pass with
    | some p =>
      if p.running then s
      else (s.modRc (fun r => { r with pass := some { p with running := true } })).modCtl (fun c => { c with target := c.dir * (s.passSpeed p : Nat) })
    | none => s

/-- A lane searches for the next separator: framing is over, and TRC_SEP_MIN is taken (R126, R150). -/
def State.search (s : State) (c : Nat) : State :=
  s.modLane c (fun l =>
    { l with inDs := false, bits := [], bitsAt := l.sig.n - 63, mark := l.sig.n, sepMin := some (s.pn pTRC_SEP_MIN), cands := [], framed := 0, ptrs := []
             sig := { l.sig with done := [] } })

/-- A DS begins on lane `c` with its bit 480 at `k` in the detected bits: zone, tag and bounds are taken, slot 0's sync is expected at DS bit 600. -/
def State.beginDs (s : State) (c k : Nat) : State :=
  let l := s.lane c
  let z := s.laneZone c
  let m := if l.reload || l.zone != some z then s.loadLane c z l else l
  (s.modLane c (fun _ =>
    { m with inDs := true, next := 0, confirmed := none, expect := 600, expects := [], cands := [], framed := 0, ptrs := [], missRun := 0, unlocked := 0
             lost := false, late := false, bits := l.bits.drop k, bitsAt := l.bitsAt + k, mark := l.bitsAt + k, tag := some (s.nextTag c)
             bnd := s.boundsNow, par := s.rowParNow, sig := { m.sig with done := [] } })).seeHead c

/-- DS_SEPARATOR_DETECTED (R124, R126, R129): the samples bring a separator to its end. A lane that frames a DS searches for none. -/
def execDsSeparatorDetected (lane : Nat) (samples : List Int) (s : State) : Out :=
  .next (
    if !s.laneOn lane then s
    else
      let t := s.hear lane samples
      let l := t.lane lane
      match (if l.inDs then none else separatorEnd (l.sepMin.getD (t.pn pTRC_SEP_MIN)) l.bits) with
      | some k => (t.applyZoneGroups.passBegins).beginDs lane k
      | none => t)

/-! ### Erased rows (R132, R137, R138) -/

/-- A pointer that erases a whole row (R136). -/
def wholeRow (lane slot cand cause tag : Nat) : Pointer :=
  { chan := lane, slot, cand, first := 0, last := 971, whole := true, cause, tag := tag % 2 ^ 24 }

/-- Erasure pointers go into FIFO 79 (R114, R136). -/
def State.sendPtrs (s : State) (ps : List Pointer) : State := (s.feed 79 (ps.flatMap (fun p => descPacket [p.word]))).1

/-- A row packet goes into the FIFO of its engine group (R114, R137). -/
def State.sendRow (s : State) (lane slot cand : Nat) (p : RowPkt) : State := (s.feed (36 + lane / 32) (p.packet lane slot cand)).1

/-- Deliver a row as erased: its descriptor alone, after a whole-row pointer of this cause (R132, R136 to R138). Of the row that was not found, its
descriptor gives sync offset 0, distance 0, resync missed and time 0 (DESIGN CHOICE, log 74: the manual states none of them). -/
def State.erasedRow (s : State) (lane slot cause : Nat) : State :=
  let l := s.lane lane
  let tag := l.tag.getD (s.nextTag lane)
  let pkt : RowPkt := { two := false, tag, bytes := [], offset := 0, dist := 0, resync := 2, rsOff := 0, zone := l.zone.getD 0, retired := s.sp.retired.contains lane,
                        erased := true, variant := s.variantNow, time := 0 }
  (s.sendPtrs [wholeRow lane slot 0 cause tag]).sendRow lane slot 0 pkt

/-! ### Waking an engine group (R17, R116) -/

/-- A lane that is powered up begins its signal chain anew. -/
def State.powerLane (s : State) (c : Nat) : State := (s.modLane c (fun l => { l with sig := Sig.zero, locked := false, lost := false, late := false })).search c

/-- A lane woken while the others are in a DS joins them: the slots gone by are erased, as are those before its loop has locked (R116). -/
def State.joinDs (s : State) (r : Lane) (c : Nat) : State :=
  let z := s.laneZone c
  let t := (s.modLane c (fun l =>
    { s.loadLane c z l with
      inDs := true, next := r.next, confirmed := none, expect := r.expect, expects := r.expects, bits := r.bits.map (fun _ => false), bitsAt := r.bitsAt
      mark := r.mark, tag := r.tag, late := true, missRun := 0, unlocked := 0, bnd := s.boundsNow, par := s.rowParNow, sig := { l.sig with n := r.sig.n } })).seeHead c
  (List.range r.next).foldl (fun (u : State) k => u.erasedRow c k ((t.laneDead c).getD 5)) t

/-- ENGINE_GROUP_WAKE (R17, R116): the group is awake; it sleeps again when the tape is located, shuttled or turned round. One woken after the leading
edge of a DS separator still reads that DS: its lanes join the others at their place in it. -/
def execEngineGroupWake (g : Nat) (s : State) : Out :=
  .next (
    if !s.decoding || s.rc.awake.contains g then s
    else
      let other := List.find? (fun (e : Nat × Lane) => e.2.inDs && s.rc.awake.contains (e.1 / 32)) s.rc.lanes
      let t := ((List.range 32).map (· + 32 * g)).foldl State.powerLane (s.modRc (fun r => { r with awake := r.awake ++ [g] }))
      match other with
      | some r => ((List.range 32).map (· + 32 * g)).foldl (fun u c => u.joinDs r.2 c) t
      | none => t)

/-! ### Sync windows (R127, R129, R131, R132) -/

/-- The last slot of a DS has gone: the lane searches for the next separator. -/
def State.laneEnd (s : State) (lane : Nat) : State :=
  s.when ((s.lane lane).next = 8 && (s.lane lane).cands.isEmpty) (fun t => t.search lane)

/-- The row of the next slot is delivered as erased and has no alignment; its window is over. -/
def State.missRow (s : State) (lane slot cause : Nat) : State :=
  ((s.modLane lane (fun l =>
    { l with next := slot + 1, expect := l.expected slot, expects := l.expects ++ [l.expected slot], cands := [], framed := 0, ptrs := [] })).erasedRow lane slot
      cause).laneEnd lane

/-- A lane whose rows are all erased: it follows the slots of the DS without looking at the signal (R138). -/
def State.deadRow (s : State) (lane slot cause : Nat) : State :=
  let l := s.lane lane
  let t := if !l.inDs && slot = 0 then
      (s.modLane lane (fun l => { l with inDs := true, next := 0, confirmed := none, expects := [], cands := [], tag := some (s.nextTag lane) })).seeHead lane
    else s
  if (t.lane lane).inDs && (t.lane lane).next = slot then t.missRow lane slot cause else s

/-- SYNC_WINDOW_CLOSE (R127, R129, R132, R138): the samples bring the lane's next window to its close. The best two candidates are kept; with none, or
before a lane woken late has locked, the row is delivered as erased. A lane that does not look delivers every row so. -/
def execSyncWindowClose (lane slot : Nat) (samples : List Int) (s : State) : Out :=
  .next (
    if !s.groupOn lane then s
    else
      match s.laneDead lane with
      | some cause => s.deadRow lane slot cause
      | none =>
        let t := s.hear lane samples
        let l := t.lane lane
        let e := l.expected slot
        if !l.inDs || l.next != slot || decide ((l.bits.length : Int) < e + 16 + 40 - 480) then t
        else if l.late then t.missRow lane slot 5
        else
          let kept := (rankCands l.par.sync (markCands patSync l.bits e 16)).take 2
          if kept.isEmpty then
            ((t.modLane lane (fun l => { l with missRun := l.missRun + 1 })).bumpPv pTRC_SYNC_MISS lane 1).modSp (fun p =>
              { p with chan := NMap.bumpSat (2 ^ 32 - 1) p.chan (8 * lane + 2) 1 }) |>.missRow lane slot 4
          else
            t.modLane lane (fun l =>
              { l with next := slot + 1, expect := e, expects := l.expects ++ [e], cands := kept, framed := 0, ptrs := [], missRun := 0 }))

/-- LOCK_LOST (R131, R148): TRC_SYNC_LOSS slots in a row without a candidate, or the timing loop unlocked for more than 256 bits. The remaining rows of the
DS are delivered as erased; the lane raises its event, loads its start values at the next separator and searches for it. -/
def execLockLost (lane : Nat) (samples : List Int) (s : State) : Out :=
  .next (
    if !s.laneOn lane then s
    else
      let t := s.hear lane samples
      let l := t.lane lane
      let timing := l.inDs && decide (256 < l.unlocked)
      if l.lost || !(timing || (decide (0 < l.missRun) && decide (l.par.loss ≤ l.missRun))) then t
      else
        let first := if !l.inDs then 8 else if l.cands.isEmpty then l.next else l.next - 1
        let u := (List.range (8 - first)).foldl (fun (u : State) k => u.erasedRow lane (first + k) 5) t
        ((u.modLane lane (fun l => { l with locked := false, lost := true, reload := true, next := 8 })).search lane).raise lane (if timing then 2 else 1) [])

/-! ### Dropouts (R133 to R135) -/

/-- First row byte that a row bit from `b` on maps to. -/
def byteFrom (b : Nat) : Option Nat :=
  if b < 160 then rowByteOf 160 else if 4169 ≤ b && b ≤ 4192 then rowByteOf 4193 else rowByteOf b

/-- Last row byte that a row bit up to `b` maps to. -/
def byteUpTo (b : Nat) : Option Nat :=
  if 8202 < b then rowByteOf 8202 else if 4169 ≤ b && b ≤ 4192 then rowByteOf 4168 else rowByteOf b

/-- Pointer of a span of row bits (R135): none when it maps to no byte; the whole row when it covers more than TRC_DO_ROWMAX bytes. -/
def spanPointer (par : RowPar) (tag lane slot cand kind firstBit lastBit : Nat) : Option Pointer :=
  match byteFrom firstBit, byteUpTo lastBit with
  | some a, some b =>
    if b < a then none
    else if par.rowMax < b - a + 1 then some (wholeRow lane slot cand kind tag)
    else some { chan := lane, slot, cand, first := a - par.ext, last := min 971 (b + par.ext), whole := false, cause := kind, tag := tag % 2 ^ 24 }
  | _, _ => none

/-- First DS bit of the open row's alignment `cand`, at its preamble. -/
def Lane.rowStart (l : Lane) (cand : Nat) : Int := l.expect + (l.cands.getD cand (0, 0)).1 - 120

/-- First DS bit after the open row. -/
def Lane.rowEnd (l : Lane) : Int := l.expect - 120 + 8227

/-- Pointers of a span in the open row, one for each alignment not yet delivered (R134, R135). -/
def Lane.spanPtrs (l : Lane) (lane : Nat) (x : Span) : List Pointer :=
  ((List.range l.cands.length).drop l.framed).filterMap (fun cand =>
    let a := l.dsBit x.first - l.rowStart cand
    let b := l.dsBit x.last - l.rowStart cand
    if b < 0 || 8226 < a then none
    else spanPointer l.par (l.tag.getD 0) lane (l.next - 1) cand x.kind (max 0 a).toNat (min 8226 b).toNat)

/-- Count a span once (R150). -/
def State.countSpan (s : State) (lane : Nat) (x : Span) : State :=
  s.when (!x.counted) (fun t => (t.bumpPv pTRC_DO_CNT lane 1).modSp (fun p => { p with chan := NMap.bumpSat (2 ^ 32 - 1) p.chan (8 * lane + 3) 1 }))

/-- Report a span in the open row: its pointers go out before the row does; a whole row erased by a dropout raises the lane's event (R135, R136, R148). -/
def State.tellSpan (s : State) (lane : Nat) (x : Span) : State :=
  let ps := (s.lane lane).spanPtrs lane x
  (((s.countSpan lane x).modLane lane (fun l => { l with ptrs := l.ptrs ++ ps })).sendPtrs ps).when (ps.any (fun p => p.whole)) (fun t => t.raise lane 5 [])

/-- What is left of a span beyond the open row. -/
def Lane.spanRest (l : Lane) (x : Span) : Option Span :=
  if l.dsBit x.last < l.rowEnd then none else some { x with first := max x.first (l.bitsAt + (l.rowEnd - 480).toNat), counted := true }

/-- A report of a span names this one and, where a row is open, that row's slot. -/
def Lane.reports (l : Lane) (slot kind first last : Nat) (x : Span) : Bool :=
  x.kind = kind && x.first = first && x.last = last && (l.cands.isEmpty || l.next = slot + 1)

/-- DROPOUT_SPAN (R133 to R136, R148): the lane's next completed span, of this kind from bit `first` to bit `last` of those it has sampled, is counted and
becomes pointers of the open row, that of `slot`; what lies beyond that row waits for the next. A span before every row still to come maps to no byte. -/
def execDropoutSpan (lane slot kind first last : Nat) (samples : List Int) (s : State) : Out :=
  .next (
    if !s.laneOn lane then s
    else
      let t := s.hear lane samples
      let l := t.lane lane
      match l.sig.done with
      | [] => t
      | x :: xs =>
        let keep (u : State) (r : List Span) : State := u.modLane lane (fun l => { l with sig := { l.sig with done := r } })
        if !l.reports slot kind first last x then t
        else if !l.cands.isEmpty then keep (t.tellSpan lane x) ((l.spanRest x).toList ++ xs)
        else if !l.inDs || l.dsBit x.last < l.expected l.next - 120 then keep (t.countSpan lane x) xs
        else t)

/-! ### Delivery (R130, R135, R137, R138) -/

/-- Pointers of a row alignment that the decoder has taken in. -/
def State.rowPtrs (s : State) (lane slot cand tag : Nat) : List Pointer :=
  s.rc.ptrs.filter (fun p => p.chan = lane && p.slot = slot && p.cand = cand && p.tag = tag % 2 ^ 24)

/-- Row bytes that pointers cover. -/
def ptrBytes (ps : List Pointer) : List Nat := (List.range 972).filter (fun n => ps.any (fun p => decide (p.first ≤ n) && decide (n ≤ p.last)))

/-- A C1 codeword of the row would receive more than 16 erasures (R135). -/
def tooMany (bytes : List Nat) : Bool := (List.range 4).any (fun w => decide (16 < bytes.countP (fun n => decide (12 ≤ n) && (n - 12) % 4 = w)))

/-- Every span that touches the open row and has not been reported is reported, an open one up to the row's end (R135, R136). -/
def State.tellRow (s : State) (lane : Nat) : State :=
  let l := s.lane lane
  let open_ := l.sig.span.toList ++ l.sig.clip.toList
  let touches (x : Span) : Bool := decide (l.dsBit x.first < l.rowEnd)
  let t := ((l.sig.done ++ open_).filter touches).foldl (fun (u : State) x => u.tellSpan lane x) s
  let rest (o : Option Span) : Option Span :=
    o.map (fun x => if touches x then { x with first := max x.first (l.bitsAt + (l.rowEnd - 480).toNat), counted := true } else x)
  t.modLane lane (fun m =>
    { m with sig := { m.sig with done := l.sig.done.filterMap (fun x => if touches x then l.spanRest x else some x), span := rest l.sig.span, clip := rest l.sig.clip } })

/-- The end of a row on a lane: its values adapt, clipping of more than 1 % of its samples and a value held at a bound for 64 rows are reported
(R125, R148); after slot 7 the lane searches. -/
def State.rowOver (s : State) (lane : Nat) (gain offset asym : Int) : State :=
  let l := s.lane lane
  let ad := l.adapt gain offset asym
  let run := if ad.2 then l.boundRun + 1 else 0
  let t := s.modLane lane (fun m =>
    { m with cur := ad.1, boundRun := run, cands := [], framed := 0, ptrs := [], sig := { m.sig with samples := 0, clipped := 0, paused := 0 } })
  (((t.when (decide (l.sig.samples < 100 * l.sig.clipped)) (fun w => w.raise lane 4 [])).when (run = 64) (fun w => w.raise lane 3 []))).laneEnd lane

/-- ROW_FRAMED (R123, R125, R130, R135, R137): the samples complete the next alignment of the lane's open row. It is framed from the detected bits and goes
out after its pointers; with the last alignment the row is over, and `gain`, `offset` and `asym` are the codes that adaptation would have reached. -/
def execRowFramed (lane slot cand : Nat) (samples : List Int) (timeNs gain : Nat) (offset asym : Int) (s : State) : Out :=
  .next (
    if !s.laneOn lane then s
    else
      let t := s.hear lane samples
      let l := t.lane lane
      let c := l.cands.getD cand (0, 0)
      let a := l.expect + c.1
      if !l.inDs || l.next != slot + 1 || l.cands.length ≤ cand || l.framed != cand || decide ((l.bits.length : Int) < a - 120 + 8203 - 480) then t
      else
        let u := if cand = 0 then t.tellRow lane else t
        let ps := (u.lane lane).ptrs.filter (fun p => p.cand = cand)
        let tag := l.tag.getD 0
        let many := tooMany (ptrBytes ps)
        let whole := ps.any (fun p => p.whole)
        let rs := resyncOf l.par.resync l.bits a
        let pkt : RowPkt :=
          { two := decide (1 < l.cands.length), tag, bytes := frameRow l.bits a rs, offset := c.1, dist := c.2
            resync := (match rs with | some r => if r.1 = 0 then 0 else 1 | none => 2), rsOff := (rs.map (fun r => r.1)).getD 0
            zone := l.zone.getD 0, retired := s.sp.retired.contains lane, erased := many || whole, variant := s.variantNow, time := timeNs % 2 ^ 32 }
        let v := (u.when (many && !whole) (fun w => (w.sendPtrs [wholeRow lane slot cand 1 tag]).raise lane 5 [])).sendRow lane slot cand pkt
        let w := v.modLane lane (fun m => { m with framed := cand + 1 })
        if cand + 1 = l.cands.length then w.rowOver lane gain offset asym else w)

/-! ### Servo lanes (R140 to R145, R149) -/

/-- A servo lane of which nothing is known. -/
def Servo.zero : Servo := { k := 0, amps := [], err := none, time := 0, tpn := none, frame := 0, crcRun := 0, outRun := 0, ref := 0 }

/-- Servo lane `i`. -/
def State.servo (s : State) (i : Nat) : Servo := NMap.get Servo.zero s.rc.servo i

/-- Change servo lane `i`. -/
def State.modServo (s : State) (i : Nat) (f : Servo → Servo) : State := s.modRc (fun r => { r with servo := NMap.upd Servo.zero r.servo i f })

/-- Direction the tape moves in: that of the measured speed while it is valid, else of the limiter, else of the sequence. -/
def State.tapeDir (s : State) : Int :=
  if s.rc.speedOk && s.rc.speed != 0 then sgn s.rc.speed else if s.ctl.vlim != 0 then sgn s.ctl.vlim else if s.ctl.dir < 0 then -1 else 1

/-- Target of a wrap relative to boundary `k`, nm, with the offset of the read variant (R139, R140, R144). -/
def State.lateralTarget (s : State) (k : Nat) : Int :=
  let w := s.ctl.wrapSel
  let v := s.variantNow
  let off : Int := if v = 9 then 90 else if v = 10 then -90 else if v = 11 then 180 else if v = 12 then -180 else 0
  1800 * (((w + 1) / 2 : Nat) - (k : Int)) + (if w % 2 = 0 then 450 else -450) + off

/-- Insert by value. -/
def intInsert (x : Int) : List Int → List Int
  | [] => [x]
  | y :: ys => if x ≤ y then x :: y :: ys else y :: intInsert x ys

/-- Median; of an even number of values, the mean of the middle two, rounded down. -/
def median (l : List Int) : Int :=
  let m := l.foldr intInsert []
  let n := m.length
  if n % 2 = 1 then m.getD (n / 2) 0 else (m.getD (n / 2 - 1) 0 + m.getD (n / 2) 0) / 2

/-- Errors of the valid, unmasked readers (R144). -/
def State.lateralErrs (s : State) : List (Nat × Int) :=
  s.rc.servo.filterMap (fun (e : Nat × Servo) => if Nat.testBit (s.pn pTRC_SVO_MASK) e.1 then e.2.err.map (fun x => (e.1, x)) else none)

/-- Present the lateral sample: the mean of the errors within TRC_SVO_OUTL of the median (R144). -/
def State.lateralSample (s : State) : State :=
  let es := s.lateralErrs
  let m := median (es.map Prod.snd)
  let use := es.filter (fun e => decide ((e.2 - m).natAbs ≤ s.pn pTRC_SVO_OUTL))
  if use.isEmpty then s.modRc (fun r => { r with lateralOk := false })
  else
    let e := roundMean (use.foldl (fun a x => a + x.2) 0) use.length
    s.modRc (fun r => { r with lateral := e, lateralOk := true
                               lateralTime := use.foldl (fun t x => max t (NMap.get Servo.zero r.servo x.1).time) 0 })

/-- The position most servo lanes report (R145); it stays while no lane has a valid TPN. -/
def State.reportPos (s : State) : State :=
  match majority (s.rc.servo.filterMap (fun (e : Nat × Servo) => e.2.tpn.map (fun n => (80 * n + e.2.frame, 0)))) with
  | some (p, _) => s.modRc (fun r => { r with pos10 := p.1 })
  | none => s

/-- One frame of tape has passed a lane: its place in the word moves on, and the TPN with it (R145). A start-of-word mark is frame 0. -/
def Servo.advance (x : Servo) (fwd : Bool) (start : Bool) : Servo :=
  if fwd then
    (if x.frame = 79 then { x with frame := 0, tpn := x.tpn.map (· + 1) } else { x with frame := if start then 0 else x.frame + 1 })
  else if x.frame = 0 then { x with frame := if start then 0 else 79, tpn := if start then x.tpn else x.tpn.map (· - 1) }
  else { x with frame := if start then 0 else x.frame - 1 }

/-- Distance of a reader from boundary `k` in nm, and the boundary it then lies near (R143). -/
def lateralOf (k a b : Nat) : Int × Nat :=
  let sum : Nat := a + b
  let d0 : Int := if sum = 0 then 0 else (1800 * ((b : Int) - a) + sum) / (2 * sum : Nat)
  let d := if k % 2 = 0 then d0 else -d0
  if 900 ≤ d && k < 24 then (-900, k + 1) else if d ≤ -900 && 0 < k then (900, k - 1) else (d, k)

/-- SERVO_FRAME (R141, R143 to R145, R149): mark type 0 for M0, 1 for M1, 2 for MS, any other when it is not recognised; its time and the amplitudes of
the two tones. -/
def execServoFrame (lane mark timeNs a b : Nat) (s : State) : Out :=
  .next (
    let x := (s.servo lane).advance (decide (0 < s.tapeDir)) (mark = 2)
    let valid := decide (mark < 3) && decide (0 < a + b) && decide (s.pn pTRC_SVO_AMIN * x.amps.sum ≤ 100 * (a + b) * x.amps.length)
    let t :=
      if !valid then s.modServo lane (fun _ => x)
      else
        let d := lateralOf x.k a b
        let amps := ((a + b) :: x.amps).take 256
        let half (l : List Nat) : Bool := decide (2 * 256 * l.sum < x.ref * l.length)
        let y := { x with k := d.2, err := some (d.1 - s.lateralTarget d.2), time := timeNs, amps }
        (s.modServo lane (fun _ => y)).when (half amps && !half x.amps) (fun u => u.raise (0x4C0 + lane) 4 [])
    let u := t.lateralSample
    let es := u.lateralErrs
    let m := median (es.map Prod.snd)
    let out := valid && es.any (fun e => e.1 = lane && decide (s.pn pTRC_SVO_OUTL < (e.2 - m).natAbs))
    let v := u.modServo lane (fun y => { y with outRun := if out then y.outRun + 1 else if valid then 0 else y.outRun })
    (v.when (out && (v.servo lane).outRun = 256) (fun w => w.raise (0x4C0 + lane) 3 [])).reportPos)

/-- SERVO_FRAME_TIMEOUT (R144, R149): no frame of the lane has been valid for two frame lengths of travel. -/
def execServoFrameTimeout (lane : Nat) (s : State) : Out :=
  .next (
    if !s.moves then s
    else ((s.modServo lane (fun x => { x with err := none })).lateralSample).raise (0x4C0 + lane) 1 [])

/-- The CRC of a tape position word passes: `bits` holds word bits 1 to 79, bit 1 the most significant (R142). -/
def wordOk (bits : Nat) : Bool := crc16Bits (msbBits 63 (bits / 2 ^ 16)) = bits % 2 ^ 16

/-- TPN of a tape position word. -/
def wordTpn (bits : Nat) : Nat := bits / 2 ^ 59 % 2 ^ 20

/-- The first TPN decoded in a radius probe lies within 1,000 mm of a travel limit in the probe's direction: the probe turns round once, and fails
the second time (R206). -/
def State.probeLook (s : State) (tpn : Nat) : State :=
  let near := if 0 < s.ctl.dir then decide (772728 < 8 * tpn + 1000) else decide (8 * tpn < 128 + 1000)
  if s.ctl.tsub != .probing || s.ctl.probeTpn then s
  else if !near then s.modCtl (fun c => { c with probeTpn := true })
  else if s.ctl.probed then s.tensionFail 3
  else s.modCtl (fun c => { c with probed := true, dir := -c.dir })

/-- TAPE_POSITION_WORD (R142, R145, R149, R206): a lane has received a whole word. -/
def execTapePositionWord (lane bits : Nat) (s : State) : Out :=
  .next (
    if wordOk bits then
      ((s.modServo lane (fun x => { x with tpn := some (wordTpn bits), frame := if 0 < s.tapeDir then 79 else 0, crcRun := 0 })).reportPos).probeLook
        (wordTpn bits)
    else
      let run := min 3 ((s.servo lane).crcRun + 1)
      let t := s.modServo lane (fun x => { x with crcRun := run, tpn := if run = 3 then none else x.tpn })
      (t.when (run = 3 && decide ((s.servo lane).crcRun < 3)) (fun u => u.raise (0x4C0 + lane) 2 [])).reportPos)

/-- Speed of one lane in µm/s from its newest frame marks: their number, at most 8, and their span in ns, at most 1 ms (R145). -/
def laneSpeed (m : Nat × Nat) : Option Int :=
  if 2 ≤ m.1 && m.1 ≤ 8 && 0 < m.2 && m.2 ≤ 1000000 then some (((m.1 - 1) * 100000000000 / m.2 : Nat) : Int) else none

/-- SPEED_MEASUREMENT (R145): the measured speed is the median over the lanes with marks enough. -/
def execSpeedMeasurement (reverse : Bool) (marks : List (Nat × Nat)) (s : State) : Out :=
  .next (
    let vs := marks.filterMap laneSpeed
    if vs.isEmpty then (s.modRc (fun r => { r with speedOk := false })).brakeLook
    else
      let v := median vs
      ((s.modRc (fun r => { r with speed := if reverse then -v else v, speedOk := true })).when (v != 0) State.noteMotion).brakeLook)

/-! ### Preamplifiers (R138, R497, R498) -/

/-- Check a reply of the preamp control link: its CRC-8 over the register byte and the value, and a write's confirmation. -/
def replyOk (rd : Bool) (reg data reply : Nat) : Bool :=
  crc8 [BitVec.ofNat 8 reg, BitVec.ofNat 8 (reply / 256)] = reply % 256 && (rd || reply / 256 % 256 = data)

/-- PREAMP_TRANSACTION (R497, R498): a transaction with module `m` and its up to three replies, each the value and its CRC-8. The third failure counts
and makes the module's lanes deliver erased rows; a success ends that. None is sent while HMC_FLT is high, but for the status read that its
rise asks for. -/
def execPreampTransaction (m : Nat) (rd : Bool) (reg data : Nat) (replies : List Nat) (s : State) : Out :=
  .next (
    if s.rc.hmcFlt.contains m || replies.isEmpty then s
    else
      let ok (x : Nat) : Bool := replyOk rd reg data x
      match (replies.take 3).find? ok with
      | some x =>
        let t := s.modRc (fun r => { r with hmcBad := r.hmcBad.filter (· != m), preamp := if reg = 0 then NMap.put r.preamp m (x / 256 % 256) else r.preamp })
        t.when (rd && reg = 0x40) (fun u => u.setElem pTRC_PA_STAT m (x / 256 % 256))
      | none =>
        if replies.length < 3 then s
        else
          ((s.modRc (fun r => { r with hmcBad := if r.hmcBad.contains m then r.hmcBad else r.hmcBad ++ [m] })).bumpPv pCTL_HMC_ERR m 1).raise 0x47D
            (if !rd && reg = 0 then 2 else 1)
            (leBytes 1 m))

/-- PREAMP_FAULT (R138, R148, R498): HMC_FLT of module `m` has been high for 200 ns. The status read once goes to TRC_PA_STAT and into the event. -/
def execPreampFault (m status : Nat) (s : State) : Out :=
  .next (
    if s.rc.hmcFlt.contains m then s
    else
      (((s.noteFault 0x0C).modRc (fun r => { r with hmcFlt := r.hmcFlt ++ [m] })).setElem pTRC_PA_STAT m (status % 256)).raise (32 * m) 6 (leBytes 1 status))

/-- HMC_FLT_RELEASE (R498): the line falls. -/
def execHmcFltRelease (m : Nat) (s : State) : Out := .next (s.modRc (fun r => { r with hmcFlt := r.hmcFlt.filter (· != m) }))

end Sys2Proof.Machine
end

