-- ==== Sys2Proof/Machine/Decoding.lean ====
section
/-! DEFINITION. The decoder: rows (R52, R128, R151 to R154), captures (R152, R155 to R158), the ends of passes and the retry ladders (R159, R163 to
R170), index reads (R69, R170), calibrate passes (R147, R217), and records on their way to a reader (R161, R162, R248). -/

namespace Sys2Proof.Machine

/-! ### Row headers and C1 (R52, R128, R151, R154) -/

/-- Seed of the row that channel `c` carries in slot `k`. -/
def rowSeed (q c k : Nat) : Nat := let p := rowAt c k; scrSeed q (128 * p.1 + p.2) c

/-- A row header under the hypothesis `q`: its fields and the number of symbols corrected, when the hypothesis qualifies (R52). -/
def headerUnder (bytes : Bytes) (er : List Nat) (lane slot q : Nat) : Option (RowHead × Nat) :=
  let h := toNats (scramble (rowSeed q lane slot) (bytes.take 12))
  match rsDecode 4 h (er.filter (fun n => decide (n < 12))) with
  | some r =>
    let f := RowHead.of (ofNats (r.symbols.take 8))
    if f.seq % 2 = q then some (f, ((List.range 12).filter (fun i => h.getD i 0 != r.symbols.getD i 0)).length) else none
  | none => none

/-- The row header of an alignment (R52): none when it has failed. `expect` is the sequence field expected. -/
def headerOf (bytes : Bytes) (er : List Nat) (lane slot : Nat) (expect : Option Nat) : Option RowHead :=
  match headerUnder bytes er lane slot 0, headerUnder bytes er lane slot 1 with
  | some a, none => some a.1
  | none, some b => some b.1
  | none, none => none
  | some a, some b =>
    if a.2 < b.2 then some a.1
    else if b.2 < a.2 then some b.1
    else if some a.1.seq = expect then some a.1
    else if some b.1.seq = expect then some b.1
    else none

/-- A header fits the lane, the slot and R48 (R151). -/
def headerFits (h : RowHead) (lane slot : Nat) : Bool := h.chan = lane && h.slot = slot && decide ((h.sds, h.row) = rowAt lane slot)

/-- C1 codeword `w` of a descrambled row, decoded with its erasures within the limits of R154. -/
def c1Word (emax : Nat) (row : Bytes) (er : List Nat) (w : Nat) : Option RsResult :=
  let cw := (List.range 240).map (fun i => (row.getD (12 + 4 * i + w) 0).toNat)
  match rsDecode 16 cw ((er.filter (fun n => decide (12 ≤ n) && (n - 12) % 4 = w)).map (fun n => (n - 12) / 4)) with
  | some r => if r.errors ≤ emax then some r else none
  | none => none

/-- The four C1 codewords of an alignment whose header has passed. -/
def c1Words (emax : Nat) (bytes : Bytes) (er : List Nat) (lane slot q : Nat) : List (Option RsResult) :=
  (List.range 4).map (c1Word emax (scramble (rowSeed q lane slot) bytes) er)

/-- C1 codewords of an alignment under the hypothesis `q` whose 16 syndromes are all zero, and the non-zero syndrome symbols of all four (R128). -/
def syndromesUnder (bytes : Bytes) (lane slot q : Nat) : Nat × Nat :=
  let row := scramble (rowSeed q lane slot) bytes
  (List.range 4).foldl (fun a w =>
    let bad := (rsSyndromes 16 ((List.range 240).map (fun i => (row.getD (12 + 4 * i + w) 0).toNat))).countP (fun x => x != 0)
    (if bad = 0 then a.1 + 1 else a.1, a.2 + bad)) (0, 0)

/-- One pair of counts is better than another: more codewords without a syndrome, then fewer non-zero syndrome symbols (R128). -/
def cleaner (a b : Nat × Nat) : Bool := decide (b.1 < a.1) || (a.1 = b.1 && decide (a.2 < b.2))

/-- The counts of an alignment without a header, under the value of `q` that gives the better ones (DESIGN CHOICE, log 74: a failed header names none). -/
def alignCounts (bytes : Bytes) (lane slot : Nat) : Nat × Nat :=
  let a := syndromesUnder bytes lane slot 0
  let b := syndromesUnder bytes lane slot 1
  if cleaner b a then b else a

/-- An alignment as ROW_DECODE sees it: candidate, packet, erased bytes, header, C1 codewords. -/
structure Align where
  /-- Candidate index. -/
  cand : Nat
  /-- Erased row bytes. -/
  er : List Nat
  /-- Its header, when it has passed. -/
  head : RowHead
  /-- Its C1 codewords. -/
  words : List (Option RsResult)
  /-- Its packet. -/
  pkt : RowPkt
  deriving DecidableEq, Repr

/-- Alignment `cand` of a row, when it was framed and its header passes. -/
def State.align (s : State) (lane slot : Nat) (expect : Option Nat) (cand : Nat) : Option Align :=
  match NMap.find? s.rc.rows (rowKey lane slot cand) with
  | some p =>
    let er := ptrBytes (s.rowPtrs lane slot cand p.tag)
    if p.bytes.isEmpty then none
    else
      (headerOf p.bytes er lane slot expect).map (fun h =>
        { cand, er, head := h, words := c1Words (s.pn pTRC_C1_EMAX) p.bytes er lane slot (h.seq % 2), pkt := p })
  | none => none

/-- Failed C1 codewords of an alignment. -/
def Align.failed (a : Align) : Nat := a.words.countP (fun w => w.isNone)

/-- The alignment chosen among those whose headers pass (R128): the one that fits, then the one with fewer failed codewords, then the best
candidate. -/
def chooseAlign (lane slot : Nat) : Option Align → Option Align → Option Align
  | some a, none => some a
  | none, b => b
  | some a, some b =>
    let fa := headerFits a.head lane slot
    let fb := headerFits b.head lane slot
    if fa && !fb then some a
    else if fb && !fa then some b
    else if b.failed < a.failed then some b
    else some a

/-- The candidate chosen when no header passes (R128, test 3); none when no alignment was framed. -/
def State.chooseFailed (s : State) (lane slot : Nat) : Option Nat :=
  let counts (cand : Nat) : Option (Nat × Nat) := (NMap.find? s.rc.rows (rowKey lane slot cand)).bind (fun p => if p.bytes.isEmpty then none else some (alignCounts p.bytes lane slot))
  match counts 0, counts 1 with
  | some a, some b => some (if cleaner b a then 1 else 0)
  | some _, none => some 0
  | none, some _ => some 1
  | none, none => none

/-- The copy being verified that a read tag names. -/
def State.copyOf (s : State) (tag : Nat) : Option Started := s.sp.started.find? (fun x => readTag x.wrap x.pos = tag)

/-- Sequence field expected of the rows of a tag: that of the copy being verified, or of the rows accepted in this capture, or of the location entry; of an
index wrap no location is known (R52). -/
def State.expectSeq (s : State) (tag : Nat) : Option Nat :=
  if s.recording then
    (s.copyOf tag).map (fun x => (if x.copy.kind = .index then (s.sp.gen.map (fun g => g.num % 4096 * 4096)).getD 0 + x.copy.seq else x.copy.seq) % 2 ^ 24)
  else
    match s.rc.cap with
    | e :: _ => some e.2.seqField
    | [] =>
      if s.passKind = some 2 then none
      else (s.sp.locs.find? (fun l => l.wrap = s.rc.wrap && decide (l.pos ≤ s.rc.pos) && decide (s.rc.pos < l.pos + l.count))).map (fun l =>
        (if l.kind = 0 then l.seq + (s.rc.pos - l.pos) else l.seq) % 2 ^ 24)

/-- Count a row's C1 results by lane and by wrap (R171, R453). -/
def State.countC1 (s : State) (lane : Nat) (a : Align) : State :=
  let fixed := a.words.foldl (fun n w => n + (w.elim 0 (fun r => r.errors))) 0
  (s.bumpPv pTRC_C1_FAILED 0 a.failed).modSp (fun p =>
    { p with chan := NMap.bumpSat (2 ^ 32 - 1) (NMap.bumpSat (2 ^ 32 - 1) p.chan (8 * lane) fixed) (8 * lane + 1) a.failed
             perWrap := NMap.bumpSat (2 ^ 32 - 1) p.perWrap (8 * a.head.wrap + 4) fixed })

/-- A reference row: its four codewords decoded with no correction (R146). -/
def Align.reference (a : Align) (lane slot : Nat) : Bool :=
  let row := scramble (rowSeed (a.head.seq % 2) lane slot) a.pkt.bytes
  (List.range 4).all (fun w => ((a.words.getD w none).map (fun r => r.symbols)) = some ((List.range 240).map (fun i => (row.getD (12 + 4 * i + w) 0).toNat)))

/-- Set bit `slot` of channel `lane` in a map of masks. -/
def setSlot (m : NMap Nat) (lane slot : Nat) : NMap Nat :=
  let v := NMap.get 0 m lane
  if Nat.testBit v slot then m else NMap.put m lane (v + 2 ^ slot)

/-- Add a row to the verify tally of the copy that its tag names, while its result is outstanding (R86). -/
def State.tallyVerify (s : State) (tag lane slot : Nat) (bad : Bool) : State :=
  s.modSp (fun p =>
    { p with started := p.started.map (fun x =>
        if readTag x.wrap x.pos = tag && x.result.isNone then
          { x with good := setSlot x.good lane slot, c1Fail := if bad then setSlot x.c1Fail lane slot else x.c1Fail }
        else x) })

/-- Add a row to the sums of a calibrate pass, by zone, target and lane (R147): items 0 to 10 the FIR taps of its reference rows, 11 their number,
13 to 15 their gain, offset and asymmetry codes; 12 the symbols C1 corrected and 16 the number of all its rows. -/
def State.tallyCal (s : State) (lane slot : Nat) (a : Align) : State :=
  let l := s.lane lane
  let k := (((s.ctl.calPass.1 * 8 + s.ctl.calPass.2) * 512 + lane) * 32)
  let ref := a.reference lane slot
  let fixed : Nat := a.words.foldl (fun n w => n + (w.elim 0 (fun r => r.errors))) 0
  let add (m : NMap Int) (e : Nat × Int) : NMap Int := NMap.upd 0 m (k + e.1) (· + e.2)
  let own : List (Nat × Int) := (List.range 11).map (fun i => (i, appliedTap (l.fir.getD i 0))) ++ [(11, 1), (13, entryGain l.cur), (14, entryOffset l.cur), (15, entryAsym l.cur)]
  s.modRc (fun r => { r with calFir := ((if ref then own else []) ++ [(12, (fixed : Int)), (16, 1)]).foldl add r.calFir })

/-- The 896 information bytes of a row, none in each failed codeword (R43, R154). -/
def rowInfo (words : List (Option RsResult)) : List (Option Byte) :=
  (List.range 896).map (fun v => ((words.getD (v % 4) none).map (fun r => BitVec.ofNat 8 (r.symbols.getD (v / 4) 0))))

/-- The row packets of an engine group and the erasure pointers that have come since are taken from their FIFOs (R101, R114). -/
def State.intake (s : State) (g : Nat) : State :=
  let p := s.takeAll 79
  let r := p.2.takeAll (36 + g)
  r.2.modRc (fun c =>
    { c with ptrs := c.ptrs ++ p.1.map (fun ws => Pointer.ofWord (ws.headD { payload := 0, last := true, count := 0 }).payload)
             rows := r.1.foldl (fun (m : NMap RowPkt) ws => NMap.put m (RowPkt.ofPacket ws).1 (RowPkt.ofPacket ws).2) c.rows })

/-- Read tag of the row that a lane has delivered in a slot. -/
def State.rowTag (s : State) (lane slot : Nat) : Option Nat :=
  match NMap.find? s.rc.rows (rowKey lane slot 0) with
  | some p => some p.tag
  | none => (NMap.find? s.rc.rows (rowKey lane slot 1)).map (fun p => p.tag)

/-- The row of a lane's slot has been dealt with: its packets and pointers are gone. -/
def State.dropRow (s : State) (lane slot tag : Nat) : State :=
  s.modRc (fun r =>
    { r with
      rows := NMap.del (NMap.del r.rows (rowKey lane slot 0)) (rowKey lane slot 1)
      ptrs := r.ptrs.filter (fun p => p.chan != lane || p.slot != slot || p.tag != tag % 2 ^ 24) })

/-- A chosen alignment whose header has passed confirms the flywheel of the lane while it frames that DS, and moves it only forward (R128, R129). -/
def State.confirm (s : State) (lane slot tag : Nat) (offset : Int) : State :=
  s.modLane lane (fun l =>
    if l.tag = some tag && decide (slot < l.expects.length) && l.confirmed.all (fun c => decide (c.1 < slot)) then
      { l with confirmed := some (slot, l.expects.getD slot 0 + offset) }
    else l)

/-- The row is on a channel that the recording magazine had retired (R153). -/
def State.retiredThen (s : State) (lane : Nat) : Bool :=
  !s.recording && !s.calibrating && s.sp.indexRetired.any (fun m => m.contains lane)

/-- A row whose header has passed: counted, and taken up by the verify tally, by calibration or by the capture; a reference row adds to the statistics
(R86, R146, R147, R151, R154). -/
def State.acceptRow (s : State) (lane slot tag : Nat) (a : Align) : State :=
  if !headerFits a.head lane slot || a.head.wrap != tag / 2 ^ 20 || (fmtKind a.head.fmt).isNone then s
  else
    let v := s.countC1 lane a
    let gathers := a.reference lane slot && s.pn pTRC_CAL_EN = 1
    if s.recording then
      (v.tallyVerify tag lane slot (a.failed != 0)).when gathers (fun x => x.calAdd a.pkt.zone lane (x.lane lane).cur)
    else if s.calibrating then v.tallyCal lane slot a
    else
      let row : Row := { seqField := a.head.seq, fmt := a.head.fmt, sds := a.head.sds, row := a.head.row, info := rowInfo a.words }
      (v.modRc (fun r => { r with cap := NMap.put r.cap (128 * a.head.sds + a.head.row) row })).when gathers
        (fun x => x.calAdd a.pkt.zone lane (x.lane lane).cur)

/-- ROW_DECODE (R52, R101, R128, R146, R151, R153, R154, R86): the row that a lane has delivered in a slot. A header that passes confirms the flywheel. A
row that is no accepted row is erased: it is not kept. A row of the position that comes next waits; one of a copy or position no longer looked at is
dropped. While the FIFO of its rows or that of the pointers is halted nothing is decoded (R111). -/
def execRowDecode (lane slot : Nat) (s : State) : Out :=
  .next (
    if !s.flows 79 || !s.flows (36 + lane / 32) then s
    else
      let t := s.intake (lane / 32)
      match t.rowTag lane slot with
      | none => t
      | some tag =>
        let here := if t.recording then (t.copyOf tag).isSome else decide (tag = readTag t.rc.wrap t.rc.pos)
        if !here then (if !t.recording && decide (readTag t.rc.wrap t.rc.pos < tag) then t else t.dropRow lane slot tag)
        else
          let ex := t.expectSeq tag
          match (if t.retiredThen lane then none else chooseAlign lane slot (t.align lane slot ex 0) (t.align lane slot ex 1)) with
          | some a => ((t.dropRow lane slot tag).confirm lane slot tag a.pkt.offset).acceptRow lane slot tag a
          | none =>
            (t.dropRow lane slot tag).modRc (fun r =>
              { r with failedHdr := (t.chooseFailed lane slot).elim r.failedHdr (fun c => NMap.put r.failedHdr (8 * lane + slot) c) }))

/-! ### Captures (R152, R155 to R159) -/

/-- Place around which copies of a DS are the same DS: the position its location names, else that of its first capture (R157, R163). -/
def State.copyPlace (s : State) (key : Nat) (d : Decode) : Option (Nat × Nat) :=
  match (if key % 4 = 0 then s.locOf (key / 4) else none) with
  | some l => some (l.1, l.2.1)
  | none => if d.seen then some (d.wrap, d.pos) else none

/-- The position being captured lies within the copy window around a place, on its wrap. -/
def State.near (s : State) (at_ : Nat × Nat) : Bool :=
  at_.1 = s.rc.wrap && decide (at_.2 ≤ s.rc.pos + s.pn pTRC_COPY_WIN) && decide (s.rc.pos ≤ at_.2 + s.pn pTRC_COPY_WIN)

/-- Merge the columns of a capture into the DS of a key: only copies within the copy window on the same wrap, with the same format code, are the same
DS (R157, R163). A capture outside the window of a DS located contributes nothing; one of a DS not located begins it anew while it is incomplete, so
that the first copy that completes is used (R61). -/
def State.mergeCapture (s : State) (key m : Nat) (cols : NMap Column) : State :=
  let d := NMap.get Decode.zero s.rc.dec key
  let fits := (s.copyPlace key d).elim true s.near && (!d.seen || d.m = m)
  let full := decide (dsColumns ≤ cols.length)
  let start : Decode :=
    { Decode.zero with cols, seen := true, captures := 1, alone := full, wrap := s.rc.wrap, pos := s.rc.pos, m, tagFail := d.tagFail, gone := d.gone }
  let new : Option Decode :=
    if fits then (if d.seen then some { d with cols := mergeCols d.cols cols, captures := d.captures + 1 } else some start)
    else if (key % 4 = 0 && (s.locOf (key / 4)).isSome) || d.complete then none
    else some start
  match new with
  | some x => s.modRc (fun r => { r with dec := NMap.put r.dec key x })
  | none => s

/-- A DS has completed and its class is known, or it has failed: it is counted, and a failure is journalled (R167). -/
def State.indexClass (s : State) (cls f : Nat) : State :=
  let t := s.bumpPv pTRC_DS_CLASS cls 1
  if cls < 0x10 then t else (t.noteFault 0x11).journalOpen (leBytes 1 cls ++ leBytes 4 f)

/-- An index DS is complete: a table that does not agree with the capture is a miscorrection, a number other than the one captured an index
inconsistency; else the decode is kept by the wrap and its number, beside those that differ, for its tag to be checked once the keys of its
generation are known (R69, R160, R170, R263). -/
def State.indexDsDone (s : State) (key : Nat) : State :=
  let d := NMap.get Decode.zero s.rc.dec key
  if !d.complete || d.gone then s
  else
    let t := d.info.drop dsPayload
    if beAt t 0 4 != 0x53524631 || beAt t 4 1 != 0x12 then s.modRc (fun r => { r with dec := NMap.put r.dec key d.cut })
    else if beAt t 8 4 % 2 ^ 24 != key / 4 then
      (s.modRc (fun r => { r with dec := NMap.put r.dec key { d with gone := true } })).indexClass 0x14 (key / 4)
    else
      let k := 4096 * s.rc.wrap + (idxNums d.info).2.1 % 4096
      s.modRc (fun r => { r with idx := NMap.upd [] r.idx k (fun l => if l.contains d.info then l else l ++ [d.info]) })

/-- The rows of a position have been decoded: the capture is identified, its columns are decoded and merged, and a DS that this completes is
checked (R152, R155, R157, R160). An unidentified capture contributes nothing, nor does one of a group that the pass does not take (R159, R169). -/
def State.capture (s : State) : State :=
  match majority (s.rc.cap.map (fun (e : Nat × Row) => (e.2.seqField, e.2.fmt))) with
  | none => s
  | some (id, n) =>
    if n < 64 then s
    else
      let cols := capColumns s.rc.cap id (s.pn pTRC_C2_EMAX)
      let bad := dsColumns - cols.length
      let t := (s.bumpPv pTRC_C2_FAILED 0 bad).modSp (fun p => { p with perWrap := NMap.bumpSat (2 ^ 32 - 1) p.perWrap (8 * s.rc.wrap + 5) bad })
      let full := fullSeq ((s.rc.pass.map (fun p => p.group)).getD 0) id.1
      let index := (s.rc.pass.map (fun p => decide (p.kind = 2))).getD false
      match fmtKind id.2 with
      | some (.index, _) => if index then (t.mergeCapture (decKey .index id.1) 0 cols).indexDsDone (decKey .index id.1) else t
      | some (.data, _) => if !index && s.collects (s.dsGroup full) then (t.mergeCapture (decKey .data full) 0 cols).tryAuth full else t
      | some (k, m) =>
        if !index && s.collects full then (t.mergeCapture (decKey k full) m cols).modRc (fun r => { r with decM := NMap.put r.decM full m }) else t
      | none => t

/-! ### Ends of ladders (R165 to R167) -/

/-- Open ladders of the DS of a group. -/
def State.openLadders (s : State) (g : Nat) : List Nat :=
  (s.rc.ladders.filter (fun (e : Nat × Ladder) => decide (e.1 < 2 ^ 32) && s.dsGroup e.1 = g)).map Prod.fst

/-- The ladder is over: all its passes made, its time up, or every waiting read has Limited Retry (R165, R345). -/
def State.ladderOver (s : State) (q : Nat) (l : Ladder) : Bool := decide (l.max ≤ l.passes) || l.expired || s.onlyLimited q

/-- Class of a DS whose ladder ends without success (R167). One whose tag has failed on an assembly and that is incomplete again at the end takes
0x12 (DESIGN CHOICE, log 76: the manual gives the classes 0x10 and 0x12 for a DS that is one or the other throughout). -/
def Decode.failClass (d : Decode) : Nat := if d.tagFail then 0x12 else if !d.seen then 0x11 else 0x10

/-- What is known of a data DS. -/
def State.dsDecode (s : State) (q : Nat) : Decode := NMap.get Decode.zero s.rc.dec (decKey .data q)

/-- C3 and the checks for a data DS of a group that has been captured (R158, R160). -/
def State.assembleDs (s : State) (q : Nat) : State :=
  if (NMap.find? s.rc.auth q).isSome || (NMap.find? s.rc.classes q).isSome then s
  else (if (s.dsDecode q).complete then s else s.restoreC3 q).tryAuth q

/-- Look at the ladder of DS `q` when no pass runs for it: C3, the checks again, and its end (R158, R160, R165). -/
def State.ladderLook (s : State) (q : Nat) : State :=
  let u := s.assembleDs q
  match NMap.find? u.rc.ladders q with
  | some l => if u.ladderOver q l then u.dsClass (u.dsDecode q).failClass q l.passes else u
  | none => u

/-- Decoded columns are kept only for groups with an open ladder, for groups that the run is taking, and for DS of groups not yet passed (R159, R169). -/
def State.dropColumns (s : State) (q : Nat) : State :=
  let gs := (s.rc.ladders.map (fun (e : Nat × Ladder) => s.dsGroup e.1)) ++ s.rc.took
  let keep (k : Nat) : Bool := decide (q ≤ k / 4) || gs.any (fun g => k / 4 = g || s.dsGroup (k / 4) = g)
  s.modRc (fun r => { r with dec := r.dec.filter (fun e => e.1 % 4 = 1 || keep e.1) })

/-! ### What follows a pass (R163, R165, R166, R169) -/

/-- The group that begins next after group `g` on the wrap being read, with its last position (R169). -/
def State.groupAfter (s : State) (g : Nat) : Option (Nat × Nat) :=
  match s.groupStart g with
  | none => none
  | some a =>
    let gs := (s.groupsBetween s.rc.wrap a wrapPositions).filterMap (fun k => (s.groupSpan k).map (fun x => (k, x.2.1, x.2.2)))
    (gs.foldl (fun (m : Option (Nat × Nat × Nat)) x => match m with | some y => if x.2.1 < y.2.1 then some x else m | none => some x) none).map
      (fun x => (x.1, x.2.2))

/-- Groups held ahead of the highest that a read has asked for, once the run has passed group `g` (R169). -/
def State.heldAhead (s : State) (g : Nat) : Nat :=
  match s.groupStart s.rc.top, s.groupStart g with
  | some a, some b => (s.groupsBetween s.rc.wrap a (b + 1)).length
  | _, _ => 0

/-- Nothing waits for tape after a playback pass of group `g`: the next group is read ahead, up to TRC_RA_GROUPS beyond the highest asked for, or the
tape stops and the magazine stays in PLAYBACK (R169). At the critical temperature nothing is read ahead (R508). -/
def State.readAhead (s : State) (g : Nat) : State :=
  let held := s.heldAhead g
  let t := s.modRc (fun r => { r with ahead := held })
  match t.groupAfter g with
  | some (k, b) =>
    if t.mag.st = .playback && t.ctl.tsub.moves && t.pw.thermal != 2 && decide (held < t.pn pTRC_RA_GROUPS) then
      t.modRc (fun r => { r with pass := some { kind := 0, group := k, last := min (wrapPositions - 1) (b + t.pn pTRC_COPY_WIN), running := true } })
    else t.serve
  | none => t.serve

/-- The head read's DS has been decided: its activity ends, and what waits next is served; with nothing waiting the playback reads ahead of the group
it has passed. -/
def State.afterRead (s : State) (kind g : Nat) : State :=
  match s.ctl.tasks with
  | .read q :: _ =>
    if (NMap.find? s.rc.ladders q).isSome then s
    else
      let t := s.popTask
      if t.ctl.tasks.isEmpty && kind = 0 then t.readAhead g else t.serve
  | [] => if kind = 0 then s.readAhead g else s.serve
  | _ => s.serve

/-- A playback or re-read pass has run through its last position: every DS of the group is assembled, and the ladders of those that are not
authenticated go on (R158, R159, R165, R166, R169). -/
def State.endReadPass (s : State) (p : Pass) : State :=
  let qs := s.openLadders p.group
  let made := p.kind = 1
  let t := (s.clearCapture.modRc (fun r =>
    { r with pass := none, variant := 0, took := r.took.filter (fun g => g != p.group)
             ladders := qs.foldl (fun (m : NMap Ladder) q => NMap.modify m q (fun l =>
               { l with inPass := false, first := true, passes := if made then l.passes + 1 else l.passes })) r.ladders })).bumpPv pTRC_PASSES 0 (if made then 1 else 0)
  let u := (((s.groupDs p.group).foldl State.assembleDs (qs.foldl State.ladderLook t)).readAll).settleHost
  (u.dropColumns ((s.groupDs p.group).foldl max 0 + 1)).afterRead p.kind p.group

/-! ### Index reads (R69, R170, R218) -/

/-- Ladder key of index DS `f` (generation and number as its sequence field has them) on a wrap. -/
def indexLadder (w f : Nat) : Nat := 2 ^ 32 + 2 ^ 24 * w + f

/-- Sequence field of an index DS (R37). -/
def indexField (g i : Nat) : Nat := g % 4096 * 4096 + i

/-- Index DS of the wrap that have failed: captured and not complete, or of the newest generation found there and not captured at all (R69, R170). -/
def State.indexFailed (s : State) : List Nat :=
  let seen := (s.rc.dec.filter (fun (e : Nat × Decode) => e.1 % 4 = 1 && e.2.seen && !e.2.complete && !e.2.gone)).map (fun e => e.1 / 4)
  let missing := (newestOf (s.gensOn s.rc.wrap)).elim [] (fun g => (s.idxMissing s.rc.wrap g).map (indexField g.1))
  ((seen ++ missing).filter (fun f => !(NMap.get Decode.zero s.rc.dec (decKey .index f)).gone)).eraseDups

/-- The tags of the newest whole generation on the wrap: an index DS that fails in every decode is cut to the columns that C2 corrected with e = 0, and
climbs its ladder (R160, R170, R263). -/
def State.cutIndex (s : State) : State :=
  let w := s.rc.wrap
  match newestOf ((s.gensOn w).filter (fun g => (s.idxMissing w g).isEmpty)) with
  | none => s
  | some g =>
    (s.genTagFails w).foldl (fun t i =>
      t.modRc (fun r =>
        { r with idx := NMap.put r.idx (4096 * w + i) []
                 dec := NMap.put r.dec (decKey .index (indexField g.1 i)) (NMap.get Decode.zero r.dec (decKey .index (indexField g.1 i))).cut })) s

/-- The index DS of the wrap that are complete end in their class, those of a generation used or passed over alike (R167). -/
def State.countIndex (s : State) : State :=
  (s.rc.dec.filter (fun (e : Nat × Decode) => e.1 % 4 = 1 && e.2.complete && !e.2.gone)).foldl (fun t e =>
    t.indexClass (e.2.okClass ((NMap.find? s.rc.ladders (indexLadder s.rc.wrap (e.1 / 4))).elim false (fun l => decide (0 < l.passes)))) (e.1 / 4)) s

/-- The newest generation seen on the wrap has stayed incomplete: it is passed over, which is journalled (R170). -/
def State.noteIncomplete (s : State) : State :=
  match newestOf (s.gensOn s.rc.wrap) with
  | some g => s.when (!(s.idxMissing s.rc.wrap g).isEmpty) (fun t => t.journalOpen (leBytes 1 t.rc.wrap ++ leBytes 4 g.1))
  | none => s

/-- The service load has read both index wraps: the newest usable generation is put in force, and the load completes (R69, R218). -/
def State.loadDone (s : State) : State := ((s.indexLoaded s.gensFound).finishTask 0).serve

/-- The index wrap has been read as far as its ladders allow: the other wrap follows, or the load completes. -/
def State.indexNext (s : State) : State :=
  let t := (s.countIndex.noteIncomplete).modRc (fun r => { r with dec := [], ladders := r.ladders.filter (fun e => decide (e.1 < 2 ^ 32)) })
  if s.rc.wrap = 0 then t.startIndexRead 1 else t.loadDone

/-- A failed index DS is given up: it ends in its class, and is not retried (R165, R167, R170). -/
def State.giveUpIndex (s : State) (w f : Nat) : State :=
  let d := NMap.get Decode.zero s.rc.dec (decKey .index f)
  (s.modRc (fun r =>
    { r with ladders := NMap.del r.ladders (indexLadder w f), dec := NMap.put r.dec (decKey .index f) { d with gone := true } })).indexClass d.failClass f

/-- An index pass has ended: the tags are checked, a failed index DS climbs its ladder, and one that stays incomplete is given up (R160, R170). -/
def State.endIndexPass (s : State) : State :=
  let w := s.rc.wrap
  let made := s.rc.variant != 0 || s.rc.ladders.any (fun (e : Nat × Ladder) => decide (2 ^ 32 ≤ e.1) && e.2.inPass)
  let t := ((s.clearCapture.modRc (fun r => { r with pass := none, variant := 0 })).bumpPv pTRC_PASSES 0 (if made then 1 else 0)).cutIndex
  let failed := t.indexFailed
  let step (u : State) (f : Nat) : State :=
    let k := indexLadder w f
    let l := (NMap.find? u.rc.ladders k).getD { Ladder.start (u.pn pTRC_RETRY_MAX) with inPass := false }
    let m := { l with first := true, inPass := false, passes := if made && l.inPass then l.passes + 1 else l.passes }
    if decide (m.max ≤ m.passes) || m.expired then u.giveUpIndex w f
    else u.modRc (fun r => { r with ladders := NMap.put r.ladders k m })
  let u := failed.foldl step t
  if u.indexFailed.isEmpty then u.indexNext
  else u.modRc (fun r => { r with ladders := r.ladders.map (fun e => (e.1, if 2 ^ 32 ≤ e.1 then { e.2 with inPass := false } else e.2)) })

/-! ### Calibrate (R91, R147, R217) -/

/-- Sum of an item of a calibrate pass. -/
def State.calSum (s : State) (z t lane item : Nat) : Int := NMap.get 0 s.rc.calFir (((z * 8 + t) * 512 + lane) * 32 + item)

/-- Lanes not retired. -/
def State.activeLanes (s : State) : List Nat := (List.range 512).filter (fun c => !s.sp.retired.contains c)

/-- A lane has reference rows enough in a zone under every target measured (R147). -/
def State.laneMeasured (s : State) (z lane : Nat) : Bool :=
  (List.range s.calTargets).all (fun t => decide ((s.pn pTRC_CAL_MIN : Int) ≤ s.calSum z t lane 11))

/-- A zone has been measured: every active lane has. -/
def State.zoneMeasured (s : State) (z : Nat) : Bool := s.activeLanes.all (s.laneMeasured z)

/-- Sum of an item over the active lanes. -/
def State.calTotal (s : State) (z t item : Nat) : Int := s.activeLanes.foldl (fun n c => n + s.calSum z t c item) 0

/-- The target with the lowest mean number of corrected symbols per row, the first among equals (R147). -/
def State.bestTarget (s : State) (z : Nat) : Nat :=
  (List.range s.calTargets).foldl (fun b t => if s.calTotal z t 12 * s.calTotal z b 16 < s.calTotal z b 12 * s.calTotal z t 16 then t else b) 0

/-- Put a measured zone in force (R147). -/
def State.applyZone (s : State) (z : Nat) : State :=
  let t := s.bestTarget z
  let n := (s.calTotal z t 11).toNat
  let u := (List.range 11).foldl (fun (u : State) i => u.setPv pTRC_FIR_INIT (11 * z + i) (roundMean (s.calTotal z t i) n)) (s.setPv pTRC_TGT_SEL z t)
  (List.range 512).foldl (fun (u : State) c =>
    if s.laneMeasured z c then
      let m := (s.calSum z t c 11).toNat
      u.setPv pTRC_ZTAB (512 * z + c)
        (entryOf (roundMean (s.calSum z t c 13) m) (roundMean (s.calSum z t c 14) m) (roundMean (s.calSum z t c 15) m) true : Nat)
    else u) u

/-- Calibrate has made its passes: the results act as one internal commit, channels measured as good in every measured zone return to service, a
suspension ends, and the tape makes a normal stop; at HELD the command completes with the zones not measured (R89, R91, R147, R217, R219). -/
def State.calDone (s : State) : State :=
  let zs := (List.range 16).filter (fun z => !Nat.testBit s.ctl.unmeasured z && s.zoneMeasured z)
  let un := (List.range 16).foldl (fun m z => if zs.contains z then m else m + 2 ^ z) 0
  let back := if s.mag.st = .service && !zs.isEmpty then s.sp.retired.filter (fun c => zs.all (fun z => s.laneMeasured z c)) else []
  let t := (zs.foldl State.applyZone s).clearCapture.modRc (fun r =>
    { r with pass := none, calFir := [], cal := r.cal.filter (fun e => !zs.contains (e.1 / 512)), calDirty := r.calDirty || !zs.isEmpty
             lanes := r.lanes.map (fun (e : Nat × Lane) => (e.1, { e.2 with reload := true })) })
  let u := t.modSp (fun p => { p with retired := p.retired.filter (fun c => !back.contains c), retireRun := p.retireRun.filter (fun e => !back.contains e.1) })
  ((u.endSuspension.modCtl (fun c => { c with unmeasured := un, stage := 3 })).stopTape .hold false).serve

/-- A calibrate pass has run through the stretch: the next zone or target, or the end. -/
def State.endCalPass (s : State) (p : Pass) : State :=
  match s.calStretch with
  | some (w, a, n) =>
    match s.nextCal n 17 (p.group / 16) (p.group % 16 + 1) with
    | some x => s.startCal w a n x.1 x.2
    | none => s.calDone
  | none => s.calDone

/-- CAPTURE_COMPLETE (R152, R155, R163, R165, R169, R170, R217): the position being read has passed. -/
def execCaptureComplete (s : State) : Out :=
  .next (
    match s.rc.pass with
    | none => s
    | some p =>
      if !s.decoding || s.recording then s
      else
        let t := if p.kind = 3 then s else (if p.kind = 0 then s.noteTaken else s).capture
        let u := t.modRc (fun r => { r with cap := [], failedHdr := [], pos := r.pos + 1 })
        if u.rc.pos ≤ p.last then (u.readAll).goOn
        else if p.kind = 2 then u.endIndexPass
        else if p.kind = 3 then u.endCalPass p
        else u.endReadPass p)

/-! ### Re-read passes (R165) -/

/-- Read variant of re-read pass `n`, counted from 0 (R165). -/
def rereadVariant (n : Nat) : Nat := [0, 3, 4, 1, 2, 5, 6, 7, 8, 9, 10, 11, 12].getD n 0

/-- Begin a pass under a variant: every lane loads its start values anew (R139). -/
def State.beginVariant (s : State) (v : Nat) : State :=
  s.clearCapture.modRc (fun r => { r with variant := v, lanes := r.lanes.map (fun (e : Nat × Lane) => (e.1, { e.2 with reload := true })) })

/-- A ladder that may make a pass now. -/
def Ladder.ready (l : Ladder) : Bool := l.first && !l.inPass && !l.expired && decide (l.passes < l.max)

/-- A re-read pass of the group of data DS `q`: from before the group, over its copy window (R163, R165). -/
def State.startReread (s : State) (q : Nat) (l : Ladder) : State :=
  match s.readSpan q with
  | none => s
  | some (g, w, a, b) =>
    let win := s.pn pTRC_COPY_WIN
    let t := ((s.tapeState .locating).beginVariant (rereadVariant l.passes)).modRc (fun r =>
      { r with pass := some { kind := 1, group := g, last := min (wrapPositions - 1) (b + win), running := false }, wrap := w, pos := a - win
               took := []
               ladders := (s.openLadders g).foldl (fun (m : NMap Ladder) k => NMap.modify m k (fun x => { x with inPass := true })) r.ladders })
    ((t.modCtl (fun c => { c with tasks := .read q :: c.tasks.filter (fun k => k != .read q) })).startMove (.position w (a - win))).modCtl
      (fun c => { c with stage := 1 })

/-- A re-read pass of an index wrap. -/
def State.startIndexReread (s : State) (l : Ladder) : State :=
  let w := s.rc.wrap
  (((s.beginVariant (rereadVariant l.passes)).modRc (fun r =>
    { r with pass := some { kind := 2, group := 2 ^ 32 + 4096 * w, last := indexPositions - 1, running := false }, pos := 0
             ladders := r.ladders.map (fun (e : Nat × Ladder) => (e.1, if 2 ^ 32 ≤ e.1 then { e.2 with inPass := true } else e.2)) })).startMove (.index w)).modCtl
      (fun c => { c with stage := 2 })

/-- REREAD_PASS_START (R139, R165, R166): the next pass of the ladder of `seq`: a data DS, or with bit 32 set an index DS of the wrap being read. -/
def execRereadPassStart (seq : Nat) (s : State) : Out :=
  .next (
    match NMap.find? s.rc.ladders seq with
    | none => s
    | some l =>
      if !l.ready || s.rc.pass.isSome || s.ctl.after.isSome || !s.lateralOkToMove || s.ctl.tsub = .braked then s
      else if 2 ^ 32 ≤ seq then
        (match s.ctl.tasks with | .load _ :: _ => s.startIndexReread l | _ => s)
      else
        match s.ctl.tasks with
        | .read _ :: _ => s.startReread seq l
        | _ => s)

/-- RETRY_TIME_EXPIRY (R165): TRC_RETRY_TIME since the first pass of the ladder of `seq`. A pass in progress is completed and counted. -/
def execRetryTimeExpiry (seq : Nat) (s : State) : Out :=
  .next (
    match NMap.find? s.rc.ladders seq with
    | none => s
    | some l =>
      if !l.first then s
      else
        let t := s.modRc (fun r => { r with ladders := NMap.put r.ladders seq { l with expired := true } })
        if l.inPass then t
        else if 2 ^ 32 ≤ seq then
          let f := seq % 2 ^ 24
          let u := t.giveUpIndex t.rc.wrap f
          if u.rc.pass.isNone && u.indexFailed.isEmpty then u.indexNext else u
        else ((t.ladderLook seq).readAll.settleHost).afterRead 1 (t.dsGroup seq))

/-! ### Records (R14, R161, R162, R226, R248, R249) -/

/-- Bytes of the hold area in use: the uncompressed lengths of the records decoding or held (R161, R162). -/
def State.holdUsed (s : State) : Nat := s.rc.recs.foldl (fun n r => if r.decoded then n + 4096 * beAt r.header 0x0C 4 else n) 0

/-- RECORD_DECOMPRESS_START (R101, R161, R162, R226, R247, R249): the record that has waited longest begins once the hold area has room for it; its
decrypted bytes come through the FIFO of its engine. One that goes on
in DS not yet verified is decompressed as they come; its output stands once it is whole. Of a record that ends in a structural error no byte counts in
CMP_DOUT_BYTES (DESIGN CHOICE, log 76: the manual does not say whether those before the error do). -/
def execRecordDecompressStart (s : State) : Out :=
  .next (
    match s.rc.recs.find? (fun r => !r.decoded) with
    | none => s
    | some r =>
      let n := beAt r.header 0x0C 4
      if 2 ^ 20 * s.pn pTRC_HOLD_MIB < s.holdUsed + 4096 * n || !s.flows 52 || !s.flows (53 + r.engine) then s
      else
        let out := if r.whole then r.decompress else none
        let t := (s.passBytes (53 + r.engine) r.body.length).modRc (fun x => { x with recs := x.recs.map (fun y => if y = r then { y with out, decoded := true } else y) })
        t.bumpPv pCMP_DOUT_BYTES r.engine (out.elim 0 List.length))

/-- RECORD_CRC_CHECK (R101, R161, R167, R248): the oldest record that has been decompressed is released to its readers through FIFO 61, or ends with class 0x13. -/
def execRecordCrcCheck (s : State) : Out :=
  .next (
    match (if s.flows 61 then s.rc.recs.find? (fun r => r.decoded && r.whole) else none) with
    | none => s
    | some r =>
      let start := beAt r.header 0x10 8
      let n := beAt r.header 0x0C 4
      let t := s.modRc (fun x => { x with recs := x.recs.filter (fun y => y != r) })
      let u :=
        match r.out with
        | none => (t.bumpPv pCMP_STRUCT_ERR 0 1).recFails start n 0x13 r.ds
        | some b =>
          if crc32c b = beAt r.header 0x30 4 then
            (t.passBytes 61 b.length).modRc (fun x => { x with plain := (List.range n).foldl (fun (m : NMap Bytes) i => NMap.put m (start + i) (slice b (4096 * i) 4096)) x.plain })
          else (t.bumpPv pCMP_DCRC_FAIL 0 1).recFails start n 0x13 r.ds
      u.readAll.goOn)

end Sys2Proof.Machine
end

