-- ==== Sys2Proof/Machine/Restart.lean ====
section
/-! DEFINITION. Import of a profile and its commands (R438, R439), a restart with the rails left on (R438, R512), a lockstep mismatch (R462), and an
uncorrectable buffer error (R459, R460). -/

namespace Sys2Proof.Machine

/-! ### Restart -/

/-- The controller reset of a restart: CSTS.CFS tells the host of it (R326, R512). R326 gives EVT 0x601 no cause for it: a free value (log 2). -/
def State.restartReset (s : State) : State :=
  (((s.drawn 1).controllerReset (s.free 12 % 256)).modNv (fun n => { n with cfs := true })).flushWhere (fun _ w => w.acked)

/-- A restart under BOOT_IMP_CTL (R438): controller reset, a park when tension is on, then BOOT from step 1. -/
def State.restartDevice (s : State) : State :=
  let t := (s.restartReset).modMag (fun g => { g with restart := 1 })
  (if t.ctl.tsub = .braked then t else t.modCtl (fun c => { c with tasks := c.tasks ++ [.park none false] })).goOn

/-- What runs on the tape ends: a copy under way fails, a generation and a read pass are dropped, and the tape makes a normal stop, after which
tension is released (R462). A stop of higher rank goes on. -/
def State.endTape (s : State) : State :=
  let t := ((s.endCopy.dropGen).modSp (fun p => { p with draining := false, closing := false })).modRc (fun r => { r with pass := none })
  let u := t.modCtl (fun c => { c with tasks := [], stage := 0, aim := none, begun := false })
  if u.ctl.tsub = .braked || u.ctl.tsub = .dynamic || u.ctl.tsub = .releasing || u.ctl.after = some .supervisor || u.ctl.after = some .emergency then u
  else if u.ctl.tsub.moves then u.stopTape .release false
  else u.letGo .ready

/-! ### BOOT_IMP_CTL -/

/-- Check the imported profile; BOOT_IMP_STAT reports the outcome. -/
def State.importFault (s : State) : Option (Nat × Nat) := s.profileCheck s.imported (s.pn pBOOT_IMP_LEN)

/-- Report a check. -/
def State.importStat (s : State) (f : Option (Nat × Nat)) : State :=
  s.modNor (fun n => { n with impStat := f.elim (2, 0, 0) (fun x => (3, x.1, x.2)) })

/-- Value 1: check. -/
def State.importCheck (s : State) : State := s.importStat s.importFault

/-- Value 2: check, seal, and write both copies (R427, R438). With the NOR failed the write fails (R506). -/
def State.importSeal (s : State) : State :=
  match s.importFault with
  | some f => s.importStat (some f)
  | none =>
    let b := s.sealedProfile s.imported
    if s.nor.dead then s.norDone 0 b .profile false
    else (s.modNor (fun n => { n with impBusy := 2, impStat := (4, 0, 0) })).norWrite 0 b .profile

/-- LBAs a sidecar extent maps. -/
def Ext.lbas : Ext → Nat
  | .large _ => 256
  | .fine m _ => m.foldl (fun n (e : Nat × Fine) =>
      if e.2.unit.isNone then n else n + (List.range 4).countP (fun i => !Nat.testBit e.2.zero i)) 0

/-- Acknowledged LBAs that go with the Carousel's maps, per namespace: persisted there and not spool-committed, and the sidecar's (R438, R457). -/
def State.mappedLbas (s : State) : Nat × Nat :=
  ((s.zonesFound.map (fun z => runAbove (s.zoneRuns z) (NMap.get 0 s.car.nv.floors z))).foldl (· + ·) 0 + unpersisted s.sp.wbuf,
   s.car.nv.exts.foldl (fun n (e : Nat × Ext) => n + e.2.lbas) 0 + unpersisted s.car.sbuf)

/-- Value 4: the Carousel's maps and journals are cleared and the loss is counted; a first root record is written when there is none; then the
device restarts (R438). -/
def State.acceptLoss (s : State) : State :=
  let (n1, n2) := s.mappedLbas
  let t := (s.noteFault 7).countLoss 7 4 n1 n2
  let u := (t.clearTake).modCar (fun c =>
    { c with
      units := [], exts := [], blocks := [], dies := [], sbuf := [], journal := [], scrub := [], blocksPerDie := 0, tail := 0, log := []
      sealed := false, readOnly := false, nv := { NvMap.zero with events := c.nv.events } })
  let v := if u.rootRec.isSome then u
    else
      let x := u.modCar (fun c => { c with boots := 1 })
      x.putCopies 2 (x.rootBytes (2 ^ 32)) true true
  v.restartDevice

/-- Value 4 is accepted only with SAFE cause bit 3 set. -/
def State.impRefused (s : State) (v : Nat) : Bool := v = 4 && !Nat.testBit s.mag.why 3

/-- What an accepted BOOT_IMP_CTL write does. -/
def State.impAct (s : State) (v : Nat) : State :=
  if v = 1 then s.importCheck
  else if v = 2 then s.importSeal
  else if v = 3 then s.restartDevice
  else if v = 4 then s.acceptLoss
  else s

/-- A write of BOOT_IMP_CTL, by the host under the checks of R485, or by Ringmaster: refused while a check or seal runs, outside SERVICE, and for
value 4 without SAFE cause bit 3 (R439). A restart drops its own command with the others (R326). -/
def State.impWrite (s : State) (w : Option Hdr) (v : Nat) : State :=
  match w with
  | none => if s.nor.impBusy != 0 || s.mag.st != .service || s.impRefused v then s else s.impAct v
  | some h =>
    s.adminCmd h false (fun q t =>
      match t.writeCheck pBOOT_IMP_CTL 0 [v] with
      | some (st, k) => t.complete q st k 0 []
      | none => if t.impRefused v then t.complete q stParamBusy 0 0 [] else ((t.noteWrite pBOOT_IMP_CTL 0).impAct v).done q stOk)

/-- BOOT_IMPORT_CHECK. -/
def execBootImportCheck (w : Option Hdr) (s : State) : Out := .next ((s.impWrite w 1).goOn)

/-- BOOT_IMPORT_SEAL. -/
def execBootImportSeal (w : Option Hdr) (s : State) : Out := .next ((s.impWrite w 2).goOn)

/-- BOOT_IMPORT_RESTART. -/
def execBootImportRestart (w : Option Hdr) (s : State) : Out := .next ((s.impWrite w 3).goOn)

/-- BOOT_IMPORT_ACCEPT_LOSS. -/
def execBootImportAcceptLoss (w : Option Hdr) (s : State) : Out := .next ((s.impWrite w 4).goOn)

/-! ### Lockstep (R462) -/

/-- LOCKSTEP_MISMATCH: K is 0 in the same cycle. The first one persists U, stops the tape, resets the controller and runs BOOT from step 2 on; a second
one within 3,600 s is held, and the magazine goes to SAFE once U has persisted and the tape has stopped. In DRAIN the drain goes on. -/
def execLockstepMismatch (s : State) : Out :=
  .next (
    if !s.mag.st.alive || !s.pw.mgt then s
    else
      let second := s.mag.mismatch.isSome
      let t := (((s.modPw (fun p => { p with force0 := true })).noteFault 9).raise 0x7F1 (if second then 2 else 1) []).modMag (fun g =>
        { g with mismatch := if second then g.mismatch else some 0, heldFault := g.heldFault || second })
      if s.mag.st = .drain || s.mag.st = .boot then t
      else
        let u := (t.flushWhere (fun _ w => w.acked)).endTape
        if second then (u.modMag (fun g => { g with restart := 3 })).goOn
        else ((u.restartReset).modMag (fun g => { g with restart := 2 })).goOn)

/-! ### Buffer (R460) -/

/-- Nothing is programmed or journalled from the buffer any more: commits that carry a unit or an image read from it go. -/
def State.bufferLost (s : State) : State :=
  s.modCar (fun c =>
    { c with
      bufBad := true
      journal := c.journal.filter (fun j => !j.recs.any (fun r =>
        match r with
        | .unit _ | .image _ (some _) => true
        | _ => false)) })

/-- BUFFER_UNCORRECTABLE_ERROR (R459, R460): class 0x05 in DRAIN, which goes on with what can still be written; else class 0x06: K is 0, and the device
restarts, every unpersisted acknowledged LBA missing. In BOOT and SAFE nothing acknowledged is at stake: the event alone. -/
def execBufferUncorrectableError (channel : Nat) (s : State) : Out :=
  .next (
    if !s.mag.st.alive || !s.pw.mgt || 4 ≤ channel then s
    else
      let drain := s.mag.st = .drain
      let t := (s.noteFault (if drain then 5 else 6)).raise 0x7F2 (channel + 1) []
      if drain then ((t.modPw (fun p => { p with lossClass := (5, p.lossClass.2) })).bufferLost).serve
      else if !t.mag.st.working then t
      else
        let u := (t.latchLoss 6).modPw (fun p => { p with force0 := true })
        (((u.bufferLost.endTape).restartReset).modMag (fun g => { g with restart := 1 })).goOn)

end Sys2Proof.Machine
end

