-- ==== Sys2Proof/Machine/ParamWrite.lean ====
section
/-! DEFINITION. Parameter Write (R476, R478, R484, R485): every element at once or none, each to what its parameter does with a write. -/

namespace Sys2Proof.Machine

/-- What writing `e` to element `i` does, for parameters that act on a write: re-arm (R191), trace (R197), cache (R393, R396), FIFO (R111, R113), bank
test (R410), import (R438). Any other element is stored by its class (R478). -/
def State.writeElem (s : State) (d : PDesc) (i e : Nat) : State :=
  let p := d.pid
  let t := s.noteWrite p i
  if p = pCTL_REARM then (if e = 1 then t.requestRearm i else t)
  else if p = pCTL_TRC_ARM then (if e = 1 then t.traceArm else t.traceHit 3)
  else if p = pCCA_RNG_OP then t.rangeOwn e
  else if p = pCCA_WAY_EN then t.wayEnable e
  else if p = pCCA_ENABLE then t.cacheEnable e
  else if p = pSFQ_RESTART then (if e = 1 then t.fifoRestarted i else t)
  else if p = pSFQ_STICKY then t.fifoClear i e
  else if p = pPWR_TEST_NOW then (if e = 1 then t.testStart else t)
  else if p = pBOOT_IMP_CTL then t.impAct e
  else s.storeElem d i e

/-- A Parameter Write whose data has arrived, checked whole. -/
def State.paramWrite (s : State) (q pid first : Nat) (vals : List Nat) : State :=
  match pdesc? pid with
  | none => s.complete q stParamUnknown first 0 []
  | some d =>
    match s.writeCheck pid first vals with
    | some (st, k) => s.complete q st k 0 []
    | none =>
      if pid = pBOOT_IMP_CTL && s.impRefused (vals.headD 0) then s.complete q stParamBusy first 0 []
      else (vals.zipIdx.foldl (fun t x => t.writeElem d (first + x.2) x.1) s).done q stOk

/-- PARAMETER_WRITE. A count above 2^19 is over 2 MiB at either width, and so is 2^19 + 1. -/
def execParameterWrite (h : Hdr) (d10 first count : Nat) (data : Bytes) (s : State) : Out :=
  .next (s.adminCmd h false (fun q t =>
    let w := (pdesc? (d10 % 2 ^ 16)).elim 4 (fun d => d.width)
    t.paramWrite q (d10 % 2 ^ 16) first (elemsOf w (min count (2 ^ 19 + 1)) data))).goOn

end Sys2Proof.Machine
end

