-- ==== Sys2Proof/Machine/Dispatch.lean ====
section
/-! DEFINITION. The dispatch: one arm per command of the table. -/

namespace Sys2Proof.Machine

/-- The effect of one command on everything but the queue of waiting commands. -/
def exec (i : Instr) (s : State) : Host.Outcome State Fault Refusal :=
  match i with
  | .createIoSubmissionQueue h qid size prio cqid pc => Sys2Proof.Machine.execCreateIoSubmissionQueue h qid size prio cqid pc s
  | .createIoCompletionQueue h qid size vector ien pc => Sys2Proof.Machine.execCreateIoCompletionQueue h qid size vector ien pc s
  | .deleteIoSubmissionQueue h qid => Sys2Proof.Machine.execDeleteIoSubmissionQueue h qid s
  | .deleteIoCompletionQueue h qid => Sys2Proof.Machine.execDeleteIoCompletionQueue h qid s
  | .getLogPage h lid off dwords rae => Sys2Proof.Machine.execGetLogPage h lid off dwords rae s
  | .identify h cns nsid csi => Sys2Proof.Machine.execIdentify h cns nsid csi s
  | .abort h sqid cid => Sys2Proof.Machine.execAbort h sqid cid s
  | .setFeatures h fid save d11 d12 data => Sys2Proof.Machine.execSetFeatures h fid save d11 d12 data s
  | .setVolatileWriteCache h save d11 => Sys2Proof.Machine.execSetVolatileWriteCache h save d11 s
  | .setHostMemoryBuffer h save d11 size => Sys2Proof.Machine.execSetHostMemoryBuffer h save d11 size s
  | .setTimestamp h save ms => Sys2Proof.Machine.execSetTimestamp h save ms s
  | .setSpeedPolicy h save data => Sys2Proof.Machine.execSetSpeedPolicy h save data s
  | .setAcknowledgeCreditPolicy h save d11 => Sys2Proof.Machine.execSetAcknowledgeCreditPolicy h save d11 s
  | .setCompressionPolicy h save d11 => Sys2Proof.Machine.execSetCompressionPolicy h save d11 s
  | .setOperatingContext h save d11 => Sys2Proof.Machine.execSetOperatingContext h save d11 s
  | .setRewritePolicy h save data => Sys2Proof.Machine.execSetRewritePolicy h save data s
  | .setComputePolicy h save d11 => Sys2Proof.Machine.execSetComputePolicy h save d11 s
  | .getFeatures h fid sel d11 => Sys2Proof.Machine.execGetFeatures h fid sel d11 s
  | .asynchronousEventRequest h => Sys2Proof.Machine.execAsynchronousEventRequest h s
  | .firmwareImageDownload h off data => Sys2Proof.Machine.execFirmwareImageDownload h off data s
  | .firmwareCommitStore h slot => Sys2Proof.Machine.execFirmwareCommitStore h slot s
  | .firmwareCommitStoreAndMark h slot => Sys2Proof.Machine.execFirmwareCommitStoreAndMark h slot s
  | .firmwareCommitMark h slot => Sys2Proof.Machine.execFirmwareCommitMark h slot s
  | .firmwareCommitActivate h slot => Sys2Proof.Machine.execFirmwareCommitActivate h slot s
  | .formatNvm h nsid ses lbaf => Sys2Proof.Machine.execFormatNvm h nsid ses lbaf s
  | .formatSecureEraseTake h nsid lbaf => Sys2Proof.Machine.execFormatSecureEraseTake h nsid lbaf s
  | .parameterRead h d10 first count => Sys2Proof.Machine.execParameterRead h d10 first count s
  | .parameterWrite h d10 first count data => Sys2Proof.Machine.execParameterWrite h d10 first count data s
  | .parameterCommit h op => Sys2Proof.Machine.execParameterCommit h op s
  | .parameterDiscard h => Sys2Proof.Machine.execParameterDiscard h s
  | .keyDepositClaim h data => Sys2Proof.Machine.execKeyDepositClaim h data s
  | .keyDepositReplaceOwnerKey h data => Sys2Proof.Machine.execKeyDepositReplaceOwnerKey h data s
  | .keyDepositEscrowKey h data => Sys2Proof.Machine.execKeyDepositEscrowKey h data s
  | .keyDepositRemoveEscrowKey h data => Sys2Proof.Machine.execKeyDepositRemoveEscrowKey h data s
  | .keyDepositEraseTake h data => Sys2Proof.Machine.execKeyDepositEraseTake h data s
  | .keyDepositRecoverAndAdopt h data => Sys2Proof.Machine.execKeyDepositRecoverAndAdopt h data s
  | .ownerChallenge h => Sys2Proof.Machine.execOwnerChallenge h s
  | .ownerChallengeQuery h => Sys2Proof.Machine.execOwnerChallengeQuery h s
  | .ownerResponse h data => Sys2Proof.Machine.execOwnerResponse h data s
  | .kernelLoad h d10 image => Sys2Proof.Machine.execKernelLoad h d10 image s
  | .kernelLoadRom h number => Sys2Proof.Machine.execKernelLoadRom h number s
  | .kernelUnload h inst => Sys2Proof.Machine.execKernelUnload h inst s
  | .traceRead h d10 first src => Sys2Proof.Machine.execTraceRead h d10 first src s
  | .transportTensionOn h => Sys2Proof.Machine.execTransportTensionOn h s
  | .transportTensionOff h => Sys2Proof.Machine.execTransportTensionOff h s
  | .transportPark h arg => Sys2Proof.Machine.execTransportPark h arg s
  | .transportLocate h d11 d12 => Sys2Proof.Machine.execTransportLocate h d11 d12 s
  | .transportShuttle h => Sys2Proof.Machine.execTransportShuttle h s
  | .transportCalibrate h arg => Sys2Proof.Machine.execTransportCalibrate h arg s
  | .transportEjectPrepare h arg => Sys2Proof.Machine.execTransportEjectPrepare h arg s
  | .transportServiceUnload h => Sys2Proof.Machine.execTransportServiceUnload h s
  | .transportServiceLoad h => Sys2Proof.Machine.execTransportServiceLoad h s
  | .transportResumeWriting h arg => Sys2Proof.Machine.execTransportResumeWriting h arg s
  | .unsupportedCommand h opcode nsid d10 => Sys2Proof.Machine.execUnsupportedCommand h opcode nsid d10 s
  | .flush h nsid => Sys2Proof.Machine.execFlush h nsid s
  | .write h nsid slba nlb fua cdw2 cdw3 data => Sys2Proof.Machine.execWrite h nsid slba nlb fua cdw2 cdw3 data s
  | .zoneAppend h nsid slba nlb fua cdw2 cdw3 data => Sys2Proof.Machine.execZoneAppend h nsid slba nlb fua cdw2 cdw3 data s
  | .read h nsid slba nlb limited => Sys2Proof.Machine.execRead h nsid slba nlb limited s
  | .writeZeroes h nsid slba nlb => Sys2Proof.Machine.execWriteZeroes h nsid slba nlb s
  | .datasetManagement h nsid deallocate ranges => Sys2Proof.Machine.execDatasetManagement h nsid deallocate ranges s
  | .zoneOpen h nsid slba all => Sys2Proof.Machine.execZoneOpen h nsid slba all s
  | .zoneClose h nsid slba all => Sys2Proof.Machine.execZoneClose h nsid slba all s
  | .zoneFinish h nsid slba all => Sys2Proof.Machine.execZoneFinish h nsid slba all s
  | .zoneReset h nsid slba => Sys2Proof.Machine.execZoneReset h nsid slba s
  | .zoneResetAll h nsid => Sys2Proof.Machine.execZoneResetAll h nsid s
  | .zoneOffline h nsid slba => Sys2Proof.Machine.execZoneOffline h nsid slba s
  | .zoneManagementReceive h nsid slba dwords zra zrasf part => Sys2Proof.Machine.execZoneManagementReceive h nsid slba dwords zra zrasf part s
  | .kernelInvoke h nsid d10 block => Sys2Proof.Machine.execKernelInvoke h nsid d10 block s
  | .spoolCommit h nsid => Sys2Proof.Machine.execSpoolCommit h nsid s
  | .takeMark h nsid => Sys2Proof.Machine.execTakeMark h nsid s
  | .ccEnSet ams css asqs acqs => Sys2Proof.Machine.execCcEnSet ams css asqs acqs s
  | .ccEnClear => Sys2Proof.Machine.execCcEnClear s
  | .shutdownNormal => Sys2Proof.Machine.execShutdownNormal s
  | .shutdownAbrupt => Sys2Proof.Machine.execShutdownAbrupt s
  | .sqTailDoorbell qid value => Sys2Proof.Machine.execSqTailDoorbell qid value s
  | .cqHeadDoorbell qid value => Sys2Proof.Machine.execCqHeadDoorbell qid value s
  | .perstNAssert => Sys2Proof.Machine.execPerstNAssert s
  | .functionLevelReset => Sys2Proof.Machine.execFunctionLevelReset s
  | .linkTrained rate width flit => Sys2Proof.Machine.execLinkTrained rate width flit s
  | .linkDown requested => Sys2Proof.Machine.execLinkDown requested s
  | .commandFetch => Sys2Proof.Machine.execCommandFetch s
  | .writeDataTransfer sq cid data => Sys2Proof.Machine.execWriteDataTransfer sq cid data s
  | .writeCreditGrant => Sys2Proof.Machine.execWriteCreditGrant s
  | .creditWaitTimeout => Sys2Proof.Machine.execCreditWaitTimeout s
  | .recordIdleTimeout zone => Sys2Proof.Machine.execRecordIdleTimeout zone s
  | .compressionBlockCode engine => Sys2Proof.Machine.execCompressionBlockCode engine s
  | .overflowBufferFreed engine => Sys2Proof.Machine.execOverflowBufferFreed engine s
  | .xtsSectorEncrypt => Sys2Proof.Machine.execXtsSectorEncrypt s
  | .dsAssembled => Sys2Proof.Machine.execDsAssembled s
  | .ivCeilingRefresh => Sys2Proof.Machine.execIvCeilingRefresh s
  | .ivCeilingWriteDone ok0 ok1 => Sys2Proof.Machine.execIvCeilingWriteDone ok0 ok1 s
  | .speedRequestUpdate => Sys2Proof.Machine.execSpeedRequestUpdate s
  | .fsyncEdge lowNs highNs periodUs => Sys2Proof.Machine.execFsyncEdge lowNs highNs periodUs s
  | .fsyncTimeout => Sys2Proof.Machine.execFsyncTimeout s
  | .dsPositionBoundary ready => Sys2Proof.Machine.execDsPositionBoundary ready s
  | .verifyResult => Sys2Proof.Machine.execVerifyResult s
  | .groupSpoolCommit => Sys2Proof.Machine.execGroupSpoolCommit s
  | .crawlLimitExpiry => Sys2Proof.Machine.execCrawlLimitExpiry s
  | .tensionedIdleTimeout => Sys2Proof.Machine.execTensionedIdleTimeout s
  | .playbackIdleTimeout => Sys2Proof.Machine.execPlaybackIdleTimeout s
  | .wrapTurnaround => Sys2Proof.Machine.execWrapTurnaround s
  | .tapeTailScan lastSeparator headPosition => Sys2Proof.Machine.execTapeTailScan lastSeparator headPosition s
  | .fifoWrite n payload last count => Sys2Proof.Machine.execFifoWrite n payload last count s
  | .fifoRead n => Sys2Proof.Machine.execFifoRead n s
  | .fifoAdvance => Sys2Proof.Machine.execFifoAdvance s
  | .fifoRewindMark => Sys2Proof.Machine.execFifoRewindMark s
  | .fifoRelease k => Sys2Proof.Machine.execFifoRelease k s
  | .fifoRewindRelease => Sys2Proof.Machine.execFifoRewindRelease s
  | .fifoPointerMismatch n => Sys2Proof.Machine.execFifoPointerMismatch n s
  | .fifoExtendedBodyError n => Sys2Proof.Machine.execFifoExtendedBodyError n s
  | .sfqRestart w n => Sys2Proof.Machine.execSfqRestart w n s
  | .sfqStickyClear w n bits => Sys2Proof.Machine.execSfqStickyClear w n bits s
  | .engineGroupWake g => Sys2Proof.Machine.execEngineGroupWake g s
  | .dsSeparatorDetected lane samples => Sys2Proof.Machine.execDsSeparatorDetected lane samples s
  | .syncWindowClose lane slot samples => Sys2Proof.Machine.execSyncWindowClose lane slot samples s
  | .rowFramed lane slot cand samples timeNs gain offset asym => Sys2Proof.Machine.execRowFramed lane slot cand samples timeNs gain offset asym s
  | .lockLost lane samples => Sys2Proof.Machine.execLockLost lane samples s
  | .dropoutSpan lane slot kind first last samples => Sys2Proof.Machine.execDropoutSpan lane slot kind first last samples s
  | .servoFrame lane mark timeNs a b => Sys2Proof.Machine.execServoFrame lane mark timeNs a b s
  | .tapePositionWord lane bits => Sys2Proof.Machine.execTapePositionWord lane bits s
  | .speedMeasurement reverse marks => Sys2Proof.Machine.execSpeedMeasurement reverse marks s
  | .servoFrameTimeout lane => Sys2Proof.Machine.execServoFrameTimeout lane s
  | .rowDecode lane slot => Sys2Proof.Machine.execRowDecode lane slot s
  | .captureComplete => Sys2Proof.Machine.execCaptureComplete s
  | .recordDecompressStart => Sys2Proof.Machine.execRecordDecompressStart s
  | .recordCrcCheck => Sys2Proof.Machine.execRecordCrcCheck s
  | .rereadPassStart seq => Sys2Proof.Machine.execRereadPassStart seq s
  | .retryTimeExpiry seq => Sys2Proof.Machine.execRetryTimeExpiry seq s
  | .slotSampleInstant slot => Sys2Proof.Machine.execSlotSampleInstant slot s
  | .limiterUpdate => Sys2Proof.Machine.execLimiterUpdate s
  | .dwellEnd => Sys2Proof.Machine.execDwellEnd s
  | .supervisorFeedbackPeriod slot => Sys2Proof.Machine.execSupervisorFeedbackPeriod slot s
  | .faultLineAsserted link => Sys2Proof.Machine.execFaultLineAsserted link s
  | .substitutionEnd slot => Sys2Proof.Machine.execSubstitutionEnd slot s
  | .stopComplete => Sys2Proof.Machine.execStopComplete s
  | .ctlRearm w slot => Sys2Proof.Machine.execCtlRearm w slot s
  | .trapezeAutoRearm => Sys2Proof.Machine.execTrapezeAutoRearm s
  | .encoderEdge reel a b index cycles => Sys2Proof.Machine.execEncoderEdge reel a b index cycles s
  | .shuttleCodeSample raw => Sys2Proof.Machine.execShuttleCodeSample raw s
  | .linkSampleFrame link => Sys2Proof.Machine.execLinkSampleFrame link s
  | .linkStatusFrame link frame late => Sys2Proof.Machine.execLinkStatusFrame link frame late s
  | .traceSample => Sys2Proof.Machine.execTraceSample s
  | .traceFreeze => Sys2Proof.Machine.execTraceFreeze s
  | .ctlTrcArm w => Sys2Proof.Machine.execCtlTrcArm w s
  | .ctlTrcSoftwareTrigger w => Sys2Proof.Machine.execCtlTrcSoftwareTrigger w s
  | .preampTransaction m rd reg data replies => Sys2Proof.Machine.execPreampTransaction m rd reg data replies s
  | .preampFault m status => Sys2Proof.Machine.execPreampFault m status s
  | .tensionUp pg10 pg11 => Sys2Proof.Machine.execTensionUp pg10 pg11 s
  | .radiusProbeDone ok supplyUm takeupUm => Sys2Proof.Machine.execRadiusProbeDone ok supplyUm takeupUm s
  | .tensionSettled => Sys2Proof.Machine.execTensionSettled s
  | .tensionTimeout => Sys2Proof.Machine.execTensionTimeout s
  | .positionValid tpn frame boundary => Sys2Proof.Machine.execPositionValid tpn frame boundary s
  | .findPositionFailed cause => Sys2Proof.Machine.execFindPositionFailed cause s
  | .locateArrival => Sys2Proof.Machine.execLocateArrival s
  | .locateTimeout => Sys2Proof.Machine.execLocateTimeout s
  | .emergencyStop cause => Sys2Proof.Machine.execEmergencyStop cause s
  | .emergencyBrakeApply => Sys2Proof.Machine.execEmergencyBrakeApply s
  | .lidSwChange opened => Sys2Proof.Machine.execLidSwChange opened s
  | .kdsqtDoorbell core sqb sqsz cqb cqsz tail => Sys2Proof.Machine.execKdsqtDoorbell core sqb sqsz cqb cqsz tail s
  | .kdcqhWrite core head => Sys2Proof.Machine.execKdcqhWrite core head s
  | .klockRequest core => Sys2Proof.Machine.execKlockRequest core s
  | .klockRelease core => Sys2Proof.Machine.execKlockRelease core s
  | .invocationStart => Sys2Proof.Machine.execInvocationStart s
  | .ecallExit core a7 a0 a1 pc => Sys2Proof.Machine.execEcallExit core a7 a0 a1 pc s
  | .wfiWait core pc => Sys2Proof.Machine.execWfiWait core pc s
  | .dmaDescriptorComplete core => Sys2Proof.Machine.execDmaDescriptorComplete core s
  | .windowViolation core kind addr => Sys2Proof.Machine.execWindowViolation core kind addr s
  | .kernelTrap core code pc => Sys2Proof.Machine.execKernelTrap core code pc s
  | .invocationTimeLimit core => Sys2Proof.Machine.execInvocationTimeLimit core s
  | .coreIdlePowerDown core => Sys2Proof.Machine.execCoreIdlePowerDown core s
  | .cacheAccess q wr addr data err => Sys2Proof.Machine.execCacheAccess q wr addr data err s
  | .cacheMissFillComplete bank => Sys2Proof.Machine.execCacheMissFillComplete bank s
  | .ccaRangeClean w => Sys2Proof.Machine.execCcaRangeClean w s
  | .ccaRangeCleanInvalidate w => Sys2Proof.Machine.execCcaRangeCleanInvalidate w s
  | .rangeOperationComplete => Sys2Proof.Machine.execRangeOperationComplete s
  | .ccaWayEnWrite w value => Sys2Proof.Machine.execCcaWayEnWrite w value s
  | .ccaEnableWrite w value => Sys2Proof.Machine.execCcaEnableWrite w value s
  | .cacheCleanComplete => Sys2Proof.Machine.execCacheCleanComplete s
  | .wayWakeComplete => Sys2Proof.Machine.execWayWakeComplete s
  | .hardwareWayDisable way => Sys2Proof.Machine.execHardwareWayDisable way s
  | .servicePoolRequest requester w0 w1 w2 w3 data => Sys2Proof.Machine.execServicePoolRequest requester w0 w1 w2 w3 data s
  | .servicePoolUrgentRequest requester w0 w1 w2 w3 data => Sys2Proof.Machine.execServicePoolUrgentRequest requester w0 w1 w2 w3 data s
  | .servicePoolMessageDone => Sys2Proof.Machine.execServicePoolMessageDone s
  | .cphLockTimeout => Sys2Proof.Machine.execCphLockTimeout s
  | .keySlotLoad keyId => Sys2Proof.Machine.execKeySlotLoad keyId s
  | .challengeExpiry => Sys2Proof.Machine.execChallengeExpiry s
  | .lockoutExpiry => Sys2Proof.Machine.execLockoutExpiry s
  | .sessionIdleTimeout => Sys2Proof.Machine.execSessionIdleTimeout s
  | .trngHealthFailure repetition proportion => Sys2Proof.Machine.execTrngHealthFailure repetition proportion s
  | .trngRetest pass => Sys2Proof.Machine.execTrngRetest pass s
  | .pageProgramStatus unit pass => Sys2Proof.Machine.execPageProgramStatus unit pass s
  | .dieOperationTimeout die => Sys2Proof.Machine.execDieOperationTimeout die s
  | .pageRead die block page errors => Sys2Proof.Machine.execPageRead die block page errors s
  | .journalRecordPersisted => Sys2Proof.Machine.execJournalRecordPersisted s
  | .checkpointWrite => Sys2Proof.Machine.execCheckpointWrite s
  | .programSequenceCeiling ok0 ok1 => Sys2Proof.Machine.execProgramSequenceCeiling ok0 ok1 s
  | .gcRun => Sys2Proof.Machine.execGcRun s
  | .fold extent => Sys2Proof.Machine.execFold extent s
  | .scrub => Sys2Proof.Machine.execScrub s
  | .ageClockStep => Sys2Proof.Machine.execAgeClockStep s
  | .hmbMapLoadDone => Sys2Proof.Machine.execHmbMapLoadDone s
  | .linePresent mv => Sys2Proof.Machine.execLinePresent mv s
  | .lineLoss => Sys2Proof.Machine.execLineLoss s
  | .lineOvervoltage => Sys2Proof.Machine.execLineOvervoltage s
  | .powerUpStep pgood => Sys2Proof.Machine.execPowerUpStep pgood s
  | .pgoodTimeout rail => Sys2Proof.Machine.execPgoodTimeout rail s
  | .powerUpRetry => Sys2Proof.Machine.execPowerUpRetry s
  | .referenceSettled => Sys2Proof.Machine.execReferenceSettled s
  | .bootSequence env => Sys2Proof.Machine.execBootSequence env s
  | .pgoodLost rail => Sys2Proof.Machine.execPgoodLost rail s
  | .bankTestStart mv => Sys2Proof.Machine.execBankTestStart mv s
  | .pwrTestNow w => Sys2Proof.Machine.execPwrTestNow w s
  | .bankTestCharged mv => Sys2Proof.Machine.execBankTestCharged mv s
  | .bankTestChargeTimeout => Sys2Proof.Machine.execBankTestChargeTimeout s
  | .bankTestV1Sample mv => Sys2Proof.Machine.execBankTestV1Sample mv s
  | .bankTestEnd mv us => Sys2Proof.Machine.execBankTestEnd mv us s
  | .creditRecompute mv => Sys2Proof.Machine.execCreditRecompute mv s
  | .drainComplete => Sys2Proof.Machine.execDrainComplete s
  | .bankBelowMinimum => Sys2Proof.Machine.execBankBelowMinimum s
  | .bankBelowIslandMinimum => Sys2Proof.Machine.execBankBelowIslandMinimum s
  | .crystalStable => Sys2Proof.Machine.execCrystalStable s
  | .temperatureSample centi humidity shocks => Sys2Proof.Machine.execTemperatureSample centi humidity shocks s
  | .shockInterrupt x y z => Sys2Proof.Machine.execShockInterrupt x y z s
  | .compositeTemperatureSample deci => Sys2Proof.Machine.execCompositeTemperatureSample deci s
  | .thermalTrip => Sys2Proof.Machine.execThermalTrip s
  | .bootImportCheck w => Sys2Proof.Machine.execBootImportCheck w s
  | .bootImportSeal w => Sys2Proof.Machine.execBootImportSeal w s
  | .bootImportRestart w => Sys2Proof.Machine.execBootImportRestart w s
  | .bootImportAcceptLoss w => Sys2Proof.Machine.execBootImportAcceptLoss w s
  | .norProgramComplete area copy ok => Sys2Proof.Machine.execNorProgramComplete area copy ok s
  | .lockstepMismatch => Sys2Proof.Machine.execLockstepMismatch s
  | .bufferUncorrectableError channel => Sys2Proof.Machine.execBufferUncorrectableError channel s
  | .eventRecord evt cause data => Sys2Proof.Machine.execEventRecord evt cause data s
  | .eventRateSecondEnd => Sys2Proof.Machine.execEventRateSecondEnd s
  | .eventJournalPersist => Sys2Proof.Machine.execEventJournalPersist s
  | .percentageUsedCompute => Sys2Proof.Machine.execPercentageUsedCompute s
  | .healthRecordWrite => Sys2Proof.Machine.execHealthRecordWrite s
  | .aonPorstNRise => Sys2Proof.Machine.execAonPorstNRise s
  | .hmcFltRelease m => Sys2Proof.Machine.execHmcFltRelease m s
  | .linkPowerStateChange state => Sys2Proof.Machine.execLinkPowerStateChange state s
  | .uncorrectableAerError => Sys2Proof.Machine.execUncorrectableAerError s

end Sys2Proof.Machine
end

