-- ==== Sys2Proof/Machine/Tick.lean ====
section
/-! DEFINITION. What one tick of Chervil's 32,768 Hz clock does while no command waits (R417, R268, R357, R449, R462; log 1): the clocks and
counters of time advance, travel is added up, a lockout that ends is noted, and the brakes of an emergency stop engage when they are due (R213); nothing
else. -/

namespace Sys2Proof.Machine

/-- Ringmaster works: from BOOT until DRAIN. -/
def State.counts (s : State) : Bool := s.mag.st.alive && s.mag.st != .drain

/-- Travel of one tick in 1/32,768 µm: the measured speed, or the mean surface speed of the reels while that is invalid (R449). -/
def State.tickTravel (s : State) : Nat := s.tapeSpeed

/-- Chervil's own counters of one tick (R417, R425, R462). -/
def State.tickClock (s : State) : State :=
  (s.modPw (fun p => if p.aon then { p with rtc := p.rtc + 1, testAge := p.testAge + 1 } else p)).modMag (fun g =>
    { g with mismatch := g.mismatch.bind (fun n => if n + 1 < 3600 * 32768 then some (n + 1) else none) })

/-- Ringmaster's counters of one tick (R357, R449, R470). -/
def State.tickCount (s : State) : State :=
  if s.counts then
    let t := (s.modMag (fun g => { g with ticks := g.ticks + 1 })).modNv (fun n => { n with powerOn := n.powerOn + 1 })
    if s.moves then t.modEv (fun v => { v with headTicks := v.headTicks + 1, travel := NMap.bump v.travel s.ctl.wrapSel s.tickTravel }) else t
  else s

/-- The lockout counts down; at its end Ringmaster notes it (R268). -/
def State.tickLockout (s : State) : State :=
  if s.keys.lockout = 1 then s.lockoutEnd else s.modKeys (fun k => { k with lockout := k.lockout - 1 })

/-- One tick. -/
def State.tick (s : State) : State := s.tickClock.tickCount.tickLockout.brakeLook

end Sys2Proof.Machine
end

