-- ==== Sys2Proof/WellFormed.lean ====
section
/-! DEFINITION. Well-formed commands: every operand fits the field or the range of numbers the manual gives it (queue identifiers of
16 bits, 96 FIFOs, 512 lanes, eight slots ...). A command that is not well formed cannot be sent; the meanings do not rest on this. -/

namespace Sys2Proof

/-- Queue and command identifiers of 16 bits each. -/
def Hdr.wf (h : Hdr) : Bool := decide (h.sq < 65536) && decide (h.cid < 65536)

/-- The header of a register write, when a host sends it. -/
def hdrWf (w : Option Hdr) : Bool :=
  match w with
  | some h => h.wf
  | none => true

/-- Whole blocks of 4,096 bytes: as many as the 0's based count says, when the data is given. -/
def dataWf (nlb : Nat) (d : Option Bytes) : Bool :=
  match d with
  | some b => decide (b.length = 4096 * (nlb + 1))
  | none => true

/-- Every operand fits. -/
def Instr.wf (i : Instr) : Bool :=
  match i with
  | .createIoSubmissionQueue h qid size prio cqid _ =>
    h.wf && decide (qid < 65536) && decide (size < 65536) && decide (prio < 4) && decide (cqid < 65536)
  | .createIoCompletionQueue h qid size vector _ _ =>
    h.wf && decide (qid < 65536) && decide (size < 65536) && decide (vector < 65536)
  | .deleteIoSubmissionQueue h qid => h.wf && decide (qid < 65536)
  | .deleteIoCompletionQueue h qid => h.wf && decide (qid < 65536)
  | .getLogPage h lid off dwords _ => h.wf && decide (lid < 256) && decide (off < 2 ^ 64) && decide (dwords < 2 ^ 32)
  | .identify h cns nsid csi => h.wf && decide (cns < 256) && decide (nsid < 2 ^ 32) && decide (csi < 256)
  | .abort h sqid cid => h.wf && decide (sqid < 65536) && decide (cid < 65536)
  | .setFeatures h fid _ d11 d12 _ => h.wf && decide (fid < 256) && decide (d11 < 2 ^ 32) && decide (d12 < 2 ^ 32)
  | .setVolatileWriteCache h _ d11 => h.wf && decide (d11 < 2 ^ 32)
  | .setHostMemoryBuffer h _ d11 size => h.wf && decide (d11 < 2 ^ 32) && decide (size < 2 ^ 32)
  | .setTimestamp h _ ms => h.wf && decide (ms < 2 ^ 48)
  | .setSpeedPolicy h _ _ => h.wf
  | .setAcknowledgeCreditPolicy h _ d11 => h.wf && decide (d11 < 2 ^ 32)
  | .setCompressionPolicy h _ d11 => h.wf && decide (d11 < 2 ^ 32)
  | .setOperatingContext h _ d11 => h.wf && decide (d11 < 2 ^ 32)
  | .setRewritePolicy h _ _ => h.wf
  | .setComputePolicy h _ d11 => h.wf && decide (d11 < 2 ^ 32)
  | .getFeatures h fid sel d11 => h.wf && decide (fid < 256) && decide (sel < 8) && decide (d11 < 2 ^ 32)
  | .asynchronousEventRequest h => h.wf
  | .firmwareImageDownload h off _ => h.wf && decide (off < 2 ^ 32)
  | .firmwareCommitStore h slot => h.wf && decide (slot < 8)
  | .firmwareCommitStoreAndMark h slot => h.wf && decide (slot < 8)
  | .firmwareCommitMark h slot => h.wf && decide (slot < 8)
  | .firmwareCommitActivate h slot => h.wf && decide (slot < 8)
  | .formatNvm h nsid ses lbaf => h.wf && decide (nsid < 2 ^ 32) && decide (ses < 8) && decide (lbaf < 64)
  | .formatSecureEraseTake h nsid lbaf => h.wf && decide (nsid < 2 ^ 32) && decide (lbaf < 64)
  | .parameterRead h d10 first count => h.wf && decide (d10 < 2 ^ 32) && decide (first < 2 ^ 32) && decide (count < 2 ^ 32)
  | .parameterWrite h d10 first count _ => h.wf && decide (d10 < 2 ^ 32) && decide (first < 2 ^ 32) && decide (count < 2 ^ 32)
  | .parameterCommit h op => h.wf && decide (op < 2 ^ 32)
  | .parameterDiscard h => h.wf
  | .keyDepositClaim h _ => h.wf
  | .keyDepositReplaceOwnerKey h _ => h.wf
  | .keyDepositEscrowKey h _ => h.wf
  | .keyDepositRemoveEscrowKey h _ => h.wf
  | .keyDepositEraseTake h _ => h.wf
  | .keyDepositRecoverAndAdopt h _ => h.wf
  | .ownerChallenge h => h.wf
  | .ownerChallengeQuery h => h.wf
  | .ownerResponse h _ => h.wf
  | .kernelLoad h d10 _ => h.wf && decide (d10 < 2 ^ 32)
  | .kernelLoadRom h number => h.wf && decide (number < 256)
  | .kernelUnload h inst => h.wf && decide (inst < 256)
  | .traceRead h d10 first src => h.wf && decide (d10 < 2 ^ 32) && decide (first < 2 ^ 32) && decide (src < 2 ^ 32)
  | .transportTensionOn h => h.wf
  | .transportTensionOff h => h.wf
  | .transportPark h arg => h.wf && decide (arg < 2 ^ 24)
  | .transportLocate h d11 d12 => h.wf && decide (d11 < 2 ^ 32) && decide (d12 < 2 ^ 32)
  | .transportShuttle h => h.wf
  | .transportCalibrate h arg => h.wf && decide (arg < 2 ^ 24)
  | .transportEjectPrepare h arg => h.wf && decide (arg < 2 ^ 24)
  | .transportServiceUnload h => h.wf
  | .transportServiceLoad h => h.wf
  | .transportResumeWriting h arg => h.wf && decide (arg < 2 ^ 24)
  | .unsupportedCommand h opcode nsid d10 => h.wf && decide (opcode < 256) && decide (nsid < 2 ^ 32) && decide (d10 < 2 ^ 32)
  | .flush h nsid => h.wf && decide (nsid < 2 ^ 32)
  | .write h nsid slba nlb _ cdw2 cdw3 data =>
    h.wf && decide (nsid < 2 ^ 32) && decide (slba < 2 ^ 64) && decide (nlb < 65536) && decide (cdw2 < 2 ^ 32)
     && decide (cdw3 < 2 ^ 32) && dataWf nlb data
  | .zoneAppend h nsid slba nlb _ cdw2 cdw3 data =>
    h.wf && decide (nsid < 2 ^ 32) && decide (slba < 2 ^ 64) && decide (nlb < 65536) && decide (cdw2 < 2 ^ 32)
     && decide (cdw3 < 2 ^ 32) && dataWf nlb data
  | .read h nsid slba nlb _ => h.wf && decide (nsid < 2 ^ 32) && decide (slba < 2 ^ 64) && decide (nlb < 65536)
  | .writeZeroes h nsid slba nlb => h.wf && decide (nsid < 2 ^ 32) && decide (slba < 2 ^ 64) && decide (nlb < 65536)
  | .datasetManagement h nsid _ ranges => h.wf && decide (nsid < 2 ^ 32) && decide (ranges.length ≤ 256)
  | .zoneOpen h nsid slba _ => h.wf && decide (nsid < 2 ^ 32) && decide (slba < 2 ^ 64)
  | .zoneClose h nsid slba _ => h.wf && decide (nsid < 2 ^ 32) && decide (slba < 2 ^ 64)
  | .zoneFinish h nsid slba _ => h.wf && decide (nsid < 2 ^ 32) && decide (slba < 2 ^ 64)
  | .zoneReset h nsid slba => h.wf && decide (nsid < 2 ^ 32) && decide (slba < 2 ^ 64)
  | .zoneResetAll h nsid => h.wf && decide (nsid < 2 ^ 32)
  | .zoneOffline h nsid slba => h.wf && decide (nsid < 2 ^ 32) && decide (slba < 2 ^ 64)
  | .zoneManagementReceive h nsid slba dwords zra zrasf _ =>
    h.wf && decide (nsid < 2 ^ 32) && decide (slba < 2 ^ 64) && decide (dwords < 2 ^ 32) && decide (zra < 256)
     && decide (zrasf < 256)
  | .kernelInvoke h nsid d10 _ => h.wf && decide (nsid < 2 ^ 32) && decide (d10 < 2 ^ 32)
  | .spoolCommit h nsid => h.wf && decide (nsid < 2 ^ 32)
  | .takeMark h nsid => h.wf && decide (nsid < 2 ^ 32)
  | .ccEnSet ams css asqs acqs => decide (ams < 8) && decide (css < 8) && decide (asqs < 4096) && decide (acqs < 4096)
  | .ccEnClear => true
  | .shutdownNormal => true
  | .shutdownAbrupt => true
  | .sqTailDoorbell qid value => decide (qid < 65536) && decide (value < 65536)
  | .cqHeadDoorbell qid value => decide (qid < 65536) && decide (value < 65536)
  | .perstNAssert => true
  | .functionLevelReset => true
  | .linkTrained rate width _ => decide (rate < 8) && decide (width < 64)
  | .linkDown _ => true
  | .commandFetch => true
  | .writeDataTransfer sq cid data => decide (sq < 65536) && decide (cid < 65536) && (data.getD []).length % 4096 = 0
  | .writeCreditGrant => true
  | .creditWaitTimeout => true
  | .recordIdleTimeout zone => decide (zone < 2 ^ 22)
  | .compressionBlockCode engine => decide (engine < 8)
  | .overflowBufferFreed engine => decide (engine < 8)
  | .xtsSectorEncrypt => true
  | .dsAssembled => true
  | .ivCeilingRefresh => true
  | .ivCeilingWriteDone _ _ => true
  | .speedRequestUpdate => true
  | .fsyncEdge lowNs highNs periodUs => decide (lowNs < 2 ^ 32) && decide (highNs < 2 ^ 32) && decide (periodUs < 2 ^ 32)
  | .fsyncTimeout => true
  | .dsPositionBoundary _ => true
  | .verifyResult => true
  | .groupSpoolCommit => true
  | .crawlLimitExpiry => true
  | .tensionedIdleTimeout => true
  | .playbackIdleTimeout => true
  | .wrapTurnaround => true
  | .tapeTailScan _ headPosition => decide (headPosition < 2 ^ 20)
  | .fifoWrite n payload _ count => decide (n < 96) && decide (payload < 2 ^ 256) && decide (count < 32)
  | .fifoRead n => decide (n < 96)
  | .fifoAdvance => true
  | .fifoRewindMark => true
  | .fifoRelease k => decide (k < 65536)
  | .fifoRewindRelease => true
  | .fifoPointerMismatch n => decide (n < 96)
  | .fifoExtendedBodyError n => decide (n < 96)
  | .sfqRestart w n => hdrWf w && decide (n < 96)
  | .sfqStickyClear w n bits => hdrWf w && decide (n < 96) && decide (bits < 16)
  | .engineGroupWake g => decide (g < 16)
  | .dsSeparatorDetected lane _ => decide (lane < 512)
  | .syncWindowClose lane slot _ => decide (lane < 512) && decide (slot < 8)
  | .rowFramed lane slot cand _ timeNs gain offset asym =>
    decide (lane < 512) && decide (slot < 8) && decide (cand < 2) && decide (timeNs < 2 ^ 64) && decide (gain < 64)
      && decide (-128 ≤ offset) && decide (offset < 128) && decide (-64 ≤ asym) && decide (asym < 64)
  | .lockLost lane _ => decide (lane < 512)
  | .dropoutSpan lane slot kind first last _ =>
    decide (lane < 512) && decide (slot < 8) && decide (1 ≤ kind) && decide (kind ≤ 3) && decide (first ≤ last)
  | .servoFrame lane mark timeNs a b =>
    decide (lane < 32) && decide (mark < 16) && decide (timeNs < 2 ^ 64) && decide (a < 65536) && decide (b < 65536)
  | .tapePositionWord lane bits => decide (lane < 32) && decide (bits < 2 ^ 79)
  | .speedMeasurement _ _ => true
  | .servoFrameTimeout lane => decide (lane < 32)
  | .rowDecode lane slot => decide (lane < 512) && decide (slot < 8)
  | .captureComplete => true
  | .recordDecompressStart => true
  | .recordCrcCheck => true
  | .rereadPassStart seq => decide (seq < 2 ^ 34)
  | .retryTimeExpiry seq => decide (seq < 2 ^ 34)
  | .slotSampleInstant slot => decide (slot < 8)
  | .limiterUpdate => true
  | .dwellEnd => true
  | .supervisorFeedbackPeriod slot => decide (slot < 8)
  | .faultLineAsserted link => decide (link < 4)
  | .substitutionEnd slot => decide (slot < 8)
  | .stopComplete => true
  | .ctlRearm w slot => hdrWf w && decide (slot < 8)
  | .trapezeAutoRearm => true
  | .encoderEdge reel _ _ _ cycles => decide (reel < 2) && decide (cycles < 2 ^ 32)
  | .shuttleCodeSample raw => decide (raw < 4096)
  | .linkSampleFrame link => decide (link < 4)
  | .linkStatusFrame link frame _ => decide (link < 4) && decide (frame < 2 ^ 64)
  | .traceSample => true
  | .traceFreeze => true
  | .ctlTrcArm w => hdrWf w
  | .ctlTrcSoftwareTrigger w => hdrWf w
  | .preampTransaction m _ reg data replies =>
    decide (m < 16) && decide (reg < 128) && decide (data < 256) && decide (replies.length ≤ 3)
  | .preampFault m status => decide (m < 16) && decide (status < 256)
  | .tensionUp _ _ => true
  | .radiusProbeDone _ supplyUm takeupUm => decide (supplyUm < 65536) && decide (takeupUm < 65536)
  | .tensionSettled => true
  | .tensionTimeout => true
  | .positionValid tpn frame boundary => decide (tpn < 2 ^ 20) && decide (frame < 80) && decide (boundary < 32)
  | .findPositionFailed cause => decide (cause < 256)
  | .locateArrival => true
  | .locateTimeout => true
  | .emergencyStop cause => decide (cause < 256)
  | .emergencyBrakeApply => true
  | .lidSwChange _ => true
  | .kdsqtDoorbell core sqb sqsz cqb cqsz tail =>
    decide (core < 16) && decide (sqb < 2 ^ 64) && decide (sqsz < 65536) && decide (cqb < 2 ^ 64) && decide (cqsz < 65536)
     && decide (tail < 65536)
  | .kdcqhWrite core head => decide (core < 16) && decide (head < 65536)
  | .klockRequest core => decide (core < 16)
  | .klockRelease core => decide (core < 16)
  | .invocationStart => true
  | .ecallExit core a7 a0 a1 pc =>
    decide (core < 16) && decide (a7 < 2 ^ 64) && decide (a0 < 2 ^ 64) && decide (a1 < 2 ^ 64) && decide (pc < 2 ^ 64)
  | .wfiWait core pc => decide (core < 16) && decide (pc < 2 ^ 64)
  | .dmaDescriptorComplete core => decide (core < 16)
  | .windowViolation core kind addr => decide (core < 16) && decide (kind < 256) && decide (addr < 2 ^ 64)
  | .kernelTrap core code pc => decide (core < 16) && decide (code < 256) && decide (pc < 2 ^ 64)
  | .invocationTimeLimit core => decide (core < 16)
  | .coreIdlePowerDown core => decide (core < 16)
  | .cacheAccess q _ addr data err => decide (q < 18) && decide (addr < 2 ^ 36) && decide (data.length ≤ 64) && decide (err < 4)
  | .cacheMissFillComplete bank => decide (bank < 8)
  | .ccaRangeClean w => hdrWf w
  | .ccaRangeCleanInvalidate w => hdrWf w
  | .rangeOperationComplete => true
  | .ccaWayEnWrite w value => hdrWf w && decide (value < 2 ^ 32)
  | .ccaEnableWrite w value => hdrWf w && decide (value < 2 ^ 32)
  | .cacheCleanComplete => true
  | .wayWakeComplete => true
  | .hardwareWayDisable way => decide (way < 16)
  | .servicePoolRequest requester w0 w1 w2 w3 _ =>
    decide (requester < 65536) && decide (w0 < 2 ^ 64) && decide (w1 < 2 ^ 64) && decide (w2 < 2 ^ 64) && decide (w3 < 2 ^ 64)
  | .servicePoolUrgentRequest requester w0 w1 w2 w3 _ =>
    decide (requester < 65536) && decide (w0 < 2 ^ 64) && decide (w1 < 2 ^ 64) && decide (w2 < 2 ^ 64) && decide (w3 < 2 ^ 64)
  | .servicePoolMessageDone => true
  | .cphLockTimeout => true
  | .keySlotLoad keyId => decide (keyId < 65536)
  | .challengeExpiry => true
  | .lockoutExpiry => true
  | .sessionIdleTimeout => true
  | .trngHealthFailure _ _ => true
  | .trngRetest _ => true
  | .pageProgramStatus unit _ => decide (unit < 2 ^ 64)
  | .dieOperationTimeout die => decide (die < 384)
  | .pageRead die block page _ => decide (die < 384) && decide (block < 65536) && decide (page < 65536)
  | .journalRecordPersisted => true
  | .checkpointWrite => true
  | .programSequenceCeiling _ _ => true
  | .gcRun => true
  | .fold extent => decide (extent < 2 ^ 40)
  | .scrub => true
  | .ageClockStep => true
  | .hmbMapLoadDone => true
  | .linePresent mv => decide (mv < 65536)
  | .lineLoss => true
  | .lineOvervoltage => true
  | .powerUpStep _ => true
  | .pgoodTimeout rail => decide (rail < 12)
  | .powerUpRetry => true
  | .referenceSettled => true
  | .bootSequence _ => true
  | .pgoodLost rail => decide (rail < 12)
  | .bankTestStart mv => decide (mv < 65536)
  | .pwrTestNow w => hdrWf w
  | .bankTestCharged mv => decide (mv < 65536)
  | .bankTestChargeTimeout => true
  | .bankTestV1Sample mv => decide (mv < 65536)
  | .bankTestEnd mv us => decide (mv < 65536) && decide (us < 2 ^ 32)
  | .creditRecompute mv => decide (mv < 65536)
  | .drainComplete => true
  | .bankBelowMinimum => true
  | .bankBelowIslandMinimum => true
  | .crystalStable => true
  | .temperatureSample _ humidity _ => decide (humidity < 2 ^ 16)
  | .shockInterrupt _ _ _ => true
  | .compositeTemperatureSample _ => true
  | .thermalTrip => true
  | .bootImportCheck w => hdrWf w
  | .bootImportSeal w => hdrWf w
  | .bootImportRestart w => hdrWf w
  | .bootImportAcceptLoss w => hdrWf w
  | .norProgramComplete area copy _ => decide (area < 6) && decide (copy < 2)
  | .lockstepMismatch => true
  | .bufferUncorrectableError channel => decide (channel < 4)
  | .eventRecord evt cause data => decide (evt < 2048) && decide (cause < 256) && decide (data.length ≤ 12)
  | .eventRateSecondEnd => true
  | .eventJournalPersist => true
  | .percentageUsedCompute => true
  | .healthRecordWrite => true
  | .aonPorstNRise => true
  | .hmcFltRelease m => decide (m < 16)
  | .linkPowerStateChange state => decide (state < 5)
  | .uncorrectableAerError => true

end Sys2Proof
end

