-- ==== Sys2Proof/Safety.lean ====
section
/-! DEFINITION. What the claims speak of: the header of a host command, when a step is a step of the device, and what every step must keep. -/

namespace Sys2Proof

/-- The header a host gave a command; none for a command that comes from elsewhere. -/
def Instr.hdr? (i : Instr) : Option Hdr :=
  match i with
  | .createIoSubmissionQueue h _ _ _ _ _ => some h
  | .createIoCompletionQueue h _ _ _ _ _ => some h
  | .deleteIoSubmissionQueue h _ => some h
  | .deleteIoCompletionQueue h _ => some h
  | .getLogPage h _ _ _ _ => some h
  | .identify h _ _ _ => some h
  | .abort h _ _ => some h
  | .setFeatures h _ _ _ _ _ => some h
  | .setVolatileWriteCache h _ _ => some h
  | .setHostMemoryBuffer h _ _ _ => some h
  | .setTimestamp h _ _ => some h
  | .setSpeedPolicy h _ _ => some h
  | .setAcknowledgeCreditPolicy h _ _ => some h
  | .setCompressionPolicy h _ _ => some h
  | .setOperatingContext h _ _ => some h
  | .setRewritePolicy h _ _ => some h
  | .setComputePolicy h _ _ => some h
  | .getFeatures h _ _ _ => some h
  | .asynchronousEventRequest h => some h
  | .firmwareImageDownload h _ _ => some h
  | .firmwareCommitStore h _ => some h
  | .firmwareCommitStoreAndMark h _ => some h
  | .firmwareCommitMark h _ => some h
  | .firmwareCommitActivate h _ => some h
  | .formatNvm h _ _ _ => some h
  | .formatSecureEraseTake h _ _ => some h
  | .parameterRead h _ _ _ => some h
  | .parameterWrite h _ _ _ _ => some h
  | .parameterCommit h _ => some h
  | .parameterDiscard h => some h
  | .keyDepositClaim h _ => some h
  | .keyDepositReplaceOwnerKey h _ => some h
  | .keyDepositEscrowKey h _ => some h
  | .keyDepositRemoveEscrowKey h _ => some h
  | .keyDepositEraseTake h _ => some h
  | .keyDepositRecoverAndAdopt h _ => some h
  | .ownerChallenge h => some h
  | .ownerChallengeQuery h => some h
  | .ownerResponse h _ => some h
  | .kernelLoad h _ _ => some h
  | .kernelLoadRom h _ => some h
  | .kernelUnload h _ => some h
  | .traceRead h _ _ _ => some h
  | .transportTensionOn h => some h
  | .transportTensionOff h => some h
  | .transportPark h _ => some h
  | .transportLocate h _ _ => some h
  | .transportShuttle h => some h
  | .transportCalibrate h _ => some h
  | .transportEjectPrepare h _ => some h
  | .transportServiceUnload h => some h
  | .transportServiceLoad h => some h
  | .transportResumeWriting h _ => some h
  | .unsupportedCommand h _ _ _ => some h
  | .flush h _ => some h
  | .write h _ _ _ _ _ _ _ => some h
  | .zoneAppend h _ _ _ _ _ _ _ => some h
  | .read h _ _ _ _ => some h
  | .writeZeroes h _ _ _ => some h
  | .datasetManagement h _ _ _ => some h
  | .zoneOpen h _ _ _ => some h
  | .zoneClose h _ _ _ => some h
  | .zoneFinish h _ _ _ => some h
  | .zoneReset h _ _ => some h
  | .zoneResetAll h _ => some h
  | .zoneOffline h _ _ => some h
  | .zoneManagementReceive h _ _ _ _ _ _ => some h
  | .kernelInvoke h _ _ _ => some h
  | .spoolCommit h _ => some h
  | .takeMark h _ => some h
  | .ccEnSet _ _ _ _ => none
  | .ccEnClear => none
  | .shutdownNormal => none
  | .shutdownAbrupt => none
  | .sqTailDoorbell _ _ => none
  | .cqHeadDoorbell _ _ => none
  | .perstNAssert => none
  | .functionLevelReset => none
  | .linkTrained _ _ _ => none
  | .linkDown _ => none
  | .commandFetch => none
  | .writeDataTransfer _ _ _ => none
  | .writeCreditGrant => none
  | .creditWaitTimeout => none
  | .recordIdleTimeout _ => none
  | .compressionBlockCode _ => none
  | .overflowBufferFreed _ => none
  | .xtsSectorEncrypt => none
  | .dsAssembled => none
  | .ivCeilingRefresh => none
  | .ivCeilingWriteDone _ _ => none
  | .speedRequestUpdate => none
  | .fsyncEdge _ _ _ => none
  | .fsyncTimeout => none
  | .dsPositionBoundary _ => none
  | .verifyResult => none
  | .groupSpoolCommit => none
  | .crawlLimitExpiry => none
  | .tensionedIdleTimeout => none
  | .playbackIdleTimeout => none
  | .wrapTurnaround => none
  | .tapeTailScan _ _ => none
  | .fifoWrite _ _ _ _ => none
  | .fifoRead _ => none
  | .fifoAdvance => none
  | .fifoRewindMark => none
  | .fifoRelease _ => none
  | .fifoRewindRelease => none
  | .fifoPointerMismatch _ => none
  | .fifoExtendedBodyError _ => none
  | .sfqRestart w _ => w
  | .sfqStickyClear w _ _ => w
  | .engineGroupWake _ => none
  | .dsSeparatorDetected _ _ => none
  | .syncWindowClose _ _ _ => none
  | .rowFramed _ _ _ _ _ _ _ _ => none
  | .lockLost _ _ => none
  | .dropoutSpan _ _ _ _ _ _ => none
  | .servoFrame _ _ _ _ _ => none
  | .tapePositionWord _ _ => none
  | .speedMeasurement _ _ => none
  | .servoFrameTimeout _ => none
  | .rowDecode _ _ => none
  | .captureComplete => none
  | .recordDecompressStart => none
  | .recordCrcCheck => none
  | .rereadPassStart _ => none
  | .retryTimeExpiry _ => none
  | .slotSampleInstant _ => none
  | .limiterUpdate => none
  | .dwellEnd => none
  | .supervisorFeedbackPeriod _ => none
  | .faultLineAsserted _ => none
  | .substitutionEnd _ => none
  | .stopComplete => none
  | .ctlRearm w _ => w
  | .trapezeAutoRearm => none
  | .encoderEdge _ _ _ _ _ => none
  | .shuttleCodeSample _ => none
  | .linkSampleFrame _ => none
  | .linkStatusFrame _ _ _ => none
  | .traceSample => none
  | .traceFreeze => none
  | .ctlTrcArm w => w
  | .ctlTrcSoftwareTrigger w => w
  | .preampTransaction _ _ _ _ _ => none
  | .preampFault _ _ => none
  | .tensionUp _ _ => none
  | .radiusProbeDone _ _ _ => none
  | .tensionSettled => none
  | .tensionTimeout => none
  | .positionValid _ _ _ => none
  | .findPositionFailed _ => none
  | .locateArrival => none
  | .locateTimeout => none
  | .emergencyStop _ => none
  | .emergencyBrakeApply => none
  | .lidSwChange _ => none
  | .kdsqtDoorbell _ _ _ _ _ _ => none
  | .kdcqhWrite _ _ => none
  | .klockRequest _ => none
  | .klockRelease _ => none
  | .invocationStart => none
  | .ecallExit _ _ _ _ _ => none
  | .wfiWait _ _ => none
  | .dmaDescriptorComplete _ => none
  | .windowViolation _ _ _ => none
  | .kernelTrap _ _ _ => none
  | .invocationTimeLimit _ => none
  | .coreIdlePowerDown _ => none
  | .cacheAccess _ _ _ _ _ => none
  | .cacheMissFillComplete _ => none
  | .ccaRangeClean w => w
  | .ccaRangeCleanInvalidate w => w
  | .rangeOperationComplete => none
  | .ccaWayEnWrite w _ => w
  | .ccaEnableWrite w _ => w
  | .cacheCleanComplete => none
  | .wayWakeComplete => none
  | .hardwareWayDisable _ => none
  | .servicePoolRequest _ _ _ _ _ _ => none
  | .servicePoolUrgentRequest _ _ _ _ _ _ => none
  | .servicePoolMessageDone => none
  | .cphLockTimeout => none
  | .keySlotLoad _ => none
  | .challengeExpiry => none
  | .lockoutExpiry => none
  | .sessionIdleTimeout => none
  | .trngHealthFailure _ _ => none
  | .trngRetest _ => none
  | .pageProgramStatus _ _ => none
  | .dieOperationTimeout _ => none
  | .pageRead _ _ _ _ => none
  | .journalRecordPersisted => none
  | .checkpointWrite => none
  | .programSequenceCeiling _ _ => none
  | .gcRun => none
  | .fold _ => none
  | .scrub => none
  | .ageClockStep => none
  | .hmbMapLoadDone => none
  | .linePresent _ => none
  | .lineLoss => none
  | .lineOvervoltage => none
  | .powerUpStep _ => none
  | .pgoodTimeout _ => none
  | .powerUpRetry => none
  | .referenceSettled => none
  | .bootSequence _ => none
  | .pgoodLost _ => none
  | .bankTestStart _ => none
  | .pwrTestNow w => w
  | .bankTestCharged _ => none
  | .bankTestChargeTimeout => none
  | .bankTestV1Sample _ => none
  | .bankTestEnd _ _ => none
  | .creditRecompute _ => none
  | .drainComplete => none
  | .bankBelowMinimum => none
  | .bankBelowIslandMinimum => none
  | .crystalStable => none
  | .temperatureSample _ _ _ => none
  | .shockInterrupt _ _ _ => none
  | .compositeTemperatureSample _ => none
  | .thermalTrip => none
  | .bootImportCheck w => w
  | .bootImportSeal w => w
  | .bootImportRestart w => w
  | .bootImportAcceptLoss w => w
  | .norProgramComplete _ _ _ => none
  | .lockstepMismatch => none
  | .bufferUncorrectableError _ => none
  | .eventRecord _ _ _ => none
  | .eventRateSecondEnd => none
  | .eventJournalPersist => none
  | .percentageUsedCompute => none
  | .healthRecordWrite => none
  | .aonPorstNRise => none
  | .hmcFltRelease _ => none
  | .linkPowerStateChange _ => none
  | .uncorrectableAerError => none

namespace Machine

/-- The state that a step leaves, when it leaves one. -/
def State.after? (s : State) (i : Instr) : Option State :=
  match exec i s with
  | .next t => some t
  | .fault _ => none
  | .refused _ => none

/-- An admin command is taken: it is fetched from the admin queue as command `q`, which leaves `t` (R329, R331). -/
def State.Admin (s : State) (h : Hdr) (q : Nat) (t : State) : Prop := s.begin h = some (q, t) ∧ h.sq = 0

/-- An admin command is taken outside SAFE, where every one of them runs (R325). -/
def State.AdminRuns (s : State) (h : Hdr) (q : Nat) (t : State) : Prop := s.Admin h q t ∧ t.mag.st ≠ .safe

/-- An I/O command is taken outside SAFE, from a queue that is not being deleted (R325, R349). -/
def State.IoRuns (s : State) (h : Hdr) (q : Nat) (t : State) : Prop :=
  s.begin h = some (q, t) ∧ h.sq ≠ 0 ∧ t.mag.st ≠ .safe ∧ t.nv.held.any (fun x => x.wait = .deleteSq h.sq) = false

/-- A command of the take namespace is taken while that namespace is active (R333). -/
def State.TakeRuns (s : State) (h : Hdr) (q : Nat) (t : State) : Prop := s.IoRuns h q t ∧ t.nv.css ≠ 0

/-- Anti-rollback fuses are at most 32 (R440, R441). -/
def State.FusesLegal (s : State) : Prop := s.nor.fuses ≤ 32

/-- The parameter space is in canonical form: keys strictly rising in every layer, so that equal values are equal data. -/
def State.ParamsRising (s : State) : Prop :=
  NMap.rising s.params = true ∧ NMap.rising s.staged = true ∧ NMap.rising s.pend = true ∧ NMap.rising s.wrote = true ∧ NMap.rising s.presets = true

/-- The FIFO pointers are in queue order: L ≤ M ≤ P ≤ W, as words behind L (chapter "Stream FIFOs", before R108); on every FIFO but 66 a read frees
its word, so that P stands at L. -/
def State.FifosOrdered (s : State) : Prop := ∀ e ∈ s.fifos, e.2.m ≤ e.2.p ∧ e.2.p ≤ e.2.words.length ∧ (e.1 ≠ 66 → e.2.p = 0)

/-- The buffer that the cluster cache serves is in canonical form: line numbers strictly rising, no line of zeros listed. -/
def State.BufferCanonical (s : State) : Prop := NMap.wf zeroLine s.cache.mem = true

/-- Staged values are held in an owner session only (R474, R480). -/
def State.StagedInSession (s : State) : Prop := s.keys.session = false → s.staged = []

end Machine

end Sys2Proof
end

