-- ==== Sys2Proof/Certificates/Slice0/Obligations.lean ====
section
/-! DEFINITION. The statements for the provers. A statement that a command completes has as its conclusion that exec answers a next state, and which. -/

open Sys2Proof Sys2Proof.Machine

/-- For every command c and every state whose queue holds c in front of cs, step is exec of c on the state with the queue cs. The queue is the model's own
(log 1). (12_host_interface.md) -/
def Obligations.StepTakesFront : Prop :=
  ∀ (c : Instr) (cs : List Instr) (s : State), s.pending = c :: cs → step s = exec c { s with pending := cs }

/-- With nothing waiting, step answers the next state, in which the real-time clock has advanced by one tick of 1/32,768 s when Chervil has power, and the
take namespace, the Carousel, the compute cluster and its cache are as before; so are the FIFOs unless a lockout ends in this tick, whose key record
is then written. That an empty queue is a tick is the model's choice (log 1). (15_power_holdup_chervil.md) -/
def Obligations.IdleStepIsATick : Prop :=
  ∀ s : State, s.pending = [] → ∃ t, step s = .next t ∧ t.pw.rtc = (if s.pw.aon then s.pw.rtc + 1 else s.pw.rtc) ∧ t.pending = [] ∧ t.sp = s.sp
    ∧ t.car = s.car ∧ t.cache = s.cache ∧ t.comp = s.comp ∧ (s.keys.lockout ≠ 1 → t.fifos = s.fifos)

/-- For every command and every state exec answers a next state: the block never stops with a fault or a refusal. A command the device refuses completes
with a status, which is a next state. (12_host_interface.md, 18_faults_and_guarantees.md) -/
def Obligations.NoCommandStops : Prop :=
  ∀ (i : Instr) (s : State), ∃ t, exec i s = .next t

/-- For every command and every state, the state that exec leaves has the same waiting commands. The queue is the model's own (log 1).
(12_host_interface.md) -/
def Obligations.CommandsLeaveTheQueue : Prop :=
  ∀ (i : Instr) (s t : State), exec i s = .next t → t.pending = s.pending

/-- Every command but BOOT_SEQUENCE leaves the number of blown fuses as it was. (16_startup_and_profile.md) -/
def Obligations.FusesBlownOnlyAtBoot : Prop :=
  ∀ (i : Instr) (s t : State), (∀ env, i ≠ .bootSequence env) → exec i s = .next t → t.nor.fuses = s.nor.fuses

/-- For every state, a step that answers a next state leaves at least as many anti-rollback fuses blown as before. (16_startup_and_profile.md) -/
def Obligations.FusesNeverFall : Prop :=
  ∀ s t : State, step s = .next t → s.nor.fuses ≤ t.nor.fuses

/-- If at most 32 anti-rollback fuses are blown, which is the highest security level a package can have, so it is after every step that answers a next
state. (16_startup_and_profile.md) -/
def Obligations.FusesStayLegal : Prop :=
  ∀ s t : State, s.FusesLegal → step s = .next t → t.FusesLegal

/-- At State.reset the fuses are legal, every layer of the parameter space and the buffer are in canonical form, the FIFO pointers are in order, nothing
waits in the queue, and no value is staged. (16_startup_and_profile.md, 19_parameter_space.md) -/
def Obligations.ResetMeetsInvariants : Prop :=
  State.reset.FusesLegal ∧ State.reset.ParamsRising ∧ State.reset.BufferCanonical ∧ State.reset.FifosOrdered ∧ State.reset.StagedInSession ∧ State.reset.pending = []

/-- At State.reset CC.EN, CSTS.RDY, CC.SHN, CC.AMS and CC.CSS are 0, no queue exists, no command is held, and no Asynchronous Event Request is
outstanding. (12_host_interface.md) -/
def Obligations.ResetLeavesControllerInResetState : Prop :=
  let n := State.reset.nv
  n.en = false ∧ n.rdy = false ∧ n.shn = 0 ∧ n.ams = 0 ∧ n.css = 0 ∧ n.sqs = [] ∧ n.cqs = [] ∧ n.held = []

/-- A taken Create I/O Completion Queue with a free identifier from 1 to 1,024, a size of 2 to 4,096 entries, contiguous memory and an allowed vector
makes that queue and completes with success; so does a Create I/O Submission Queue that names an existing completion queue. A Delete I/O Completion
Queue of a queue that no submission queue uses removes it. A Delete I/O Submission Queue drops the queue and its command waits until each held command
of it has completed. An Abort completes with bit 0 of Dword 0 set, the abort not done, while fewer than four wait to be posted. (12_host_interface.md) -/
def Obligations.QueueCommandsComplete : Prop :=
  ∀ (s t : State) (h : Hdr) (q : Nat), s.AdminRuns h q t →
  (∀ qid size vector ien, 1 ≤ qid → qid ≤ 1024 → NMap.find? t.nv.cqs qid = none → 1 ≤ size → size ≤ 4095 → vector ≤ 2047 →
    (ien = true → t.pn pEVT_MSIX_VEC ≠ 0 → vector ≠ t.pn pEVT_MSIX_VEC) →
    exec (.createIoCompletionQueue h qid size vector ien true) s = .next (((t.modNv (fun n =>
      { n with cqs := NMap.put n.cqs qid { size := size + 1, head := 0, tail := 0, vector, ien, entries := [] } })).done q stOk).goOn))
  ∧ (∀ qid size prio cqid, 1 ≤ qid → qid ≤ 1024 → NMap.find? t.nv.sqs qid = none → cqid ≠ 0 → (NMap.find? t.nv.cqs cqid).isSome = true →
    1 ≤ size → size ≤ 4095 →
    exec (.createIoSubmissionQueue h qid size prio cqid true) s = .next (((t.modNv (fun n =>
      { n with sqs := NMap.put n.sqs qid { size := size + 1, cq := cqid, cls := prio, head := 0, tail := 0, frozen := false } })).done q stOk).goOn))
  ∧ (∀ qid, qid ≠ 0 → (NMap.find? t.nv.cqs qid).isSome = true → t.nv.sqs.any (fun e => e.2.cq = qid) = false →
    exec (.deleteIoCompletionQueue h qid) s = .next (((t.modNv (fun n => { n with cqs := NMap.del n.cqs qid })).done q stOk).goOn))
  ∧ (∀ qid, qid ≠ 0 → (NMap.find? t.nv.sqs qid).isSome = true →
    exec (.deleteIoSubmissionQueue h qid) s = .next ((((t.dropSq qid).dropUnwanted).modNv (fun n => n.setWait q (.deleteSq qid))).goOn))
  ∧ (∀ sqid cid, t.nv.held.countP Held.isAborting < 4 →
    exec (.abort h sqid cid) s = .next (((t.complete q stOk 1 0 []).modNv (fun n => { n with held := n.held.map (Held.toAborting q) })).goOn))

/-- A taken Asynchronous Event Request completes at once with the oldest waiting event, which is then masked until its log is read; with no event waiting
and fewer than 16 requests outstanding it is held. (12_host_interface.md) -/
def Obligations.AsyncEventRequestCompletes : Prop :=
  ∀ (s t : State) (h : Hdr) (q : Nat), s.AdminRuns h q t →
  (∀ ty info log rest, t.nv.asyncQ = (ty, info, log) :: rest →
    exec (.asynchronousEventRequest h) s = .next (((t.modNv (fun n =>
      { n with asyncQ := rest, masked := (256 * ty + info) :: n.masked })).complete q stOk (ty + 256 * info + 65536 * log) 0 []).goOn))
  ∧ (t.nv.asyncQ = [] → t.nv.held.countP (fun x => x.wait = .aer) < 16 →
    exec (.asynchronousEventRequest h) s = .next ((t.modNv (fun n => n.setWait q .aer)).goOn))

/-- Setting CC.EN while it is 0 makes the admin queues of the sizes written and takes over CC.AMS and CC.CSS. Clearing it clears CSTS.CFS and makes a
controller reset, as PERST_N and a Function Level Reset do: CC and CSTS are 0, no queue exists, no command is held, invocations and transport
activities that wait are dropped, the owner session ends, and EVT 0x601 tells the cause. CC.SHN 01b sets CSTS.SHST to 01b, raises EVT 0x602 with cause
1 and writes what is acknowledged to the Carousel. CC.SHN 10b sets CSTS.SHST to 10b at once and abandons started commands. (12_host_interface.md) -/
def Obligations.ControllerRegistersAct : Prop :=
  ∀ s : State, s.mag.st.alive = true →
  (∀ ams css asqs acqs, s.nv.en = false → s.mag.st ≠ .drain →
    exec (.ccEnSet ams css asqs acqs) s = .next (s.modNv (fun n =>
      { n with
        en := true, ams, css, rdy := s.readyNow
        sqs := NMap.put n.sqs 0 { size := asqs + 1, cq := 0, cls := 0, head := 0, tail := 0, frozen := false }
        cqs := NMap.put n.cqs 0 { size := acqs + 1, head := 0, tail := 0, vector := 0, ien := true, entries := [] } })))
  ∧ (∀ (cause : Nat) (c : Instr) (t u : State), (c = .ccEnClear ∧ cause = 1 ∧ s.nv.en = true ∧ t = s.modNv (fun n => { n with cfs := false }))
        ∨ (c = .perstNAssert ∧ cause = 2 ∧ t = s) ∨ (c = .functionLevelReset ∧ cause = 3 ∧ t = s) →
      u = ((((((t.modNv (fun n =>
        { n with
          en := false
          ams := 0
          css := 0
          shn := 0
          shst := 0
          rdy := false
          pp := false
          sqs := []
          cqs := []
          held := []
          rr := []
          wrr := (1, 0)
          writes := []
          masked := []
          asyncQ := []
          fwBuf := [] })).closeOpenZones.dropInvocations).modCar (fun c => { c with hmb := 0 })).endSession).raise 0x601 cause []).dropTransport).dropUnwanted →
    (u.nv.fwMarked = false ∨ u.moves = true → exec c s = .next u.goOn)
    ∧ (u.nv.fwMarked = true → u.moves = false → exec c s = .next (u.activateFw false).goOn))
  ∧ (s.nv.en = true → s.nv.shn = 0 → exec .shutdownNormal s = .next ((((s.modNv (fun n => { n with shn := 1, shst := 1 })).raise 0x602 1 []).flushWhere
      (fun _ w => w.acked)).goOn))
  ∧ (s.nv.en = true → s.nv.shst ≠ 2 → exec .shutdownAbrupt s = .next (((((s.modNv (fun n =>
      { n with shn := 2, shst := 2, held := n.held.filter (fun h => h.wait = .aer), writes := [] })).closeOpenZones.dropInvocations).raise 0x602 2
        []).dropUnwanted).goOn))

/-- With Ringmaster running, a link trained at an allowed rate is recorded and comes up in L0 with WAKE_N released, EVT 0x600 cause 1 following when it is
below x4 at 16 GT/s. A requested link-down only takes the link away; an unrequested one raises EVT 0x600 cause 2 and resets the controller. A power
state of an existing link is taken over. An uncorrectable AER error raises EVT 0x600 cause 3. (12_host_interface.md) -/
def Obligations.LinkCommandsAct : Prop :=
  ∀ s : State, s.mag.st.alive = true →
  (∀ rate width flit, rate ≤ s.pn pHIF_LINK_MAX → 4 ≤ rate → 4 ≤ width →
    exec (.linkTrained rate width flit) s = .next (s.modNv (fun n => { n with link := some (rate, width, flit), linkPower := 0, wake := false })))
  ∧ (∀ rate width flit, rate ≤ s.pn pHIF_LINK_MAX → (rate < 4 ∨ width < 4) →
    exec (.linkTrained rate width flit) s =
      .next ((s.modNv (fun n => { n with link := some (rate, width, flit), linkPower := 0, wake := false })).raise 0x600 1 []))
  ∧ (s.nv.link.isSome = true → exec (.linkDown true) s = .next (s.modNv (fun n => { n with link := none })))
  ∧ (s.nv.link.isSome = true →
    exec (.linkDown false) s = .next (((((s.modNv (fun n => { n with link := none })).raise 0x600 2 []).controllerReset 4)).goOn))
  ∧ (∀ p, p ≤ 4 → s.nv.link.isSome = true →
    exec (.linkPowerStateChange p) s = .next (s.modNv (fun n => { n with linkPower := p, wake := n.wake && p = 4 })))
  ∧ (exec .uncorrectableAerError s = .next (s.raise 0x600 3 []))

/-- With the controller ready, a submission doorbell that adds no more entries than fit moves the tail to its value; a completion doorbell that releases
no more entries than were posted takes them away and lets waiting completions be posted. A fetch takes the entry that arbitration chooses and holds
it. (12_host_interface.md) -/
def Obligations.DoorbellsAndFetch : Prop :=
  ∀ s : State, s.nv.rdy = true →
  (∀ qid value (x : Sq), NMap.find? s.nv.sqs qid = some x → value < x.size → x.waiting + (value + x.size - x.tail) % x.size < x.size →
    exec (.sqTailDoorbell qid value) s = .next (s.modNv (fun n => { n with sqs := NMap.put n.sqs qid { x with tail := value } })))
  ∧ (∀ qid value (c : Cq), NMap.find? s.nv.cqs qid = some c → value < c.size → (value + c.size - c.head) % c.size ≤ c.entries.length →
    exec (.cqHeadDoorbell qid value) s = .next (((s.modNv (fun n =>
      { n with cqs := NMap.put n.cqs qid { c with head := value, entries := c.entries.drop ((value + c.size - c.head) % c.size) } })).postWaiting
        qid).goOn))
  ∧ (∀ qid n (x : Sq), s.arbitrate = some (qid, n) → NMap.find? n.sqs qid = some x →
    exec .commandFetch s = .next (({ s with nv := n }).fetchFrom qid x))

/-- A Read of the take namespace that its checks let through is held and served as its LBAs come in. On a sidecar that may be written and is not C16,
within its LBAs and 2 MiB, a Write without data at hand is accepted and waits among the writes; a Read none of whose LBAs is unreadable counts and
returns their bytes, zeros for unmapped ones; Write Zeroes and a Dataset Management that deallocates drop each LBA range, the last at most 256 of
them. A Dataset Management that does not deallocate completes with success and changes nothing. To the take namespace a Write or Zone Append goes
through the checks there, its 0's based count turned into a number of LBAs. (12_host_interface.md, 11_carousel.md) -/
def Obligations.ReadsAndWritesComplete : Prop :=
  ∀ (s t : State) (h : Hdr) (q : Nat),
  (s.TakeRuns h q t → ∀ slba nlb fua cdw2 cdw3 data limited,
    exec (.write h 1 slba nlb fua cdw2 cdw3 data) s = .next ((t.takeWriteCmd q false slba (nlb + 1) fua cdw2 cdw3 data).goOn)
    ∧ exec (.zoneAppend h 1 slba nlb fua cdw2 cdw3 data) s = .next ((t.takeWriteCmd q true slba (nlb + 1) fua cdw2 cdw3 data).goOn)
    ∧ (t.readCheck slba (nlb + 1) = none →
      exec (.read h 1 slba nlb limited) s = .next ((t.modNv (fun v => v.setWait q (.read slba (nlb + 1) limited))).readAll.goOn)))
  ∧ (s.IoRuns h q t → t.pn pCSL_CONFIG ≠ 16 → ∀ slba nlb limited, nlb < 512 → slba + (nlb + 1) ≤ t.sideLbas →
    (((lbaList slba (nlb + 1)).map t.sideLba).contains .unreadable = false → exec (.read h 2 slba nlb limited) s =
      .next (((t.modNv (fun v => { v with readCmds := v.readCmds + 1, unitsRead := v.unitsRead + 8 * (nlb + 1) })).complete q stOk 0 0
        (((lbaList slba (nlb + 1)).map t.sideLba).flatMap (fun r => match r with | .data b => fitBytes 4096 b | _ => zeroBytes 4096))).goOn))
    ∧ (t.car.readOnly = false →
      (∀ fua cdw2 cdw3, exec (.write h 2 slba nlb fua cdw2 cdw3 none) s = .next ((t.modNv (fun n => { n.setWait q .write with
          writes := n.writes ++ [{ seq := q, nsid := 2, slba, nlb := nlb + 1, fua, append := false, timecode := none, moved := false, app := 0 }] })).goOn))
      ∧ exec (.writeZeroes h 2 slba nlb) s = .next (((t.sideDrop slba (nlb + 1)).done q stOk).goOn)))
  ∧ (s.IoRuns h q t → t.pn pCSL_CONFIG ≠ 16 → t.car.readOnly = false → ∀ ranges : List (Nat × Nat),
    (ranges.take 256).foldl (fun m r => if r.2 = 0 then m else max m (r.1 + r.2)) 0 ≤ t.sideLbas →
    exec (.datasetManagement h 2 true ranges) s = .next ((((ranges.take 256).foldl (fun u r => u.sideDrop r.1 r.2) t).done q stOk).goOn))
  ∧ (s.IoRuns h q t → ∀ ranges, exec (.datasetManagement h 2 false ranges) s = .next ((t.done q stOk).goOn))

/-- A Write or Zone Append whose data has not come, taken to the take namespace where no Take Mark holds it and the checks of R335 find nothing, opens its
zone and waits among the accepted writes with its LBAs, FUA bit and timecode, a Zone Append at the place where the writes accepted before it end. When
data arrives for a held write that may be moved, the write is applied, per LBA; when the transfer fails, the command completes with Data Transfer
Error. A credit grant lets every write that may now be acknowledged complete; an expired credit wait writes what its write applied as flush extents.
(12_host_interface.md) -/
def Obligations.TakeWriteIsAccepted : Prop :=
  (∀ (s t : State) (h : Hdr) (q slba nlb : Nat) (fua append : Bool) (cdw2 cdw3 : Nat), s.TakeRuns h q t → t.behindMark q (zoneOf slba) = false →
    t.takeCheck append slba (nlb + 1) cdw2 cdw3 = none →
      exec (if append then .zoneAppend h 1 slba nlb fua cdw2 cdw3 none else .write h 1 slba nlb fua cdw2 cdw3 none) s =
        .next (((t.openZone (zoneOf slba) false).modNv (fun n => { n.setWait q .write with
          writes := n.writes ++ [{ seq := q, nsid := 1, slba := if append then 65536 * zoneOf slba + t.nextWp (zoneOf slba) else slba, nlb := nlb + 1, fua,
                                   append, timecode := timecodeOf cdw2 cdw3, moved := false, app := 0 }] })).goOn))
  ∧ (∀ (s : State) (sq cid : Nat) (x : Held) (w : WriteCmd), s.mag.st.alive = true → s.mag.st ≠ .drain →
  (s.nv.held.find? (fun h => h.sq = sq && h.cid = some cid && h.wait = .write) = some x → s.nv.writes.find? (fun w => w.seq = x.seq) = some w →
    s.mayMove w = true →
    (∀ d, exec (.writeDataTransfer sq cid (some d)) s = .next ((s.applyWrite w d).goOn))
    ∧ exec (.writeDataTransfer sq cid none) s = .next ((s.done x.seq stTransfer).goOn))
  ∧ exec .writeCreditGrant s = .next s.goOn
  ∧ exec .creditWaitTimeout s = .next ((s.flushWhere (fun _ v => !v.acked && s.nv.writes.any (fun y =>
      y.nsid = 1 && y.moved && !y.fua && y.app = v.app))).goOn))

/-- On a cartridge that may be written, a Zone Open of an openable zone opens it explicitly; a Close closes an open zone; a Finish makes an Empty or
active zone Full; a Reset closes a zone in which nothing has been written; each then completes with success, and so does Reset of all such zones. An
Offline action on the sidecar namespace is an invalid opcode, and on the take namespace an invalid field. A Zone Management Receive of action 0 with a
state code up to 7 and an LBA of the namespace returns the report. (12_host_interface.md) -/
def Obligations.ZoneCommandsComplete : Prop :=
  ∀ (s t : State) (h : Hdr) (q : Nat), s.TakeRuns h q t →
  (t.takeProtected = false → ∀ slba, slba < t.takeLbas → slba % 65536 = 0 →
    ((t.zone (zoneOf slba)).st = .closed ∨ (t.zone (zoneOf slba)).st = .empty → t.openCheck (zoneOf slba) = none →
      exec (.zoneOpen h 1 slba false) s = .next (((t.openZone (zoneOf slba) true).done q stOk).goOn))
    ∧ ((t.zone (zoneOf slba)).st.isOpen = true → exec (.zoneClose h 1 slba false) s = .next (((t.closeZone (zoneOf slba)).done q stOk).goOn))
    ∧ ((t.zone (zoneOf slba)).st = .empty ∨ (t.zone (zoneOf slba)).st.isActive = true →
      exec (.zoneFinish h 1 slba false) s = .next (((t.fullZone (zoneOf slba) false).done q stOk).goOn))
    ∧ ((t.zone (zoneOf slba)).st.isActive = true → (t.zone (zoneOf slba)).wp = 0 →
      exec (.zoneReset h 1 slba) s = .next (((t.closeZone (zoneOf slba)).done q stOk).goOn)))
  ∧ (t.takeProtected = false → exec (.zoneResetAll h 1) s =
      .next ((((t.zonesWhere (fun x => x.st.isActive && x.wp = 0)).foldl (fun u z => u.closeZone z) t).done q stOk).goOn))
  ∧ (∀ slba, exec (.zoneOffline h 1 slba) s = .next ((t.done q stField).goOn) ∧ exec (.zoneOffline h 2 slba) s = .next ((t.done q stOpcode).goOn))
  ∧ (∀ slba dwords zrasf part, zrasf ≤ 7 → slba < t.takeLbas → exec (.zoneManagementReceive h 1 slba dwords 0 zrasf part) s =
      .next ((t.complete q stOk 0 0 (t.reportZones (zoneOf slba) (4 * (dwords + 1)) zrasf part)).goOn))

/-- A taken Flush of namespace 1, 2 or both is held until everything applied before it has persisted. A Spool Commit closes every open record and is held
until everything applied before it is spool-committed. A Take Mark in camera context is held until the writes before it have been applied.
(12_host_interface.md) -/
def Obligations.FlushCommandsWait : Prop :=
  ∀ (s t : State) (h : Hdr) (q : Nat), s.TakeRuns h q t →
  (∀ nsid, nsid = 1 ∨ nsid = 2 ∨ nsid = 0xFFFFFFFF →
    exec (.flush h nsid) s = .next ((t.modNv (fun v => v.setWait q (.flush (nsid != 2) (nsid != 1) t.nv.applied t.openApps))).goOn))
  ∧ (exec (.spoolCommit h 1) s = .next (((((t.sp.recs.filter (fun r => r.closed.isNone)).map (fun r => r.zone)).foldl (fun u z => u.closeRec z false) t).modNv
      (fun v => v.setWait q (.spoolCommit t.nv.applied t.openApps))).goOn))
  ∧ (t.mag.ctx = .camera → exec (.takeMark h 1) s = .next ((t.modNv (fun v => v.setWait q .takeMark)).goOn))

/-- A taken Identify of a structure the device has returns that structure. A Get Log Page of a log the device has, at an allowed offset, returns its bytes
from there, padded with zeros to the length asked for, and clears what reading it clears unless Retain Asynchronous Event is set. In an owner session
a Trace Read of a frozen trace returns the samples asked for. An opcode the device does not have completes with Invalid Command Opcode; an unlisted
form of an opcode it has, with Invalid Field. All but Trace Read run in SAFE too. (12_host_interface.md) -/
def Obligations.ReportsComplete : Prop :=
  ∀ (s t : State) (h : Hdr) (q : Nat), s.Admin h q t →
  (∀ cns nsid csi b, t.identify cns nsid csi = .inl b → exec (.identify h cns nsid csi) s = .next ((t.complete q stOk 0 0 b).goOn))
  ∧ (∀ lid off dwords rae b, lid ≠ 2 → t.logPage lid = some b → off % 4 = 0 → (lid = 0xC2 → off % 32 = 0) →
    exec (.getLogPage h lid off dwords rae) s =
      .next (((if rae then t else t.logRead lid).complete q stOk 0 0 (fitBytes (4 * (dwords + 1)) (b.drop off))).goOn))
  ∧ (t.mag.st ≠ .safe → t.keys.session = true → t.ctl.trace.st = 2 → t.flows 92 = true → ∀ d10 first src, (d10 + 1) % 16 = 0 → d10 + 1 ≤ 524288 → src % 256 = 0 →
    first + (d10 + 1) / 16 ≤ 32768 →
    exec (.traceRead h d10 first src) s = .next (((t.pass 92 (8 * ((d10 + 1) / 16)) 8).complete q stOk 0 0 (fitBytes (64 * ((d10 + 1) / 16))
      (((t.ctl.trace.samples.reverse.drop first).take ((d10 + 1) / 16)).flatMap (fun ws => (List.range 8).flatMap (fun i => leBytes 8 (ws.getD i 0)))))).goOn))
  ∧ (t.nv.held.any (fun x => x.wait = .deleteSq h.sq) = false → ∀ op nsid d10,
    ((if h.sq = 0 then adminOpcodes else ioOpcodes).contains (op % 256) = false →
        exec (.unsupportedCommand h op nsid d10) s = .next ((t.done q stOpcode).goOn))
      ∧ ((if h.sq = 0 then adminOpcodes else ioOpcodes).contains (op % 256) = true →
        exec (.unsupportedCommand h op nsid d10) s = .next ((t.done q stField).goOn)))

/-- A taken Firmware Image Download with a Dword-aligned offset inside 4 MiB lays its bytes into the image. A Commit that stores (with or without marking)
to slot 2 waits while both NOR copies of a valid package are written; of any other package it raises EVT 0x604 cause 2 and completes with Invalid
Firmware Image. One that marks a filled slot 2 sets the mark and completes with the status that asks for a reset. One that activates a slot on a still
tape announces it, pauses fetching and waits. They run in SAFE too. (12_host_interface.md, 16_startup_and_profile.md) -/
def Obligations.FirmwareCommandsComplete : Prop :=
  ∀ (s t : State) (h : Hdr) (q : Nat), s.Admin h q t →
  (∀ off data, off % 4 = 0 → off + data.length ≤ 2 ^ 22 → exec (.firmwareImageDownload h off data) s = .next (((t.modNv (fun n =>
      { n with fwBuf := fitBytes (max n.fwBuf.length (off + data.length)) (overlay (fitBytes (max n.fwBuf.length off) n.fwBuf) off data) })).done
        q stOk).goOn))
  ∧ (∀ slot, commitSlot slot = 2 → t.nor.dead = false →
    exec (.firmwareCommitStore h slot) s =
      .next ((if packageOk t.nor.fuses t.package then
          (t.norWrite 5 t.package (.patch q stOk.sct stOk.sc stOk.dnr)).modNv (fun n => n.setWait q .keyRecord)
        else (t.raise 0x604 2 []).done q stFwImage).goOn)
    ∧ exec (.firmwareCommitStoreAndMark h slot) s =
      .next ((if packageOk t.nor.fuses t.package then
          (t.norWrite 5 t.package (.patch q stFwReset.sct stFwReset.sc stFwReset.dnr)).modNv (fun n => n.setWait q .keyRecord)
        else (t.raise 0x604 2 []).done q stFwImage).goOn))
  ∧ (∀ slot, commitSlot slot = 2 → t.nv.fwSlot2.isSome = true →
    exec (.firmwareCommitMark h slot) s = .next (((t.modNv (fun n => { n with fwMarked := true })).done q stFwReset).goOn))
  ∧ (∀ slot, slot ≤ 2 → (commitSlot slot = 2 → t.nv.fwSlot2.isSome = true) → t.moves = false →
    exec (.firmwareCommitActivate h slot) s =
      .next (((t.asyncEvent 2 1 0x03).modNv (fun n => { (n.setWait q (.activate (decide (slot = 1)))) with pp := true })).goOn))

/-- A taken Format of the sidecar namespace with LBA format 0, while the Carousel is not read-only, unmaps it and completes with success; with secure
erase setting 1 every die block that held a unit of it is erased too. In SERVICE a Format of an active take namespace with secure erase setting 2,
while no rotation runs and the TRNG is healthy, completes what waits on the namespace with Namespace Not Ready and starts the erase of the cartridge's
keys with a new master key. (12_host_interface.md, 10_cipher_and_keys.md) -/
def Obligations.FormatsAct : Prop :=
  ∀ (s t : State) (h : Hdr) (q : Nat), s.AdminRuns h q t →
  (t.car.readOnly = false →
    exec (.formatNvm h 2 0 0) s = .next ((t.sideClear.done q stOk).goOn)
    ∧ exec (.formatNvm h 2 1 0) s = .next (((t.sideBlockList.foldl (fun u e => u.eraseBlock e.1 e.2) t.sideClear).done q stOk).goOn))
  ∧ (t.takeActive = true → t.mag.st = .service → t.noRotation = false →
    exec (.formatSecureEraseTake h 1 0) s = .next ((((t.nv.held.foldl (fun u x => if t.onTake x then u.done x.seq stNotReady else u) t).modNv
      (fun n => n.setWait q .keyRecord)).startRotation (some q) none true none).goOn))

/-- A taken Parameter Read of a listed parameter, allowed at the caller's level and inside the array, returns the elements in the view asked for: view 0
the values in effect, view 1 of an RW-S parameter the staged ones, view 2 their state, and view 3 the 32-byte descriptor whatever the index. It runs
in SAFE too. (19_parameter_space.md) -/
def Obligations.ParameterReadReturnsElements : Prop :=
  ∀ (s t : State) (h : Hdr) (q pid view first count : Nat) (d : PDesc), s.Admin h q t → pid < 2 ^ 16 → view < 4 → pdesc? pid = some d →
    (d.level = 1 → t.keys.session = true) →
    (view = 3 → exec (.parameterRead h (pid + 2 ^ 16 * view) first count) s = .next ((t.complete q stOk 0 0 d.bytes).goOn))
    ∧ (view ≠ 3 → d.badRange first count = false → (view = 1 → d.access = .rws) →
      exec (.parameterRead h (pid + 2 ^ 16 * view) first count) s = .next ((t.complete q stOk 0 0 ((List.range count).flatMap (fun k =>
        if view = 0 then leBytes d.width (t.viewElem d (first + k))
        else if view = 1 then leBytes d.width (t.stagedElem d (first + k))
        else leBytes 4 (t.stateElem d (first + k))))).goOn))

/-- In an owner session a taken Parameter Commit of operation 0 whose candidates all pass clears the staged values, makes them pending and completes with
the number of groups in Dword 0; operation 1 and the discard drop every staged value and complete with success. Without a session the command
completes with Access Denied. (19_parameter_space.md) -/
def Obligations.ParameterCommitActs : Prop :=
  ∀ (s t : State) (h : Hdr) (q : Nat), s.AdminRuns h q t →
  (t.keys.session = true → t.commitCheck t.staged = none → ∃ u : State, exec (.parameterCommit h 0) s =
      .next ((u.complete q stOk (groupsOf t.staged).length 0 []).goOn) ∧ u.staged = [] ∧ u.nv = t.nv)
  ∧ (t.keys.session = true → exec (.parameterCommit h 1) s = .next ((({ t with staged := [] } : State).done q stOk).goOn)
      ∧ exec (.parameterDiscard h) s = .next ((({ t with staged := [] } : State).done q stOk).goOn))
  ∧ (t.keys.session = false → exec (.parameterCommit h 0) s = .next ((t.done q stDenied).goOn)
      ∧ exec (.parameterDiscard h) s = .next ((t.done q stDenied).goOn))

/-- A taken Parameter Write is checked whole: when an element fails it completes with that check's status and the index of the first failing element in
Dword 0, and no element changes; when none fails every element is written and it completes with success. (19_parameter_space.md) -/
def Obligations.ParameterWriteIsAllOrNothing : Prop :=
  ∀ (s t : State) (h : Hdr) (q pid first count : Nat) (data : Bytes) (d : PDesc), s.AdminRuns h q t → pid < 2 ^ 16 → pdesc? pid = some d →
    pid ≠ pBOOT_IMP_CTL → count ≤ 2 ^ 19 →
    (∀ st i, t.writeCheck pid first (elemsOf d.width count data) = some (st, i) →
      exec (.parameterWrite h pid first count data) s = .next ((t.complete q st i 0 []).goOn))
    ∧ (t.writeCheck pid first (elemsOf d.width count data) = none →
      exec (.parameterWrite h pid first count data) s = .next (((((elemsOf d.width count data).zipIdx.foldl
        (fun u x => u.writeElem d (first + x.2) x.1) t).done q stOk)).goOn))

/-- A taken Set Features that is not to be saved and whose values pass its checks does what its feature says and completes with success: the values of
features 01h, 08h and 0Bh are held without their reserved bits; feature 07h answers with the number of queues; the volatile write cache is on or off;
a host memory buffer of sufficient size starts the load of the map in configuration 16, and disabling it gives it back; with an owner session the
timestamp sets the clock; the operating context becomes camera, dock or service; the fields of the vendor features C0h, C1h, C2h, C4h and C5h take the
values written. One to be saved completes with Feature Identifier Not Saveable. Get Features returns the current or default value, and with selection
3 that the feature is changeable. (12_host_interface.md) -/
def Obligations.SetFeaturesComplete : Prop :=
  ∀ (s t : State) (h : Hdr) (q : Nat), s.AdminRuns h q t →
  (∀ fid d11 d12 data, fid = 0x01 ∨ fid = 0x08 ∨ fid = 0x0B → exec (.setFeatures h fid false d11 d12 data) s =
      .next (((t.modNv (fun n => { n with features := NMap.set 0 n.features fid (d11 &&& featureBits fid) })).done q stOk).goOn))
  ∧ (∀ d11 d12 data, exec (.setFeatures h 0x07 false d11 d12 data) s = .next ((t.complete q stOk 0x03FF03FF 0 []).goOn))
  ∧ (∀ d11, exec (.setVolatileWriteCache h false d11) s =
      .next (((t.modNv (fun n => { n with vwc := decide (d11 % 2 = 1) })).done q stOk).goOn))
  ∧ (∀ d11 size, d11 % 2 = 1 → t.car.hmb = 0 → t.hmMin ≤ size → t.hmPre ≤ size → t.pn pCSL_CONFIG = 16 →
    exec (.setHostMemoryBuffer h false d11 size) s = .next (((t.modCar (fun c => { c with hmb := 1 })).done q stOk).goOn))
  ∧ (∀ d11 size, d11 % 2 = 0 → exec (.setHostMemoryBuffer h false d11 size) s =
      .next ((((t.modCar (fun c => { c with hmb := 0 })).done q stOk).runHmb).goOn))
  ∧ (∀ ms, t.keys.session = true → exec (.setTimestamp h false ms) s =
      .next (((t.modPw (fun p => { p with rtc := ms * 32768 / 1000, rtcOk := true })).done q stOk).goOn))
  ∧ (t.mag.st = .ready ∨ t.mag.st = .parked →
    exec (.setOperatingContext h false 0) s =
      .next ((((t.modMag (fun g => { g with ctx := .camera })).modSp (fun p => { p with vff := p.vff })).done q stOk).goOn)
    ∧ exec (.setOperatingContext h false 1) s =
      .next ((((t.modMag (fun g => { g with ctx := .dock })).modSp (fun p => { p with vff := 0 })).done q stOk).goOn)
    ∧ (t.keys.session = true → exec (.setOperatingContext h false 2) s =
      .next (((t.modMag (fun g => { g with st := .service, from_ := t.mag.st, ctx := .service })).done q stOk).goOn)))
  ∧ (∀ data v, v = leAt data 0 32 → t.vendorFits 0xC0 256 v = true → t.vendorBusy 0xC0 v = false → t.commitCheck (vendorStaged 0xC0 v) = none →
    exec (.setSpeedPolicy h false data) s = .next (((t.vendorWrite 0xC0 v).done q stOk).goOn))
  ∧ (∀ data v, v = leAt data 0 16 → t.vendorFits 0xC4 128 v = true → t.vendorBusy 0xC4 v = false → t.commitCheck (vendorStaged 0xC4 v) = none →
    exec (.setRewritePolicy h false data) s = .next (((t.vendorWrite 0xC4 v).done q stOk).goOn))
  ∧ (∀ d11, t.vendorFits 0xC1 32 d11 = true → t.vendorBusy 0xC1 d11 = false → t.commitCheck [] = none →
    exec (.setAcknowledgeCreditPolicy h false d11) s =
      .next ((((t.noteWrite pHIF_CREDIT_LIMIT 0).setElem pHIF_CREDIT_LIMIT 0 (d11 % 2 ^ 16)).done q stOk).goOn))
  ∧ (∀ d11, t.vendorFits 0xC2 32 d11 = true → t.vendorBusy 0xC2 d11 = false → t.commitCheck [] = none →
    exec (.setCompressionPolicy h false d11) s =
      .next ((((((t.noteWrite pCMP_MODE 0).setElem pCMP_MODE 0 (d11 % 2 ^ 2)).noteWrite pCMP_ACTIVE 0).setElem pCMP_ACTIVE 0
        (d11 / 2 ^ 8 % 2 ^ 6)).done q stOk).goOn))
  ∧ (∀ d11, t.vendorFits 0xC5 32 d11 = true → t.vendorBusy 0xC5 d11 = false → t.commitCheck [] = none →
    exec (.setComputePolicy h false d11) s =
      .next ((((((t.noteWrite pCCL_CORES 0).setElem pCCL_CORES 0 (d11 % 2 ^ 5)).noteWrite pCCL_INST_MAX 0).setElem pCCL_INST_MAX 0
        (d11 / 2 ^ 8 % 2 ^ 9)).done q stOk).goOn))
  ∧ (∀ fid d11 d12 data, featureKnown fid = true → exec (.setFeatures h fid true d11 d12 data) s = .next ((t.done q stNotSaveable).goOn))
  ∧ (∀ fid d11, featureKnown fid = true → exec (.getFeatures h fid 3 d11) s = .next ((t.complete q stOk 4 0 []).goOn))
  ∧ (∀ fid sel d11 v, featureKnown fid = true → sel ≤ 2 → fid ≠ 0x0E → fid ≠ 0xC0 → fid ≠ 0xC4 → t.getDword fid d11 (decide (sel = 0)) = some v →
    exec (.getFeatures h fid sel d11) s = .next ((t.complete q stOk v 0 []).goOn))
  ∧ (∀ d11, exec (.getFeatures h 0x0E 0 d11) s = .next ((t.complete q stOk 0 0 t.timeData).goOn))

/-- With no lockout and a healthy TRNG a taken Owner Challenge ends the session, draws a new 32-byte nonce, counts the challenge and returns the challenge
block; during a lockout it completes with Access Denied and the seconds left. A query returns the block without a nonce. A response without an open
challenge is a Command Sequence Error; the right response to the open challenge opens a session with its device proof when no failure is recorded; a
wrong one counts as an authentication failure. The challenge is then used up. They run in SAFE too. (10_cipher_and_keys.md) -/
def Obligations.OwnerAuthentication : Prop :=
  ∀ (s t : State) (h : Hdr) (q : Nat), s.Admin h q t →
  (t.keys.lockout = 0 → t.keys.trngOk = true → ∃ u : State,
    u = ((t.drawn 1).endSession).modKeys (fun k => { k with challenges := (k.challenges + 1) % 2 ^ 32, challenge := some (t.trngBytes 32) })
    ∧ exec (.ownerChallenge h) s = .next ((u.complete q stOk 0 0 (u.challengeData (t.trngBytes 32) u.keys.challenges)).goOn))
  ∧ (t.keys.lockout ≠ 0 → exec (.ownerChallenge h) s = .next ((t.complete q stDenied t.lockoutSec 0 []).goOn))
  ∧ (t.keys.lockout = 0 → exec (.ownerChallengeQuery h) s = .next ((t.complete q stOk 0 0 (t.challengeData [] t.keys.proof.1)).goOn))
  ∧ (∀ data, t.keys.challenge = none → exec (.ownerResponse h data) s = .next ((t.done q stSequence).goOn))
  ∧ (∀ data nonce, t.keys.challenge = some nonce → t.krec.fails = 0 → t.keys.recDirty = false → t.claimed = true → leAt data 0x20 4 = t.keys.challenges →
    slice data 0x28 16 = cmac t.ownerKey (ownerMessage "UHOR" nonce (slice data 0 32) t.keys.challenges t.instNo) →
    exec (.ownerResponse h data) s = .next ((((t.modKeys (fun k => { k with challenge := none })).modKeys (fun k =>
      { k with session := true, proof := (t.keys.challenges, cmac t.ownerKey (ownerMessage "UHOD" (slice data 0 32) nonce t.keys.challenges t.instNo)) })).done
        q stOk).goOn))
  ∧ (∀ data nonce, t.keys.challenge = some nonce →
    (t.claimed = false ∨ leAt data 0x20 4 ≠ t.keys.challenges
      ∨ slice data 0x28 16 ≠ cmac t.ownerKey (ownerMessage "UHOR" nonce (slice data 0 32) t.keys.challenges t.instNo)) →
    exec (.ownerResponse h data) s = .next (((t.modKeys (fun k => { k with challenge := none })).authFail q).goOn))

/-- A challenge that expires is gone. A lockout that expires ends, and while Ringmaster runs outside DRAIN its length, when the key record holds one, is
cleared there by a write. The idle timeout ends an open session and drops what is staged. A failed health test of a healthy TRNG is fault class 0x0F:
the TRNG counts as unhealthy, the spell is counted up to 255, and EVT 0x7C2 tells a repetition (cause 1) from a proportion failure (cause 2); a passed
retest makes it healthy again. A key slot load of a media key that is in no slot puts it, unwrapped, into the slot chosen; one that does not unwrap
raises EVT 0x7C3 cause 2; a key in a slot already counts as used. (10_cipher_and_keys.md) -/
def Obligations.AuthenticationTimersAndTrng : Prop :=
  ∀ s : State,
  exec .challengeExpiry s = .next (s.modKeys (fun k => { k with challenge := none }))
  ∧ (s.keys.lockout ≠ 0 → ∀ t, t = s.modKeys (fun k => { k with lockout := 0 }) →
    (s.krec.lockLen = 0 → exec .lockoutExpiry s = .next t)
    ∧ (s.krec.lockLen ≠ 0 → s.mag.st.alive = true → s.mag.st ≠ .drain → s.nor.dead = false →
      ∀ u, u = t.modKeys (fun k => { k with krec := some { s.krec with lockLen := 0 } }) →
      exec .lockoutExpiry s = .next (u.norWrite 1 (u.keyImage .plain).bytes .plain)))
  ∧ (s.keys.session = true → exec .sessionIdleTimeout s =
      .next ({ s.modKeys (fun k => { k with session := false }) with staged := [] } : State).goOn)
  ∧ (s.keys.trngOk = true → ∀ p, exec (.trngHealthFailure true p) s =
      .next (((s.noteFault 0x0F).modKeys (fun k => { k with trngOk := false, spells := min 255 (k.spells + 1) })).raise 0x7C2 1 [])
    ∧ exec (.trngHealthFailure false true) s =
      .next (((s.noteFault 0x0F).modKeys (fun k => { k with trngOk := false, spells := min 255 (k.spells + 1) })).raise 0x7C2 2 []))
  ∧ exec (.trngRetest true) s = .next ((s.modKeys (fun k => { k with trngOk := true })).goOn)
  ∧ (∀ id i, s.slotOf id = some i → exec (.keySlotLoad id) s =
      .next (s.modKeys (fun k => { k with slots := NMap.modify k.slots i (fun x => { x with used := k.clock }), clock := k.clock + 1 })).goOn)
  ∧ (∀ id i m, s.slotOf id = none → NMap.find? s.keys.medias id = some m → s.freeXts = some i →
    (∀ key, s.mediaKey id = some key → exec (.keySlotLoad id) s =
      .next (s.modKeys (fun k => { k with slots := NMap.put k.slots i { key, id, used := k.clock }, clock := k.clock + 1 })).goOn)
    ∧ (s.mediaKey id = none → exec (.keySlotLoad id) s = .next (s.raise 0x7C3 2 []).goOn))

/-- An unclaimed device takes a Claim: the key record is written with the owner key wrapped under the root key; it runs in SAFE too. Outside SAFE, in an
owner session with a working NOR, a deposit whose key field unwraps under the owner key writes the key record with a new owner key, or with a new
escrow key and its label; the removal of the escrow key needs no key field. In SERVICE, while no rotation runs and the TRNG is healthy, an erase of a
closed take starts a rotation for it, with a new escrow key when one is given; and Recover and Adopt, with a cartridge loaded whose key block that
escrow key opens, puts its index in force, adds a MAC key of its own, journals it and completes; it completes with Capacity Exceeded when the block
holds 12 MAC keys, and with Invalid Field when no block opens. A key field that does not unwrap raises EVT 0x7C3 cause 4 and counts as an
authentication failure. (10_cipher_and_keys.md) -/
def Obligations.KeyDepositsAct : Prop :=
  ∀ (s t : State) (h : Hdr) (q : Nat),
  (s.Admin h q t → t.claimed = false → t.nor.dead = false → ∀ data act, act = .key (some q) { t.krec with owner := kwWrap kWrap (slice data 0x10 32) } .claim →
    exec (.keyDepositClaim h data) s = .next (((t.modNv (fun n => n.setWait q .keyRecord)).norWrite 1 (t.keyImage act).bytes act).goOn))
  ∧ (s.AdminRuns h q t → t.keys.session = true → ∀ data,
    (t.nor.dead = false → ∀ act, act = .key (some q) { t.krec with escrow := zeroBytes 48 } .noEscrow →
      exec (.keyDepositRemoveEscrowKey h data) s = .next (((t.norWrite 1 (t.keyImage act).bytes act).holdForRecord q).goOn))
    ∧ (∀ key act, kwUnwrap t.ownerKey (depositKey data) = some key → t.nor.dead = false →
      (act = .key (some q) { t.krec with owner := kwWrap kWrap key } .owner →
        exec (.keyDepositReplaceOwnerKey h data) s = .next (((t.norWrite 1 (t.keyImage act).bytes act).holdForRecord q).goOn))
      ∧ (act = .key (some q) { t.krec with escrow := escrowField data key } .escrow →
        exec (.keyDepositEscrowKey h data) s = .next (((t.norWrite 1 (t.keyImage act).bytes act).holdForRecord q).goOn)))
    ∧ (kwUnwrap t.ownerKey (depositKey data) = none → ∀ bad, bad = ((((t.raise 0x7C3 4 []).authFail q).holdForRecord q).goOn) →
      exec (.keyDepositReplaceOwnerKey h data) s = .next bad ∧ exec (.keyDepositEscrowKey h data) s = .next bad)
    ∧ (t.mag.st = .service → t.noRotation = false → ((NMap.find? t.sp.takes (leAt data 0x08 4)).map (fun x => x.closed)) = some true →
      (allZero (depositKey data) = true → exec (.keyDepositEraseTake h data) s =
        .next (((t.startRotation (some q) (some (leAt data 0x08 4)) false none).holdForRecord q).goOn))
      ∧ (∀ key, allZero (depositKey data) = false → kwUnwrap t.ownerKey (depositKey data) = some key → exec (.keyDepositEraseTake h data) s =
        .next (((t.startRotation (some q) (some (leAt data 0x08 4)) false (some (escrowField data key))).holdForRecord q).goOn)))
    ∧ (t.mag.st = .service → t.mag.unloaded = false → t.noRotation = false → ∀ key, kwUnwrap t.ownerKey (depositKey data) = some key →
      (t.escrowFails (slice data 0 8) key = 0 → ∀ num w c macs medias, t.escrowGen (slice data 0 8) key = some (num, w, c, macs, medias) →
        (macs.length < 12 → exec (.keyDepositRecoverAndAdopt h data) s =
          .next ((((((t.useGen num w c macs medias).newMacKey).journalCartridge).dueGen.done q stOk).holdForRecord q).goOn))
        ∧ (12 ≤ macs.length → exec (.keyDepositRecoverAndAdopt h data) s = .next (((t.done q stCapacity).holdForRecord q).goOn)))
      ∧ (∀ u, u = (List.range (t.escrowFails (slice data 0 8) key)).foldl (fun x _ => x.raise 0x7C3 3 []) t → u.escrowGen (slice data 0 8) key = none →
        exec (.keyDepositRecoverAndAdopt h data) s = .next (((u.done q stField).holdForRecord q).goOn))))

/-- A write to a FIFO of the device whose producer holds nothing stores the word with its sideband; a halted or a full back-pressure FIFO leaves it with
its producer; a full overrun FIFO ignores a packet that starts and counts it. A read takes the head word off a FIFO that has one readable, on FIFO 66
it stays behind P, and delivers the not-valid word when none is. On FIFO 66 an advance moves M past the next end mark, a rewind to the mark puts P on
M, a release of 1 to 64 words moves L past as many end marks, and a rewind to the release pointer puts M and P on L; an operation that cannot be is
refused with its sticky bit and EVT cause 3. A pointer mismatch resets the FIFO with its sticky bit, raises cause 2, halts it, and its role is
restored outside DRAIN; an error of an extended body in use does so with cause 4. A restart outside DRAIN lets a halted FIFO run again, and sticky
bits written are cleared; a host's Parameter Write of them that passes its checks acts and completes. (04_stream_fifos.md,
18_faults_and_guarantees.md) -/
def Obligations.FifoCommandsAct : Prop :=
  ∀ (s : State) (n : Nat),
  (n < 96 → ∀ payload last count w, w = fifoWord n payload last count →
    ((s.fifo n).held = [] → (s.fifo n).dropping = false → fifoStalls n (s.fifoDepth n) (s.fifo n) = false →
      fifoFull n (s.fifoDepth n) (s.fifo n) = false →
      exec (.fifoWrite n payload last count) s = .next (s.modFifo n (fun f => { f with
        words := f.words ++ [w], thr := if f.words.length = f.p && f.headRead = 0 then s.pni pSFQ_CT_THRESH n else f.thr
        peak := max f.peak (f.words ++ [w]).length, held := [] })))
    ∧ (fifoStalls n (s.fifoDepth n) (s.fifo n) = true →
      exec (.fifoWrite n payload last count) s = .next (s.modFifo n (fun f => { f with held := f.held ++ [w] })))
    ∧ (80 ≤ n → (s.fifo n).held = [] → (s.fifo n).dropping = false → (s.fifo n).halted = false → (s.fifo n).atStart = true →
      fifoFull n (s.fifoDepth n) (s.fifo n) = true → (s.fifo n).sticky % 2 = 1 →
      exec (.fifoWrite n payload last count) s = .next (s.modFifo n (fun f =>
        { f with dropping := !w.last, drops := min 65535 (f.drops + 1), sticky := f.sticky ||| 1, held := [] }))))
  ∧ (n < 96 → (s.fifo n).held = [] →
    (∀ w rest, n ≠ 66 → (s.fifo n).halted = false → fifoReadable n (s.fifo n) = true → (s.fifo n).words.drop (s.fifo n).p = w :: rest →
      exec (.fifoRead n) s = .next (s.modFifo n (fun f => { f with
        words := f.words.drop 1, lp := f.lp + 1, out := some w, headRead := if w.last then 0 else f.headRead + 1
        thr := if w.last then s.pni pSFQ_CT_THRESH n else f.thr, held := [] })))
    ∧ (fifoReadable n (s.fifo n) = false → exec (.fifoRead n) s = .next (s.modFifo n (fun f => { f with out := none, held := [] }))))
  ∧ ((s.fifo 66).held = [] →
    (∀ w rest, (s.fifo 66).halted = false → fifoReadable 66 (s.fifo 66) = true → (s.fifo 66).words.drop (s.fifo 66).p = w :: rest →
      exec (.fifoRead 66) s = .next (s.modFifo 66 (fun f => { f with
        p := f.p + 1, out := some w, headRead := if w.last then 0 else f.headRead + 1, held := [] })))
    ∧ (∀ j, (s.fifo 66).m ≠ (s.fifo 66).p → packetWords 1 (((s.fifo 66).words.drop (s.fifo 66).m).take ((s.fifo 66).p - (s.fifo 66).m)) = some j →
      exec .fifoAdvance s = .next (s.modFifo 66 (fun f => { f with m := f.m + j, held := [] })))
    ∧ ((s.fifo 66).m = (s.fifo 66).p → exec .fifoAdvance s =
      .next ((s.modFifo 66 (fun f => { f with sticky := f.sticky ||| 4, held := [] })).fifoEvent 66 3))
    ∧ exec .fifoRewindMark s = .next (s.modFifo 66 (fun f => { f with p := f.m, headRead := 0, held := [] }))
    ∧ (∀ k j, 1 ≤ k → k ≤ 64 → packetWords k ((s.fifo 66).words.take (s.fifo 66).m) = some j →
      exec (.fifoRelease k) s = .next (s.modFifo 66 (fun f =>
        { f with words := f.words.drop j, lp := f.lp + j, m := f.m - j, p := f.p - j, held := [] })))
    ∧ (∀ k, (k = 0 ∨ 64 < k ∨ packetWords k ((s.fifo 66).words.take (s.fifo 66).m) = none) → exec (.fifoRelease k) s =
      .next ((s.modFifo 66 (fun f => { f with sticky := f.sticky ||| 4, held := [] })).fifoEvent 66 3))
    ∧ exec .fifoRewindRelease s = .next (s.modFifo 66 (fun f => { f with p := 0, m := 0, headRead := 0, held := [] })))
  ∧ (n < 96 → s.mag.st.alive = true → ∀ f cause, (f = (fun x : Fifo => { x with
        lp := 0, words := [], m := 0, p := 0, headRead := 0, out := none, sticky := x.sticky &&& 14 ||| (if cause = 2 then 2 else 8) })) →
    ∀ t, t = (((s.noteFault 0x0A).modFifo n f).raise (0x400 + n) cause (leBytes 4 (s.fifo n).words.length)).modFifo n (fun x => { x with halted := true }) →
    (cause = 2 → (s.mag.st = .drain → exec (.fifoPointerMismatch n) s = .next t)
      ∧ (s.mag.st ≠ .drain → exec (.fifoPointerMismatch n) s = .next ((t.roleRestore n (s.fifo n).packets).goOn)))
    ∧ (cause = 4 → fifoExtended n = true → s.pni pSFQ_EXT_SIZE n ≠ 0 → (s.mag.st = .drain → exec (.fifoExtendedBodyError n) s = .next t)
      ∧ (s.mag.st ≠ .drain → exec (.fifoExtendedBodyError n) s = .next ((t.roleRestore n (s.fifo n).packets).goOn))))
  ∧ (n < 96 → (s.fifo n).halted = true → s.mag.st ≠ .drain → (s.fifo n).held = [] → exec (.sfqRestart none n) s =
      .next (((s.modFifo n (fun f => { f with halted := false, held := [] })).restarted n).goOn))
  ∧ (n < 96 → ∀ bits, exec (.sfqStickyClear none n bits) s =
      .next (s.modFifo n (fun f => { f with sticky := f.sticky &&& (15 - bits % 16), drops := if bits % 2 = 1 then 0 else f.drops })).goOn)
  ∧ (∀ h q t, n < 96 → s.AdminRuns h q t →
    (t.writeCheck pSFQ_RESTART n [1] = none → (t.fifo n).halted = false →
      exec (.sfqRestart (some h) n) s = .next (((t.noteWrite pSFQ_RESTART n).done q stOk).goOn))
    ∧ (∀ bits, t.writeCheck pSFQ_STICKY n [bits] = none → exec (.sfqStickyClear (some h) n bits) s = .next ((((t.noteWrite pSFQ_STICKY n).modFifo n (fun f =>
        { f with sticky := f.sticky &&& (15 - bits % 16), drops := if bits % 2 = 1 then 0 else f.drops })).done q stOk).goOn)))

/-- On a FIFO of the device other than the retaining FIFO 66 that holds no word, is at the start of a packet, is not halted, not dropping, not full and
whose producer holds nothing, a write of a last word followed by a read delivers exactly that word with its sideband and leaves the FIFO empty again.
No other FIFO and no other part of the state changes. (04_stream_fifos.md) -/
def Obligations.FifoWriteThenRead : Prop :=
  ∀ (s : State) (n payload count : Nat), fifoExists n = true → n ≠ 66 → (s.fifo n).words = [] → (s.fifo n).p = 0 → (s.fifo n).headRead = 0 →
    (s.fifo n).halted = false → (s.fifo n).dropping = false → (s.fifo n).held = [] → fifoFull n (s.fifoDepth n) (s.fifo n) = false → ∃ t u : State,
      exec (.fifoWrite n payload true count) s = .next t ∧ exec (.fifoRead n) t = .next u
      ∧ (t.fifo n).words = [fifoWord n payload true count] ∧ (u.fifo n).words = [] ∧ (u.fifo n).out = some (fifoWord n payload true count)
      ∧ (∀ m, m ≠ n → u.fifo m = s.fifo m) ∧ u = { s with fifos := u.fifos }

/-- The idle time of a record closes the open record of its zone with its CRC and gives it its place in the closing order. A free engine in mode 0 passes
the next complete block of its record unchanged, by its output FIFO, and counts its bytes. A freed overflow buffer gives its engine one buffer back.
Assembly gives the next filled data set its table, the next IV and its tag, puts it into the Carousel and at the tail of the spool queue. With the IV
counter within 65,536 of the ceiling and no write of the key record going on, a refresh starts one with the ceiling moved on by 1,048,576; its end
puts the new ceiling in force when a copy was written, and otherwise takes IVs away, notes fault class 8 and raises EVT 0x7C4 and 0x7F3 (that one
written copy is enough is deduced, see the log). For the record whose turn it is, while DS assembly is not held back and once its media key stands in
a slot, a sector is encrypted with AES-XTS under that key (while it is in none and none is free, no sector is): the first sector of a record takes the
next sector indices of its stream context, each later one the next index. The sector is appended to the record's body; with the last one the record
enters the payload stream. (02_data_set_format.md, 09_compression.md, 10_cipher_and_keys.md) -/
def Obligations.PackerCommandsAct : Prop :=
  (∀ s : State,
  (∀ zone, (s.openRec? zone).isSome = true → exec (.recordIdleTimeout zone) s = .next ((s.pass 65 1 1).modSp (fun p =>
      { p with
        closings := p.closings + 1, arrivals := p.arrivals + 1
        recs := p.recs.map (fun r =>
          if r.zone = zone && r.closed.isNone then
            { r with closed := some p.closings, arrived := if r.at_ = r.data.length then some p.arrivals else none, crc := crc32c r.data }
          else r) })).serve)
  ∧ (∀ (engine : Nat) (r : PackRec), s.sp.recs.find? (fun r => r.engine = engine && decide (0 < r.nextBlock)) = some r → r.mode = 0 → s.engineFree engine = true →
    ∀ b, b = slice r.data r.at_ r.nextBlock →
    exec (.compressionBlockCode engine) s = .next (((((((s.passBytes (8 + engine) b.length).modRec r (fun x =>
        { x with
          at_ := x.at_ + r.nextBlock, coded := x.coded ++ b, carried := none
          arrived := if r.closed.isSome && r.at_ + r.nextBlock = r.data.length then some s.sp.arrivals else none })).modSp (fun p =>
        { p with ovf := NMap.set 0 p.ovf engine 0, ovfWait := p.ovfWait.filter (fun e => e != engine), arrivals := p.arrivals + 1 })).bumpPv
          pCMP_IN_BYTES engine r.nextBlock).bumpPv pCMP_OUT_BYTES engine b.length)).notePeak))
  ∧ (∀ engine, exec (.overflowBufferFreed engine) s = .next (s.modSp (fun p => { p with ovf := NMap.upd 0 p.ovf engine (· - 1) })))
  ∧ (∀ (d : OpenDs) (rest : List OpenDs) (id : Nat) (key : Bytes), s.sp.filled = d :: rest → s.spoolStalled = false → s.ingestFlows = true →
    s.stageRoom dsInfo = true → s.keys.macCur = some id → s.slotKey (259 + id) = some key → s.ivReady = true →
    ∀ (s3 s4 : State) (img : DsImage), s3 = (((s.modKeys (fun k => { k with iv := k.iv + 1 })).modSp (fun p =>
        { p with filled := rest, nextSeq := s.sp.nextSeq + 1, stageFull := false })).modRc (fun r => { r with dirs := NMap.put r.dirs s.sp.nextSeq d.dir })).noteTakes
          s.sp.nextSeq →
    img = { bytes := tagged key s.ivBytes (fitBytes dsPayload d.payload) (fun tag =>
              dsTable d s.sp.nextSeq s.sp.cartridge s.filledStream s.ivBytes id tag s.stamp s.sp.initCount)
            group := none, persisted := false, committed := false, logOff := 0, lbas := s3.endingIn s.sp.nextSeq } →
    s3.appendImage s.sp.nextSeq img = some s4 →
    exec .dsAssembled s = .next (((((((s4.passBytes 17 dsInfo).passBytes 18 dsInfo).noteDs s.sp.nextSeq img.lbas).mapCommit (s4.sectorRecs d) []).groupAdd
      s.sp.nextSeq)).serve))
  ∧ (∀ c, s.keys.ceiling = some c → c ≤ s.keys.iv + 2 ^ 16 → s.keys.ceilingBusy = none → s.keys.ivDead = false →
    exec .ivCeilingRefresh s = .next (s.modKeys (fun k => { k with ceilingBusy := some (c + 2 ^ 20) })))
  ∧ (∀ c k, s.keys.ceilingBusy = some c → s.keys.krec = some k → s.nor.ops.any (fun o => o.area = 1) = false → s.mag.st.alive = true →
    let n := { k with ceiling := c, seq := (k.seq + 1) % 2 ^ 32 }
    let t := (s.putCopies 1 n.bytes false false).modKeys (fun y => { y with ceilingBusy := none })
    (∀ ok0 ok1, (ok0 || ok1) = true → exec (.ivCeilingWriteDone ok0 ok1) s =
      .next ((((s.putCopies 1 n.bytes ok0 ok1).modKeys (fun y => { y with ceilingBusy := none })).modKeys
        (fun y =>
          { y with krec := some n, ceiling := some c, recDirty := false })).serve))
    ∧ exec (.ivCeilingWriteDone false false) s =
      .next ((((t.modKeys (fun y => { y with ivDead := true })).noteFault 8).raise 0x7C4 1 []).raise 0x7F3 1 [])))
  ∧ (∀ (s : State) (r : PackRec), s.backedUp = false → s.xtsNext = some r →
    let t := s.keySlotLoad r.keyId
    let len := bodyLen r.coded.length
    let next := (NMap.find? t.sp.ctxs r.ctx).elim 0 (fun c => c.next)
    let plain := slice (fitBytes len r.coded) r.body.length 4096
    (t.xtsKey r.keyId = none → exec .xtsSectorEncrypt s = .next t)
    ∧ (∀ key sec v, t.xtsKey r.keyId = some key → r.body = [] → sec = xtsEncrypt key (r.ctx * 2 ^ 64 + next) plain →
      v = (t.modSp (fun p => { p with ctxs := NMap.modify p.ctxs r.ctx (fun c => { c with next := c.next + (len + 4095) / 4096 }) })).modRec r
          (fun x => { x with sector0 := next, body := x.body ++ sec, done := decide (len ≤ sec.length) }) →
      (sec.length < len → exec .xtsSectorEncrypt s = .next v)
      ∧ (len ≤ sec.length → exec .xtsSectorEncrypt s = .next (State.enterRecs v.sp.recs.length v).serve))
    ∧ (∀ key sec v, t.xtsKey r.keyId = some key → r.body ≠ [] → sec = xtsEncrypt key (r.ctx * 2 ^ 64 + r.sector0 + r.body.length / 4096) plain →
      v = t.modRec r (fun x => { x with sector0 := r.sector0, body := x.body ++ sec, done := decide (len ≤ r.body.length + sec.length) }) →
      (r.body.length + sec.length < len → exec .xtsSectorEncrypt s = .next v)
      ∧ (len ≤ r.body.length + sec.length → exec .xtsSectorEncrypt s = .next (State.enterRecs v.sp.recs.length v).serve)))

/-- A taken Kernel Load of an image that passes the checks, and a ROM load of a number up to 3, create an instance with the lowest free number when a
place, the key slots and a healthy TRNG for them are there: its key slots take random keys, its image is written through the cache, and the command
completes with the number. An image that fails raises EVT 0x710 with the failing check and completes with Invalid Kernel Image. An Unload of a loaded
instance takes it away and completes with success. A Kernel Invoke with the broadcast namespace, a block of allowed length with bindings that fit, and
allowed by session and read-only state, is queued with its block in its argument window and a zero result window; of a frozen instance it completes
with Kernel Instance Frozen, of none with Kernel Instance Not Present. (13_compute_cluster.md, 12_host_interface.md) -/
def Obligations.KernelCommandsComplete : Prop :=
  ∀ (s t : State) (h : Hdr) (q : Nat),
  (s.AdminRuns h q t →
    (∀ d10 image c, t.imageCheck (fitBytes (4 * (d10 + 1)) image) = some c →
      exec (.kernelLoad h d10 image) s = .next (((t.raise 0x710 c []).done q stKernelImage).goOn))
    ∧ (∀ i base nslots (img : Bytes) (rom : Option Nat) (k0 : Kern),
      k0 = { image := img, rom, wins := imageWins img, entry := 0x10000 + leAt img 0x1C 4, sp := 0x10000 + imageRegion img
             region := imageRegion img, base := 0, slots := t.freeKernSlots.take nslots, frozen := false, count := 0 } →
      (List.range 256).find? (fun i => (NMap.find? t.comp.kerns i).isNone) = some i → t.compAlloc k0.bytes = some base →
      t.comp.kerns.length < t.pn pCCL_INST_MAX → nslots ≤ t.freeKernSlots.length → (nslots ≠ 0 → t.keys.trngOk = true) →
      ∀ u, u = (((k0.slots.foldl (fun v x => (v.loadSlot x (v.trngBytes 32) 0).drawn 1) (t.modComp (fun p =>
        { p with kerns := NMap.put p.kerns i { k0 with base } }))).putBytes 16 base
          (fitBytes k0.region (img.take (imageDataEnd img)))).complete q stOk i 0 []).goOn →
      (∀ d10 image, img = fitBytes (4 * (d10 + 1)) image → rom = none → nslots = leAt img 0x80 1 → t.imageCheck img = none →
        exec (.kernelLoad h d10 image) s = .next u)
      ∧ (∀ number, number ≤ 3 → img = romImage number → rom = some number → nslots = 0 → exec (.kernelLoadRom h number) s = .next u))
    ∧ (∀ inst k, NMap.find? t.comp.kerns inst = some k →
      exec (.kernelUnload h inst) s = .next ((((t.unloadInst inst k).dropUnwanted).done q stOk).goOn)))
  ∧ (s.IoRuns h q t → ∀ d10 block, 256 ≤ block.length → block.length ≤ 2097152 → block.length % 4 = 0 →
    (NMap.find? t.comp.kerns (d10 % 65536) = none → exec (.kernelInvoke h 0xFFFFFFFF d10 block) s = .next ((t.done q stKernelNone).goOn))
    ∧ (∀ k, NMap.find? t.comp.kerns (d10 % 65536) = some k → k.frozen = true →
      exec (.kernelInvoke h 0xFFFFFFFF d10 block) s = .next ((t.done q stKernelFrozen).goOn))
    ∧ (∀ k bs base, NMap.find? t.comp.kerns (d10 % 65536) = some k → k.frozen = false → t.bindings k block = some bs →
      (bs.any (fun b => (k.wins.getD b.win ⟨0, 0, 0⟩).kind = 4) = true → t.keys.session = true) →
      (bs.any (fun b => (k.wins.getD b.win ⟨0, 0, 0⟩).kind = 5 && Nat.testBit b.rights 1) = true → t.car.readOnly = false) →
      t.pn pCCL_CORES ≠ 0 → t.compAlloc (2 * pageRound block.length) = some base →
      exec (.kernelInvoke h 0xFFFFFFFF d10 block) s = .next ((((t.modComp (fun p => 
          { p with queue := p.queue ++
              [{ seq := q, inst := d10 % 65536, cls := (t.nv.held? q).elim 0 (fun x => x.cls), block, wb := Nat.testBit d10 16, binds := bs, base }] })).modNv
        (fun n => n.setWait q (.invoke (d10 % 65536)))).putBytes 16 base
          (fitBytes (pageRound block.length) block ++ zeroBytes (pageRound block.length))).goOn)))

/-- Outside DRAIN and below the thermal warning, with FIFO 76 not halted, the next invocation starts on the next core, with the instance's count, its
entry address, the registers of R370 and nothing else in the core. On a core that executes: an ECALL with a7 = 0 and a result that fits waits while
descriptors are left, and else, with no result to return, counts and completes the invocation with a0 and gives the core back; with any other a7, or a
result too long, it is a trap with code 8; WFI waits; a trap raises EVT 0x711 cause 1 and ends the invocation with the trap status, its code and
address; the time limit raises EVT 0x711 cause 2 and completes it with the time limit status; an access without the right freezes the instance, which
is not frozen yet. A powered core that has nothing loses power after the idle time. (13_compute_cluster.md) -/
def Obligations.InvocationsRun : Prop :=
  ∀ s : State,
  (∀ v c k, s.mag.st.alive = true → s.mag.st ≠ .drain → s.pw.thermal = 0 → s.flows 76 = true → s.nextInvoc = some v → s.nextCore = some c →
    NMap.find? s.comp.kerns v.inst = some k →
    exec .invocationStart s = .next (((s.pass 76 1 1).modComp (fun p =>
      { p with
        kerns := NMap.put p.kerns v.inst { k with count := k.count + 1 }
        queue := p.queue.filter (fun x => x.seq != v.seq) })).modCore c (fun _ =>
          { Core.zero with powered := true, run := some v, pc := k.entry, x := startRegs { k with count := k.count + 1 } v })))
  ∧ (∀ core v k, s.executing core = some (v, k) →
    (∀ a0 a1 pc, (s.core core).exiting = none → a1 ≤ (if (k.winOf 3).isSome then v.block.length else 0) →
      ∀ t, t = s.modCore core (fun y => { y with exiting := some (a0, a1), pc }) →
      (((s.core core).dma ≠ [] ∨ (s.core core).sqh ≠ (s.core core).sqt) → exec (.ecallExit core 0 a0 a1 pc) s = .next t.goOn)
      ∧ ((s.core core).dma = [] → (s.core core).sqh = (s.core core).sqt → v.wb = false →
        exec (.ecallExit core 0 a0 a1 pc) s = .next ((((t.bumpPv pCCL_INVOKES 0 1).complete v.seq stOk (a0 % 2 ^ 32) 0 []).modCore core
          (fun x => x.stop none)).goOn)))
    ∧ (∀ a7 a0 a1 pc, (s.core core).exiting = none → a7 ≠ 0 ∨ (if (k.winOf 3).isSome then v.block.length else 0) < a1 →
      exec (.ecallExit core a7 a0 a1 pc) s = .next (((((s.raise 0x711 1 []).complete v.seq stKernelTrap 8 (pc % 2 ^ 32) []).modCore core
        (fun x => x.stop none)).dropUnwanted).goOn))
    ∧ (∀ pc, (s.core core).exiting = none → exec (.wfiWait core pc) s = .next (s.modCore core (fun y => { y with wfi := true, pc })))
    ∧ (∀ code pc, exec (.kernelTrap core code pc) s = .next (((((s.raise 0x711 1 []).complete v.seq stKernelTrap code (pc % 2 ^ 32) []).modCore core
        (fun x => x.stop none)).dropUnwanted).goOn))
    ∧ (exec (.invocationTimeLimit core) s = .next (((((s.raise 0x711 2 []).complete v.seq stKernelTime 0 0 []).modCore core
        (fun x => x.stop none)).dropUnwanted).goOn))
    ∧ (∀ kind addr, violates k v kind addr = true → k.frozen = false → ∀ c, s.runCore v.inst = some c →
      exec (.windowViolation core kind addr) s = .next (((((s.freezeInst v.inst addr).noteFault 0x0E).raise (0x700 + c) kind
        (leBytes 1 v.inst ++ leBytes 8 addr)).dropUnwanted).goOn))
    ∧ (∀ kind addr, violates k v kind addr = false → exec (.windowViolation core kind addr) s = .next s))
  ∧ (∀ core, (s.core core).powered = true → (s.core core).run = none → (s.core core).frozen = none →
    exec (.coreIdlePowerDown core) s = .next (s.modCore core (fun _ => Core.zero)))

/-- With legal rings on a core that executes, a doorbell writes its ring registers and the tail, a moved ring starting empty, and starts descriptors; a
ring that is not legal, or a tail outside it, freezes the instance with a DMA violation. A write of the head of the completion ring moves it and lets
more descriptors start. When a descriptor of the core has its outcome and the completion ring has room, the entry is written behind the ring's tail,
the tail moves on and a WFI ends. A free cipher lock goes to the instance that asks; its owner's release frees it once none of its messages is left.
(13_compute_cluster.md, 10_cipher_and_keys.md) -/
def Obligations.ComputeDmaActs : Prop :=
  ∀ (s : State) (core : Nat),
  (∀ v k sqb sqsz cqb cqsz tail, s.executing core = some (v, k) → (s.core core).exiting = none →
    ((ringOk k v sqb sqsz 64 = false ∨ sqsz ≤ tail) → exec (.kdsqtDoorbell core sqb sqsz cqb cqsz tail) s = .next ((s.freeze v.inst sqb 4).goOn))
    ∧ (ringOk k v sqb sqsz 64 = true → tail < sqsz → ringOk k v cqb cqsz 32 = true →
      ∀ t, t = s.modCore core (fun y =>
        { y with
          sqb, sqsz, cqb, cqsz, sqt := tail
          sqh := if (s.core core).sqb != sqb || (s.core core).sqsz != sqsz then 0 else y.sqh
          cqh := if (s.core core).cqb != cqb || (s.core core).cqsz != cqsz then 0 else y.cqh
          cqt := if (s.core core).cqb != cqb || (s.core core).cqsz != cqsz then 0 else y.cqt }) →
      exec (.kdsqtDoorbell core sqb sqsz cqb cqsz tail) s = .next (t.runDma core)
      ∧ (s.flows 77 = false → exec (.kdsqtDoorbell core sqb sqsz cqb cqsz tail) s = .next t.readAll.goOn)
      ∧ ((t.core core).sqh = tail → exec (.kdsqtDoorbell core sqb sqsz cqb cqsz tail) s = .next t.readAll.goOn)))
  ∧ (∀ head, (s.executing core).isSome = true → head < (s.core core).cqsz → ∀ t, t = s.modCore core (fun y => { y with cqh := head }) →
    exec (.kdcqhWrite core head) s = .next (t.runDma core)
    ∧ ((s.core core).sqh = (s.core core).sqt → exec (.kdcqhWrite core head) s = .next t.readAll.goOn))
  ∧ (∀ v k d r t a, s.running core = some (v, k) → (s.core core).cqsz ≠ 0 → (s.core core).cqFull = false → s.flows 78 = true → (s.core core).exiting = none →
    (s.core core).dma = [d] → s.dmaOutcome core v k d = (some r, t) →
    k.inWindow (some v) ((s.core core).cqb + 32 * (s.core core).cqt) 32 2 = some a →
    ∀ u w, u = ((t.pass 78 1 1).putBytes 17 a (dmaEntry d.tag r)).modCore core (fun y =>
        { y with dma := y.dma.eraseIdx 0, cqt := (y.cqt + 1) % y.cqsz, wfi := false }) →
      w = (if u.flows 77 then State.startDma core 1024 u else u) → (w.core core).exiting = none →
      exec (.dmaDescriptorComplete core) s = .next (w.dropUnwanted.readAll.goOn))
  ∧ (∀ v k, s.executing core = some (v, k) →
    (s.keys.lock = 0 → exec (.klockRequest core) s = .next (s.modKeys (fun y => { y with lock := instId v.inst })))
    ∧ (s.keys.lock = instId v.inst →
      (s.keys.msg.elim false (fun m => m.req = instId v.inst && !m.urgent) = false →
        s.keys.suspended.elim false (fun m => m.req = instId v.inst && !m.urgent) = false →
        s.keys.queue.any (fun m => m.req = instId v.inst && !m.urgent) = false →
        exec (.klockRelease core) s = .next (s.modKeys (fun y => { y with lock := 0, lockRelease := false })))
      ∧ (s.keys.queue.any (fun m => m.req = instId v.inst && !m.urgent) = true →
        exec (.klockRelease core) s = .next (s.modKeys (fun y => { y with lockRelease := true })))))

/-- With Ringmaster running and no clean under way, an access to a line of the compute region that stands in a way, with nothing waiting at its bank, is a
hit: a read returns the line from the byte addressed, a write changes it and makes it dirty, and the way becomes the most recent; a miss goes to the
miss slot of its bank when that is free. A fill that nothing waits for puts its line as the buffer holds it into the way chosen. A range operation, a
way mask of at least two ways and an enable value act at once when Ringmaster writes them while no clean or range operation runs; a host's Parameter
Write of them that passes its checks notes the write, acts and completes, one that fails completes with the check's status. A range operation and a
clean with no fill outstanding write the dirty lines back as their rules say; waking ways become effective. With nine corrected errors of a way in one
second, or two uncorrectable ones in all, the bit of the way in CCA_WAY_FAIL is set, the way no longer wakes and is cleaned when it was effective; EVT
0x748 cause 1 names it, and cause 2 follows when fewer than two ways stay wanted. (14_cluster_cache.md, 19_parameter_space.md) -/
def Obligations.CacheCommandsAct : Prop :=
  (∀ s : State,
  (s.mag.st.alive = true → s.cache.clean = none →
    (∀ (q addr w : Nat) (x : CLine) (data : Bytes), s.inRegion (addr / 64) = true → s.bankQueue (lineBank (addr / 64)) = [] →
      ∀ r : CReq, r = { q, wr := false, addr, data, err := 0 } →
      ∀ t, t = (s.setQueue (lineBank r.line) [r]).setQueue (lineBank r.line) [] → t.lookup r.line = .way w → NMap.find? (t.cset r.line).lines w = some x →
      exec (.cacheAccess q false addr data 0) s =
        .next ((((t.cacheOut (x.data.drop (addr % 64))).install r.line w x true).2.bumpPv pCCA_HITS q 1).goOn)
      ∧ exec (.cacheAccess q true addr data 0) s = .next (((((s.setQueue (lineBank r.line) [{ r with wr := true }]).setQueue (lineBank r.line) []).install
        r.line w { x with data := lineWrite x.data (addr % 64) data, dirty := true } true).2.bumpPv pCCA_HITS q 1).goOn))
    ∧ (∀ (q addr : Nat) (wr : Bool) (data : Bytes), s.inRegion (addr / 64) = true → s.bankQueue (lineBank (addr / 64)) = [] →
      ∀ r : CReq, r = { q, wr, addr, data, err := 0 } →
      ∀ t, t = (s.setQueue (lineBank r.line) [r]).setQueue (lineBank r.line) [] → t.lookup r.line = .absent → t.missOf (lineBank r.line) = none →
      exec (.cacheAccess q wr addr data 0) s = .next ((t.startMiss r).goOn))
    ∧ (∀ bank m u, s.missOf bank = some m → m.wait = [] →
      (s.modCache (fun c => { c with miss := NMap.del c.miss bank })).allocate m.q m.line
        { tag := lineTag m.line, dirty := false, data := s.bufLine m.line } (!m.pf) = some u → u.bankQueue bank = [] →
      exec (.cacheMissFillComplete bank) s = .next u.goOn))
  ∧ (s.cache.clean = none → s.cache.range = none → ∀ (t : Nat → State), (t = fun op => s.modCache (fun c =>
      { c with range := some (op, (compBase + s.pn pCCA_RNG_BASE) / 64, s.pn pCCA_RNG_LEN / 64) })) →
    exec (.ccaRangeClean none) s = .next (t 1).goOn ∧ exec (.ccaRangeCleanInvalidate none) s = .next (t 2).goOn)
  ∧ (s.cache.clean = none → ∀ value, value < 65536 → 2 ≤ popCount 16 value → ∀ t gone, t = s.setElem pCCA_WAY_EN 0 value →
    gone = (wayList t.cache.ways).filter (fun w => !(t.wantWays value).contains w) →
    (t.pn pCCA_ENABLE ≠ 1 → exec (.ccaWayEnWrite none value) s = .next t.goOn)
    ∧ (t.pn pCCA_ENABLE = 1 → ∀ u, u = t.modCache (fun c => { c with waking := wayBits ((t.wantWays value).filter (fun w => !Nat.testBit c.ways w)) }) →
      (gone = [] → exec (.ccaWayEnWrite none value) s = .next u.goOn)
      ∧ (gone ≠ [] → exec (.ccaWayEnWrite none value) s = .next (u.modCache (fun c => { c with clean := some (gone, false) })).goOn)))
  ∧ (s.cache.clean = none → ∀ value t, t = s.setElem pCCA_ENABLE 0 value →
    (value < 2 → value = s.pn pCCA_ENABLE → exec (.ccaEnableWrite none value) s = .next t.goOn)
    ∧ (value = 0 → s.pn pCCA_ENABLE = 1 → exec (.ccaEnableWrite none value) s = .next (t.modCache (fun c =>
      { c with waking := wayBits [], clean := some ((wayList t.cache.ways).filter (fun w => !([] : List Nat).contains w), true) })).goOn)
    ∧ (∀ want, value = 1 → s.pn pCCA_ENABLE = 0 → want = t.wantWays (t.pn pCCA_WAY_EN) →
      (wayList t.cache.ways).filter (fun w => !want.contains w) = [] → exec (.ccaEnableWrite none value) s = .next (t.modCache (fun c =>
        { c with waking := wayBits (want.filter (fun w => !Nat.testBit c.ways w)) })).goOn))
  ∧ (∀ h q t, s.AdminRuns h q t →
    (t.cache.clean = none → t.cache.range = none → ∀ (u : Nat → State), (u = fun op => (t.noteWrite pCCA_RNG_OP 0).modCache (fun c =>
        { c with range := some (op, (compBase + t.pn pCCA_RNG_BASE) / 64, t.pn pCCA_RNG_LEN / 64) })) →
      (t.writeCheck pCCA_RNG_OP 0 [1] = none → exec (.ccaRangeClean (some h)) s = .next (((u 1).done q stOk).goOn))
      ∧ (t.writeCheck pCCA_RNG_OP 0 [2] = none → exec (.ccaRangeCleanInvalidate (some h)) s = .next (((u 2).done q stOk).goOn)))
    ∧ (∀ value st k, (t.writeCheck pCCA_WAY_EN 0 [value] = some (st, k) →
      exec (.ccaWayEnWrite (some h) value) s = .next ((t.complete q st k 0 []).goOn))
      ∧ (t.writeCheck pCCA_ENABLE 0 [value] = some (st, k) → exec (.ccaEnableWrite (some h) value) s = .next ((t.complete q st k 0 []).goOn))))
  ∧ (s.cache.miss = [] → s.cache.due = [] →
    (∀ op first n, s.cache.range = some (op, first, n) → exec .rangeOperationComplete s = .next (s.modCache (fun c =>
      { c.writeBack (fun l _ => decide (first ≤ l) && decide (l < first + n)) (fun l => decide (first ≤ l) && decide (l < first + n)) (op = 2) with range := none })))
    ∧ (∀ ws vict, s.cache.clean = some (ws, vict) → s.cache.wait = [] → exec .cacheCleanComplete s = .next (s.modCache (fun c =>
      { c.writeBack (fun _ w => ws.contains w) (fun _ => vict) true with
        ways := wayBits ((wayList c.ways).filter (fun w => !ws.contains w)), clean := none })).goOn))
  ∧ exec .wayWakeComplete s = .next (s.modCache (fun c => { c with ways := c.ways ||| c.waking, waking := 0 })))
  ∧ (∀ (s : State) (way : Nat), way < 16 → Nat.testBit s.cache.fail way = false →
  (s.cache.ceAt = s.rtcSec ∧ 9 ≤ NMap.get 0 s.cache.ceSec way) ∨ 2 ≤ s.pni pCCA_UE_CNT way →
  ∃ t, t = (s.modCache (fun c =>
      { c with
        fail := c.fail + 2 ^ way
        waking := wayBits ((wayList c.waking).filter (fun w => w != way))
        due := if Nat.testBit s.cache.ways way then c.due ++ [way] else c.due })).raise 0x748 1 (leBytes 1 way)
    ∧ (2 ≤ (t.wantWays (t.pn pCCA_WAY_EN)).length → exec (.hardwareWayDisable way) s = .next (t.cleanDue.goOn))
    ∧ ((t.wantWays (t.pn pCCA_WAY_EN)).length < 2 → exec (.hardwareWayDisable way) s = .next ((t.raise 0x748 2 (leBytes 1 way)).cleanDue.goOn)))

/-- With Ringmaster running and its FIFOs not halted, a valid request of Ringmaster's while the lock is free takes the lock for one message, and one of a
kernel that owns the lock and the slot is taken; the message starts when the pool is idle and waits otherwise; a request that is not valid gets status
0x05. An urgent one of Ringmaster's that is valid runs at once on an idle pool, suspends a normal message that runs, which is counted, and queues
behind an urgent one; from a kernel or not valid it gets status 0x05. A message that is done leaves its result and lets the next one run: a CMAC gives
the 16 bytes of R276, an XTS encryption the ciphertext; one that needs an IV gets status 0x06 once no more can be issued. A kernel's lock held too
long is broken: EVT 0x7C0 cause 1, its waiting messages are dropped, the lock is free and the instance frozen with cause 6. (10_cipher_and_keys.md) -/
def Obligations.ServicePoolActs : Prop :=
  ∀ s : State, s.mag.st.alive = true → s.flows 74 = true → s.flows 75 = true →
  (∀ requester w0 w1 w2 w3 data, ∀ m : PoolMsg, m = { req := requester, w0, w1, w2, w3, data } →
    (1 ≤ requester → requester < 4 → s.keys.lock = 0 → ∀ t, t = s.modKeys (fun k => { k with lock := requester, lockRelease := true }) →
      (t.poolValid m = true → s.keys.msg = none → s.keys.suspended = none →
        exec (.servicePoolRequest requester w0 w1 w2 w3 data) s = .next (((t.pass 74 4 4).modKeys (fun k => { k with msg := some m })).goOn))
      ∧ (∀ r, t.poolValid m = true → s.keys.msg = some r →
        exec (.servicePoolRequest requester w0 w1 w2 w3 data) s = .next (((t.pass 74 4 4).modKeys (fun k => { k with queue := k.queue ++ [m] })).goOn))
      ∧ (t.poolValid m = false → exec (.servicePoolRequest requester w0 w1 w2 w3 data) s = .next (((t.poolResult m 5 0 [] []).lockSettle).goOn)))
    ∧ (∀ k, 0x100 ≤ requester → NMap.find? s.comp.kerns (requester - 0x100) = some k → poolReserved m.op = false → k.slots.contains m.slot = true →
      s.keys.lock = requester → m.urgent = false →
      (s.poolValid m = true → s.keys.msg = none → s.keys.suspended = none →
        exec (.servicePoolRequest requester w0 w1 w2 w3 data) s = .next (((s.pass 74 4 4).modKeys (fun k => { k with msg := some m })).goOn))
      ∧ (s.poolValid m = false → exec (.servicePoolRequest requester w0 w1 w2 w3 data) s = .next ((s.poolResult m 5 0 [] []).goOn))))
  ∧ (s.flows 63 = true → ∀ requester w0 w1 w2 w3 data, 1 ≤ requester →
    let m : PoolMsg := { req := requester, w0 := if Nat.testBit w0 8 then w0 else w0 + 256, w1, w2, w3, data }
    let t := (s.pass 74 4 4).passBytes 63 data.length
    (4 ≤ requester ∨ s.poolValid m = false → exec (.servicePoolUrgentRequest requester w0 w1 w2 w3 data) s = .next (s.poolResult m 5 0 [] []))
    ∧ (requester < 4 → s.poolValid m = true →
      (s.keys.msg = none → exec (.servicePoolUrgentRequest requester w0 w1 w2 w3 data) s = .next (t.modKeys (fun k => { k with msg := some m })))
      ∧ (∀ r, s.keys.msg = some r → r.urgent = true →
        exec (.servicePoolUrgentRequest requester w0 w1 w2 w3 data) s = .next (t.modKeys (fun k => { k with urgent := k.urgent ++ [m] })))
      ∧ (∀ r, s.keys.msg = some r → r.urgent = false → exec (.servicePoolUrgentRequest requester w0 w1 w2 w3 data) s =
        .next ((t.modKeys (fun k => { k with msg := some m, suspended := some r })).bumpPv pCPH_SUSPENDS 0 1))))
  ∧ (∀ m, s.keys.msg = some m →
    (m.cont = false → ∀ t, t = s.modKeys (fun k => { k with partMsg := some ({ m with data := fitBytes m.len m.data }, []) }) →
      (m.op = 7 → exec .servicePoolMessageDone s =
        .next (((t.poolResult m 0 m.len [] (cmac ((s.slotKey m.slot).getD []) (fitBytes m.len m.data))).poolNext).goOn))
      ∧ (m.op = 1 → exec .servicePoolMessageDone s =
        .next (((t.poolResult m 0 m.len [] (xtsAny true ((s.slotKey m.slot).getD []) m.w3 (fitBytes m.len m.data))).poolNext).goOn)))
    ∧ (poolDraws m = true → s.takeIv = none → s.keys.ivDead = true →
      exec .servicePoolMessageDone s = .next ((s.poolResult m 6 0 [] []).poolNext.goOn)))
  ∧ (s.keys.suspended = none → ∀ m, 0x100 ≤ s.keys.lock → s.keys.msg = some m → m.req ≠ s.keys.lock →
    exec .cphLockTimeout s = .next (((((s.raise 0x7C0 1 (leBytes 2 s.keys.lock)).bumpPv pCPH_BREAKS 0 1).modKeys (fun k =>
      { k with lock := 0, lockRelease := false, queue := k.queue.filter (fun m => m.req != s.keys.lock) })).freeze (s.keys.lock - 0x100) 0 6).goOn))

/-- With Ringmaster running an edge whose pulse is shorter than 2 us on either side changes nothing; one whose period is outside 1 ms to 1 s is discarded,
and with it the history of a measurement that is not yet running. An accepted edge takes the latched bytes of its frame with its period into the
history of at most 15 frames; the feed-forward runs from TFM_FF_FRAMES frames on and is the speed of R79, outside dock context and with TFM_FF_SOURCE
at 0; when it begins after FSYNC was lost, EVT 0x47C cause 2 is raised. A timeout of a present FSYNC ends the feed-forward and raises EVT 0x47C cause
1. (03_spooling_and_verify.md) -/
def Obligations.FrameSyncActs : Prop :=
  ∀ s : State, s.mag.st.alive = true →
  (∀ low high period, low < 2000 ∨ high < 2000 → exec (.fsyncEdge low high period) s = .next s)
  ∧ (∀ low high period, 2000 ≤ low → 2000 ≤ high → (period < 1000 ∨ 1000000 < period) →
    exec (.fsyncEdge low high period) s = .next (s.modSp (fun p => { p with ffHist := if p.ffRun then p.ffHist else [] })))
  ∧ (∀ low high period, 2000 ≤ low → 2000 ≤ high → 1000 ≤ period → period ≤ 1000000 → ∀ h run v, h = ((s.sp.latch, period) :: s.sp.ffHist).take 15 →
    run = (s.sp.ffRun || decide (s.pn pTFM_FF_FRAMES ≤ h.length)) →
    v = (if run && s.pn pTFM_FF_SOURCE = 0 && s.mag.ctx != .dock then s.feedForward h else 0) →
    (run = false ∨ s.sp.ffRun = true ∨ s.sp.fsyncOk = true → exec (.fsyncEdge low high period) s = .next (s.modSp (fun p =>
      { p with ffHist := h, latch := 0, ffRun := run, fsyncOk := p.fsyncOk, vff := v })))
    ∧ (run = true → s.sp.ffRun = false → s.sp.fsyncOk = false → exec (.fsyncEdge low high period) s = .next ((s.modSp (fun p =>
      { p with ffHist := h, latch := 0, ffRun := true, fsyncOk := true, vff := v })).raise 0x47C 2 [])))
  ∧ (s.sp.fsyncOk = true →
    exec .fsyncTimeout s = .next ((s.modSp (fun p => { p with fsyncOk := false, ffRun := false, ffHist := [], vff := 0 })).raise 0x47C 1 []))

/-- A speed request in SPOOLING, while copies wait or the backlog is not below the entry threshold, asks for the computed speed, in CRAWL at most the exit
threshold for the crawl speed; with nothing waiting and a backlog below it SPOOLING becomes CRAWL. An expired crawl limit with copies waiting is
remembered; with none waiting and nothing to close the tape stops. At a data set boundary that the tape passes while recording, with no result waiting
and no stop under way, zone parameters take effect and the copy at the head of the queue, or the next index DS, begins when it is ready; with none the
position stays blank. A verify result is judged with the retirement of channels before it, and kept for the next boundary. A verified group whose
images persist releases its packets from FIFO 66, leaves the groups and the images, is journalled as spool-committed and counts towards the next index
generation. A wrap turnaround at the wrap stop point goes on with the next wrap after an even wrap; after an odd wrap with a generation due it builds
the generation and moves to its index wrap. The tail scan resumes recording two positions behind the last separator and the head, raising EVT 0x7E5
cause 1. (03_spooling_and_verify.md) -/
def Obligations.SpoolingCommandsAct : Prop :=
  ∀ s : State,
  (s.mag.st = .spooling → (s.queueEmpty = false ∨ 2 ^ 20 * s.pn pTFM_CRAWL_ENTRY ≤ s.backlog) →
    exec .speedRequestUpdate s = .next (s.modSp (fun p => { p with vreq := s.requestedSpeed })))
  ∧ (s.mag.st = .spooling → s.queueEmpty = true → s.backlog < 2 ^ 20 * s.pn pTFM_CRAWL_ENTRY → s.pn pTFM_CRAWL_LIMIT ≠ 0 →
    exec .speedRequestUpdate s = .next (((s.modMag (fun g => { g with st := .crawl })).modSp (fun p => { p with crawl := some (s.pn pTFM_CRAWL_LIMIT) })).modSp
      (fun p => { p with vreq := 500 })))
  ∧ (s.mag.st = .crawl → s.backlog ≤ 2 ^ 20 * s.pn pTFM_CRAWL_EXIT → s.sp.crawl ≠ some 0 →
    exec .speedRequestUpdate s = .next (s.modSp (fun p => { p with vreq := 500 })))
  ∧ (s.mag.st = .crawl → s.sp.crawl.isSome = true → ∀ t, t = s.modSp (fun p => { p with crawl := some 0 }) →
    (s.queueEmpty = false → exec .crawlLimitExpiry s = .next t.serve)
    ∧ (s.queueEmpty = true → s.ctl.after = none → s.sp.closing = false → s.sp.gen = none → t.closeDue = false →
      exec .crawlLimitExpiry s = .next (((t.modSp (fun p => { p with crawl := none })).stopTape .hold false).serve)))
  ∧ (s.recording = true → s.ctl.tsub ≠ .dwell → (s.sp.started = [] ∨ s.flows 67 = false) →
    ∀ t, t = ((s.applyPend (fun p i => (groupOf p i).1 = pTFM_CRAWL_ENTRY)).zoneSelect).modCtl (fun c => { c with target := 0 }) →
      t.mag.st ≠ .crawl → t.ctl.tsub ≠ .stopping → t.sp.skip = 0 →
      (t.sp.gen = none → t.sp.wrapEnd = false → t.sp.pos < wrapPositions → t.noRoom = false →
        (t.queued = [] → ∀ ready, exec (.dsPositionBoundary ready) s = .next (t.blank false))
        ∧ (∀ c rest, t.queued = c :: rest →
          exec (.dsPositionBoundary false) s = .next (t.blank false)
          ∧ (t.skipDue c = false → t.writeFlows = true → exec (.dsPositionBoundary true) s = .next ((t.spoolStart.startCopy c t.sp.wrap t.sp.pos).modSp (fun p =>
            { p with pos := p.pos + 1, wrapUsed := true, resume := false
                     recGroup := if t.begunGroup (t.groupOfCopy c) then p.recGroup else t.groupOfCopy c, crawl := p.crawl })))))
      ∧ (∀ g, t.sp.gen = some g → t.nextIndex g < g.ds.length → g.pos < 8000 → ∀ c : Copy, c = { kind := .index, seq := t.nextIndex g, m := 0 } →
        t.skipDue c = false → t.writeFlows = true → exec (.dsPositionBoundary true) s =
          .next ((t.startCopy c g.wrap g.pos).modSp (fun p => { p with gen := some { g with pos := g.pos + 1 } }))))
  ∧ (∀ x, s.sp.started.find? (fun x => x.result.isNone) = some x → ∀ t, t = s.retireCheck x → ∀ u, u = t.modSp (fun p =>
      { p with started := p.started.map (fun y => if y = x then { y with result := some (t.copyPasses x) } else y) }) →
    (u.noBoundary = false → exec .verifyResult s = .next u) ∧ (u.noBoundary = true → exec .verifyResult s = .next u.actOnResults))
  ∧ (∀ f rest m j, s.sp.ready = f :: rest → m = NMap.get 0 s.sp.groups f → m + 2 ≤ 64 → packetWords (m + 2) ((s.fifo 66).words.take (s.fifo 66).m) = some j →
    (s.fifo 66).held = [] →
    ((List.range m).map (· + f)).all (fun q => (NMap.find? s.sp.images q).elim false (fun v => v.persisted)) = true →
    ∃ t : State, exec .groupSpoolCommit s = .next ((((t.mapCommit [.commit f m] []).indexCommit [t.genRec]).trimLog.growZones false).goOn)
      ∧ t.fifos = (s.modFifo 66 (fun f => { f with words := f.words.drop j, lp := f.lp + j, m := f.m - j, p := f.p - j, held := [] })).fifos
      ∧ t.sp.ready = rest ∧ t.sp.groups = NMap.del s.sp.groups f ∧ t.sp.lastCommit = some (f + m - 1) ∧ t.sp.sinceGen = s.sp.sinceGen + 1)
  ∧ (s.recording = true → s.sp.gen = none → s.sp.wrapEnd = true → s.sp.started = [] → s.ctl.after = none → s.ctl.turn = false →
    s.ctl.vlim = 0 → s.ctl.alim = 0 → ∀ t, t = (s.calUpdate (fun _ => true)).nextWrap →
      (t.sp.full = true → exec .wrapTurnaround s = .next ((t.modSp (fun p =>
        { p with draining := false, closing := false, closeAt := none, closeGrp := none })).stopTape .hold false))
      ∧ (t.sp.full = false → s.sp.wrap % 2 = 0 → exec .wrapTurnaround s =
        .next (t.modCtl (fun c => { c with dir := if wrapForward t.sp.wrap then 1 else -1, target := 0, aim := none, wrapGoal := t.sp.wrap })))
      ∧ (∀ u, t.sp.full = false → s.sp.wrap % 2 = 1 → t.sp.genDue = true → t.buildGen = some u →
        exec .wrapTurnaround s = .next (u.startMove (.index ((u.sp.gen.map (fun g => g.wrap)).getD 0)))))
  ∧ (∀ p, s.ctl.turn = true → s.ctl.tsub = .moving → s.ctl.vlim = 0 → s.ctl.alim = 0 → s.rc.pass = some p → p.kind = 2 → ∀ d : Int,
    d = (if wrapForward (s.rc.wrap + 1) then 1 else -1) →
    exec .wrapTurnaround s = .next ((s.clearCapture.modRc (fun r => { r with wrap := s.rc.wrap + 1, pos := 0, runAt := 0, took := [] })).modCtl (fun c =>
      { c with turn := false, dir := d, target := d * 500, wrapGoal := s.rc.wrap + 1 })))
  ∧ (∀ last head, s.sp.tailScan = true → s.ctl.aim.isSome = true → s.moves = true → s.ctl.after = none → max (last.getD 0) head + 34 ≤ wrapPositions →
    ∀ t, t = (s.modSp (fun q =>
        { q with
          pos := max (last.getD 0) head + 2
          resume := true
          tailScan := false
          tailPos := q.wrap % 256 + 256 * ((max (last.getD 0) head + 2) % 2 ^ 24) })).raise 0x7E5 1 [] → s.sp.full = false →
      exec (.tapeTailScan last head) s = .next (t.startMove (.position s.sp.wrap (max (last.getD 0) head + 2))))

/-- While rows are decoded a group that sleeps wakes with its 32 lanes as at power-up; where another lane is inside a data set they join it. A lane that
is on takes the samples heard first. Outside a data set a separator that ends in the bits then begins the data set at row slot 0, with the first row
expected at bit 600. Inside one, at the slot that is due and once the bits of its search window are there: a lane that is late gives an erased row
with cause 5; a window with no candidate counts a missed sync pattern for the lane and its channel and gives an erased row with cause 4; otherwise the
best two candidates are kept in rank order. A lane that is retired or whose module is bad gives the row erased with that cause. After more than 256
unlocked bits the lane gives up its data set, every row left is erased with cause 5, and the lane's event with cause 2 is raised; after as many missed
sync patterns as TRC_SYNC_LOSS allows it is given up with cause 1. A report of the oldest dropout that has ended, by its kind and bits, counts it
once; one within the kept row gives its pointers, and when one takes the whole row the lane's event with cause 5. (05_read_channel.md) -/
def Obligations.ReadChannelCommandsAct : Prop :=
  ∀ (s : State) (lane : Nat),
  (∀ g, s.decoding = true → s.rc.awake.contains g = false → ∀ t, t = s.modRc (fun r => { r with awake := r.awake ++ [g] }) →
    ((∀ e ∈ s.rc.lanes, e.2.inDs = false) → exec (.engineGroupWake g) s = .next (((List.range 32).map (· + 32 * g)).foldl State.powerLane t))
    ∧ (∀ r, List.find? (fun (e : Nat × Lane) => e.2.inDs && s.rc.awake.contains (e.1 / 32)) s.rc.lanes = some r →
      exec (.engineGroupWake g) s = .next (((List.range 32).map (· + 32 * g)).foldl (fun u c => u.joinDs r.2 c)
        (((List.range 32).map (· + 32 * g)).foldl State.powerLane t))))
  ∧ (s.laneOn lane = true → ∀ samples t, t = s.hear lane samples → (t.lane lane).inDs = false → ∀ k u,
    separatorEnd ((t.lane lane).sepMin.getD (t.pn pTRC_SEP_MIN)) (t.lane lane).bits = some k → u = t.applyZoneGroups.passBegins →
    exec (.dsSeparatorDetected lane samples) s = .next (u.beginDs lane k)
    ∧ ((u.beginDs lane k).lane lane).inDs = true ∧ ((u.beginDs lane k).lane lane).next = 0 ∧ ((u.beginDs lane k).lane lane).expect = 600
    ∧ ((u.beginDs lane k).lane lane).cands = [])
  ∧ (s.groupOn lane = true → ∀ slot samples,
    (∀ cause, s.laneDead lane = some cause → (s.lane lane).inDs = true → (s.lane lane).next = slot →
      exec (.syncWindowClose lane slot samples) s = .next (s.missRow lane slot cause))
    ∧ (s.laneDead lane = none → ∀ t l, t = s.hear lane samples → l = t.lane lane → l.inDs = true → l.next = slot →
        l.expected slot + 16 + 40 - 480 ≤ (l.bits.length : Int) →
      (l.late = true → exec (.syncWindowClose lane slot samples) s = .next (t.missRow lane slot 5))
      ∧ (∀ kept, l.late = false → kept = (rankCands l.par.sync (markCands patSync l.bits (l.expected slot) 16)).take 2 →
        (kept = [] → exec (.syncWindowClose lane slot samples) s = .next (((((((t.modLane lane (fun l => { l with missRun := l.missRun + 1 })).bumpPv
              pTRC_SYNC_MISS lane 1).modSp (fun p => { p with chan := NMap.bumpSat (2 ^ 32 - 1) p.chan (8 * lane + 2) 1 })).modLane lane (fun l =>
            { l with next := slot + 1, expect := l.expected slot, expects := l.expects ++ [l.expected slot], cands := [], framed := 0, ptrs := [] })).erasedRow
              lane slot 4)).laneEnd lane))
        ∧ (kept ≠ [] → exec (.syncWindowClose lane slot samples) s = .next (t.modLane lane (fun m =>
            { m with
              next := slot + 1
              expect := l.expected slot
              expects := m.expects ++ [l.expected slot]
              cands := kept
              framed := 0
              ptrs := []
              missRun := 0 }))))))
  ∧ (s.laneOn lane = true → ∀ samples t l, t = s.hear lane samples → l = t.lane lane → l.lost = false →
    (l.inDs = true → 256 < l.unlocked → l.cands = [] → exec (.lockLost lane samples) s =
      .next (((((List.range (8 - l.next)).foldl (fun (u : State) k => u.erasedRow lane (l.next + k) 5) t).modLane lane (fun l =>
        { l with locked := false, lost := true, reload := true, next := 8 })).search lane).raise lane 2 []))
    ∧ (l.inDs = true → 256 < l.unlocked → l.cands ≠ [] → exec (.lockLost lane samples) s =
      .next (((((List.range (8 - (l.next - 1))).foldl (fun (u : State) k => u.erasedRow lane (l.next - 1 + k) 5) t).modLane lane (fun l =>
        { l with locked := false, lost := true, reload := true, next := 8 })).search lane).raise lane 2 []))
    ∧ (l.inDs = false → 0 < l.missRun → l.par.loss ≤ l.missRun → exec (.lockLost lane samples) s =
      .next (((t.modLane lane (fun l => { l with locked := false, lost := true, reload := true, next := 8 })).search lane).raise lane 1 [])))
  ∧ (s.laneOn lane = true → ∀ samples t l x xs, t = s.hear lane samples → l = t.lane lane → l.sig.done = x :: xs →
    (∀ u ps slot, l.cands ≠ [] → l.next = slot + 1 → x.counted = false → ps = (u.lane lane).spanPtrs lane x →
        u = (t.bumpPv pTRC_DO_CNT lane 1).modSp (fun p => { p with chan := NMap.bumpSat (2 ^ 32 - 1) p.chan (8 * lane + 3) 1 }) →
      (ps.any (fun p => p.whole) = false → exec (.dropoutSpan lane slot x.kind x.first x.last samples) s =
        .next (((u.modLane lane (fun l => { l with ptrs := l.ptrs ++ ps })).sendPtrs ps).modLane lane (fun m =>
          { m with sig := { m.sig with done := (l.spanRest x).toList ++ xs } })))
      ∧ (ps.any (fun p => p.whole) = true → exec (.dropoutSpan lane slot x.kind x.first x.last samples) s =
        .next ((((u.modLane lane (fun l => { l with ptrs := l.ptrs ++ ps })).sendPtrs ps).raise lane 5 []).modLane lane (fun m =>
          { m with sig := { m.sig with done := (l.spanRest x).toList ++ xs } }))))
    ∧ (∀ slot, l.cands = [] → l.inDs = false → x.counted = false → exec (.dropoutSpan lane slot x.kind x.first x.last samples) s =
      .next (((t.bumpPv pTRC_DO_CNT lane 1).modSp (fun p => { p with chan := NMap.bumpSat (2 ^ 32 - 1) p.chan (8 * lane + 3) 1 })).modLane lane (fun m =>
        { m with sig := { m.sig with done := xs } }))))

/-- On a lane that is on, inside a data set, at the slot just closed, the next kept candidate whose bits are there is framed: its 972 bytes are taken from
the bits with the inserted ones removed, the second half from the best resync candidate, and the row goes as a packet with read tag, offset, distance,
zone, time and erasure state into the data FIFO of its engine group; with the last candidate the row is over, the adapted gain, offset and asymmetry
stay as they are, and after slot 7 the data set ends. While the pointer FIFO and the FIFO of its rows flow, decoding takes what they hold; with no row
of the slot nothing else changes; a row of another copy is dropped; an alignment confirms the lane's position, and when its header fits the lane,
slot, wrap and format its C1 results are counted: while recording they are given to the verify tally of its copy, while reading the row goes into the
capture. (05_read_channel.md, 06_decoding_and_recovery.md) -/
def Obligations.RowsAreFramedAndDecoded : Prop :=
  ∀ (s : State) (lane slot : Nat),
  (s.laneOn lane = true → ∀ cand samples timeNs gain offset asym t l u ps rs (pkt : RowPkt) v, t = s.hear lane samples → l = t.lane lane → l.inDs = true → l.next = slot + 1 →
    cand < l.cands.length → l.framed = cand → l.expect + (l.cands.getD cand (0, 0)).1 - 120 + 8203 - 480 ≤ (l.bits.length : Int) →
    u = (if cand = 0 then t.tellRow lane else t) → ps = (u.lane lane).ptrs.filter (fun p => p.cand = cand) → tooMany (ptrBytes ps) = false →
    rs = resyncOf l.par.resync l.bits (l.expect + (l.cands.getD cand (0, 0)).1) →
    pkt = { two := decide (1 < l.cands.length), tag := l.tag.getD 0, bytes := frameRow l.bits (l.expect + (l.cands.getD cand (0, 0)).1) rs
            offset := (l.cands.getD cand (0, 0)).1, dist := (l.cands.getD cand (0, 0)).2
            resync := (match rs with | some r => if r.1 = 0 then 0 else 1 | none => 2), rsOff := (rs.map (fun r => r.1)).getD 0
            zone := l.zone.getD 0, retired := s.sp.retired.contains lane, erased := ps.any (fun p => p.whole), variant := s.variantNow
            time := timeNs % 2 ^ 32 } →
    v = (u.feed (36 + lane / 32) (pkt.packet lane slot cand)).1.modLane lane (fun m => { m with framed := cand + 1 }) →
    (cand + 1 < l.cands.length → exec (.rowFramed lane slot cand samples timeNs gain offset asym) s = .next v)
    ∧ (∀ m cur, cand + 1 = l.cands.length → m = v.lane lane → m.adapt gain offset asym = (cur, false) → 100 * m.sig.clipped ≤ m.sig.samples →
      exec (.rowFramed lane slot cand samples timeNs gain offset asym) s = .next ((v.modLane lane (fun m =>
        { m with
          cur := cur
          boundRun := 0
          cands := []
          framed := 0
          ptrs := []
          sig := { m.sig with samples := 0, clipped := 0, paused := 0 } })).laneEnd lane)))
  ∧ (s.flows 79 = true → s.flows (36 + lane / 32) = true → ∀ t, t = s.intake (lane / 32) →
    (t.rowTag lane slot = none → exec (.rowDecode lane slot) s = .next t)
    ∧ (∀ tag, t.rowTag lane slot = some tag →
      ((t.recording = true ∧ t.copyOf tag = none) ∨ (t.recording = false ∧ tag < readTag t.rc.wrap t.rc.pos) →
        exec (.rowDecode lane slot) s = .next (t.dropRow lane slot tag))
      ∧ (∀ a u, (if t.recording then (t.copyOf tag).isSome else decide (tag = readTag t.rc.wrap t.rc.pos)) = true → t.retiredThen lane = false →
          chooseAlign lane slot (t.align lane slot (t.expectSeq tag) 0) (t.align lane slot (t.expectSeq tag) 1) = some a →
          u = (t.dropRow lane slot tag).modLane lane (fun l =>
            if l.tag = some tag && decide (slot < l.expects.length) && l.confirmed.all (fun c => decide (c.1 < slot)) then
              { l with confirmed := some (slot, l.expects.getD slot 0 + a.pkt.offset) }
            else l) →
        (headerFits a.head lane slot = false → exec (.rowDecode lane slot) s = .next u)
        ∧ (headerFits a.head lane slot = true → a.head.wrap = tag / 2 ^ 20 → (fmtKind a.head.fmt).isSome = true →
          (t.recording = true → u.pn pTRC_CAL_EN = 0 → exec (.rowDecode lane slot) s = .next ((u.countC1 lane a).modSp (fun p =>
            { p with started := p.started.map (fun x =>
                if readTag x.wrap x.pos = tag && x.result.isNone then
                  { x with good := setSlot x.good lane slot, c1Fail := if a.failed != 0 then setSlot x.c1Fail lane slot else x.c1Fail }
                else x) })))
          ∧ (t.recording = false → u.calibrating = false → u.pn pTRC_CAL_EN = 0 →
            exec (.rowDecode lane slot) s = .next ((u.countC1 lane a).modRc (fun r =>
              { r with
                cap := NMap.put r.cap (128 * a.head.sds + a.head.row) (Row.mk a.head.seq a.head.fmt a.head.sds a.head.row (rowInfo a.words)) })))))
      ∧ ((if t.recording then (t.copyOf tag).isSome else decide (tag = readTag t.rc.wrap t.rc.pos)) = true → t.retiredThen lane = false →
        t.align lane slot (t.expectSeq tag) 0 = none → t.align lane slot (t.expectSeq tag) 1 = none → ∀ c, t.chooseFailed lane slot = some c →
        exec (.rowDecode lane slot) s = .next ((t.dropRow lane slot tag).modRc (fun r =>
          { r with failedHdr := NMap.put r.failedHdr (8 * lane + slot) c })))))

/-- A servo frame timeout of a moving tape forgets the lane's error and raises its event with cause 1. A position word with a right check takes its
position for the lane, the third wrong one in a row forgets it and raises its event with cause 2. A speed measurement without a usable mark pair is no
speed; else the speed is the median, signed by direction. A preamplifier transaction answered rightly within three replies clears the module's error,
and the third wrong reply counts an error and raises EVT 0x47D. A preamplifier fault is class 0x0C, is kept until released, and raises the module's
event with cause 6. A servo frame of a mark that is not usable moves its lane on; a usable one takes the lateral error, the time and the amplitude
into its lane and clears its run of outliers. (05_read_channel.md, 07_control_engine.md) -/
def Obligations.ServoCommandsAct : Prop :=
  ∀ (s : State) (lane : Nat),
  (s.moves = true → exec (.servoFrameTimeout lane) s =
    .next (((s.modServo lane (fun x => { x with err := none })).lateralSample).raise (0x4C0 + lane) 1 []))
  ∧ (∀ bits t, wordOk bits = true → t = (s.modServo lane (fun x =>
      { x with tpn := some (wordTpn bits), frame := if 0 < s.tapeDir then 79 else 0, crcRun := 0 })).reportPos →
    (s.ctl.tsub ≠ .probing → exec (.tapePositionWord lane bits) s = .next t)
    ∧ (t.ctl.tsub = .probing → t.ctl.probeTpn = false → 0 < t.ctl.dir → 8 * wordTpn bits + 1000 ≤ 772728 →
      exec (.tapePositionWord lane bits) s = .next (t.modCtl (fun c => { c with probeTpn := true }))))
  ∧ (∀ bits, wordOk bits = false → (s.servo lane).crcRun < 2 → exec (.tapePositionWord lane bits) s =
    .next ((s.modServo lane (fun x => { x with crcRun := (s.servo lane).crcRun + 1 })).reportPos))
  ∧ (∀ bits, wordOk bits = false → (s.servo lane).crcRun = 2 → exec (.tapePositionWord lane bits) s =
    .next ((((s.modServo lane (fun x => { x with crcRun := 3, tpn := none })).raise (0x4C0 + lane) 2 [])).reportPos))
  ∧ (s.ctl.tsub ≠ .dynamic → ∀ reverse marks v,
    (marks.filterMap laneSpeed = [] → exec (.speedMeasurement reverse marks) s = .next (s.modRc (fun r => { r with speedOk := false })))
    ∧ (marks.filterMap laneSpeed ≠ [] → v = median (marks.filterMap laneSpeed) → v ≠ 0 → exec (.speedMeasurement reverse marks) s =
      .next ((s.modRc (fun r => { r with speed := if reverse then -v else v, speedOk := true })).modCtl (fun c => { c with movedAt := s.mag.ticks })))
    ∧ (marks.filterMap laneSpeed ≠ [] → median (marks.filterMap laneSpeed) = 0 → exec (.speedMeasurement reverse marks) s =
      .next (s.modRc (fun r => { r with speed := if reverse then -0 else 0, speedOk := true }))))
  ∧ (∀ m reg data replies x, s.rc.hmcFlt.contains m = false → (replies.take 3).find? (replyOk false reg data) = some x → reg ≠ 0 →
    exec (.preampTransaction m false reg data replies) s = .next (s.modRc (fun r => { r with hmcBad := r.hmcBad.filter (· != m) })))
  ∧ (∀ m data replies x, s.rc.hmcFlt.contains m = false → (replies.take 3).find? (replyOk true 0x40 data) = some x →
    exec (.preampTransaction m true 0x40 data replies) s =
      .next ((s.modRc (fun r => { r with hmcBad := r.hmcBad.filter (· != m) })).setElem pTRC_PA_STAT m (x / 256 % 256)))
  ∧ (∀ m rd data replies x, s.rc.hmcFlt.contains m = false → (replies.take 3).find? (replyOk rd 0 data) = some x →
    exec (.preampTransaction m rd 0 data replies) s = .next (s.modRc (fun r =>
      { r with hmcBad := r.hmcBad.filter (· != m), preamp := NMap.put r.preamp m (x / 256 % 256) })))
  ∧ (∀ m rd reg data a b c rest, s.rc.hmcFlt.contains m = false → (([a, b, c] : List Nat).find? (replyOk rd reg data)) = none →
    exec (.preampTransaction m rd reg data (a :: b :: c :: rest)) s =
      .next (((s.modRc (fun r => { r with hmcBad := if r.hmcBad.contains m then r.hmcBad else r.hmcBad ++ [m] })).bumpPv pCTL_HMC_ERR m 1).raise 0x47D
            (if !rd && reg = 0 then 2 else 1) (leBytes 1 m)))
  ∧ (∀ m status, s.rc.hmcFlt.contains m = false → exec (.preampFault m status) s =
      .next ((((s.noteFault 0x0C).modRc (fun r => { r with hmcFlt := r.hmcFlt ++ [m] })).setElem pTRC_PA_STAT m (status % 256)).raise (32 * m) 6
        (leBytes 1 status)))
  ∧ (∀ m, exec (.hmcFltRelease m) s = .next (s.modRc (fun r => { r with hmcFlt := r.hmcFlt.filter (· != m) })))
  ∧ (∀ mark timeNs a b, 3 ≤ mark → ∃ u, u = (s.modServo lane (fun _ => (s.servo lane).advance (decide (0 < s.tapeDir)) (mark = 2))).lateralSample
      ∧ exec (.servoFrame lane mark timeNs a b) s = .next ((u.modServo lane (fun y => { y with outRun := y.outRun })).reportPos))
  ∧ (∀ mark timeNs a b x d u, mark < 3 → 0 < a + b → x = (s.servo lane).advance (decide (0 < s.tapeDir)) (mark = 2) →
    s.pn pTRC_SVO_AMIN * x.amps.sum ≤ 100 * (a + b) * x.amps.length → x.ref * (((a + b) :: x.amps).take 256).length ≤ 2 * 256 * (((a + b) :: x.amps).take 256).sum →
    d = lateralOf x.k a b → u = (s.modServo lane (fun _ =>
      { x with
        k := d.2
        err := some (d.1 - s.lateralTarget d.2)
        time := timeNs
        amps := ((a + b) :: x.amps).take 256 })).lateralSample →
    u.lateralErrs.any (fun e => e.1 = lane && decide (s.pn pTRC_SVO_OUTL < (e.2 - median (u.lateralErrs.map Prod.snd)).natAbs)) = false →
    exec (.servoFrame lane mark timeNs a b) s = .next ((u.modServo lane (fun y => { y with outRun := 0 })).reportPos))

/-- A completed capture of a pass that is not at its last position goes on with the next position; a data read stores it, a calibration pass stores
nothing; at the last position the pass ends. A reread starts for a ready ladder while its read waits first and the tape can move: the tape moves to
the copy window before the group, with the read variant of the pass. Expiry of the retry time of a ladder in a pass is noted and one not in a pass is
decided at once. The next record that has not been decompressed is decompressed when the holding memory has room and its FIFOs flow; the first that
has been and is whole is checked: when the CRC fits, its LBAs are there in plain, else they fail with class 0x13, counted and journalled.
(06_decoding_and_recovery.md, 09_compression.md) -/
def Obligations.ReadPassesAct : Prop :=
  ∀ s : State,
  (∀ p, s.rc.pass = some p → s.decoding = true → s.recording = false →
    (∀ u, p.kind = 0 → u = s.noteTaken.capture.modRc (fun r => { r with cap := [], failedHdr := [], pos := r.pos + 1 }) →
      (u.rc.pos ≤ p.last → exec .captureComplete s = .next ((u.readAll).goOn)) ∧ (p.last < u.rc.pos → exec .captureComplete s = .next (u.endReadPass p)))
    ∧ (p.kind = 1 → ∀ u, u = s.capture.modRc (fun r => { r with cap := [], failedHdr := [], pos := r.pos + 1 }) →
      (u.rc.pos ≤ p.last → exec .captureComplete s = .next ((u.readAll).goOn)) ∧ (p.last < u.rc.pos → exec .captureComplete s = .next (u.endReadPass p)))
    ∧ (p.kind = 3 → s.rc.pos + 1 ≤ p.last → exec .captureComplete s =
      .next (((s.modRc (fun r => { r with cap := [], failedHdr := [], pos := r.pos + 1 })).readAll).goOn)))
  ∧ (∀ seq l g w a b, seq < 2 ^ 32 → NMap.find? s.rc.ladders seq = some l → l.ready = true → s.rc.pass = none → s.ctl.after = none → s.lateralOkToMove = true →
    s.ctl.tsub ≠ .braked → s.readSpan seq = some (g, w, a, b) → ∀ r rest, s.ctl.tasks = .read r :: rest → exec (.rereadPassStart seq) s = .next
      ((((((s.tapeState .locating).beginVariant (rereadVariant l.passes)).modRc (fun r =>
          { r with
            pass := some { kind := 1, group := g, last := min (wrapPositions - 1) (b + s.pn pTRC_COPY_WIN), running := false }
            wrap := w
            pos := a - s.pn pTRC_COPY_WIN
            took := []
            ladders := (s.openLadders g).foldl (fun (m : NMap Ladder) k => NMap.modify m k (fun x => { x with inPass := true })) r.ladders })).modCtl (fun c =>
          { c with tasks := .read seq :: c.tasks.filter (fun k => k != .read seq) })).startMove (.position w (a - s.pn pTRC_COPY_WIN))).modCtl
        (fun c => { c with stage := 1 })))
  ∧ (∀ seq l, seq < 2 ^ 32 → NMap.find? s.rc.ladders seq = some l → l.first = true →
    ∀ t, t = s.modRc (fun r => { r with ladders := NMap.put r.ladders seq { l with expired := true } }) →
      (l.inPass = true → exec (.retryTimeExpiry seq) s = .next t)
      ∧ (l.inPass = false → exec (.retryTimeExpiry seq) s = .next (((t.ladderLook seq).readAll.settleHost).afterRead 1 (t.dsGroup seq))))
  ∧ (∀ r, s.rc.recs.find? (fun r => !r.decoded) = some r → s.flows 52 = true → s.flows (53 + r.engine) = true →
    s.holdUsed + 4096 * beAt r.header 0x0C 4 ≤ 2 ^ 20 * s.pn pTRC_HOLD_MIB → ∀ out, out = (if r.whole then r.decompress else none) →
    exec .recordDecompressStart s = .next (((s.passBytes (53 + r.engine) r.body.length).modRc (fun x =>
      { x with recs := x.recs.map (fun y => if y = r then { y with out := out, decoded := true } else y) })).bumpPv pCMP_DOUT_BYTES r.engine
        (out.elim 0 List.length)))
  ∧ (s.flows 61 = true → ∀ r t, s.rc.recs.find? (fun r => r.decoded && r.whole) = some r →
    t = s.modRc (fun x => { x with recs := x.recs.filter (fun y => y != r) }) →
    (∀ b, r.out = some b → crc32c b = beAt r.header 0x30 4 →
      exec .recordCrcCheck s = .next ((((t.passBytes 61 b.length).modRc (fun x =>
        { x with plain := (List.range (beAt r.header 0x0C 4)).foldl (fun (m : NMap Bytes) i =>
            NMap.put m (beAt r.header 0x10 8 + i) (slice b (4096 * i) 4096)) x.plain })).readAll).goOn))
    ∧ (∀ b, r.out = some b → crc32c b ≠ beAt r.header 0x30 4 → exec .recordCrcCheck s = .next ((((t.bumpPv pCMP_DCRC_FAIL 0 1).recFails
        (beAt r.header 0x10 8) (beAt r.header 0x0C 4) 0x13 r.ds).readAll).goOn))
    ∧ (r.out = none → exec .recordCrcCheck s = .next ((((t.bumpPv pCMP_STRUCT_ERR 0 1).recFails
        (beAt r.header 0x10 8) (beAt r.header 0x0C 4) 0x13 r.ds).readAll).goOn)))

/-- At the sample instant of a slot its parameters take effect, a re-arm asked for is tried, its sample is latched and tested and the clock goes on; a
slot that is off does nothing more, one that holds repeats its hold output, and an armed one runs its cascade and the observers. Every super-frame
updates the radius, the tension steps, the ramps and the limiter; a reversal whose limits have come to rest begins a dwell, and a dwell that ends
counts a reversal. The end of the substitution of a substituted slot puts it in hold. A re-arm of a slot that Ringmaster writes is asked for until the
slot's next sample instant; a host's Parameter Write of it that passes its checks notes the write, asks for it and completes. With the tape under
tension two faulty reel drive links (cause 1), or both reel slots in hold with no estimate (cause 2), or in DRAIN the bank below its minimum while the
tape moves (cause 3), make an emergency stop: every slot of the reels not in hold goes off, the reels are braked dynamically and shorted, the position
and its retained copy are forgotten, and EVT 0x47B tells the cause. Without its condition an emergency stop does nothing. When the reels braked
dynamically have slowed to 50 mm/s, or after two seconds, the mechanical brake follows. (07_control_engine.md, 08_transport_sequences.md) -/
def Obligations.ControlLoopCommandsAct : Prop :=
  (∀ s : State,
  (∀ slot t, slot ≤ 5 → t = ((((s.applyPend (s.sampleGroup slot)).rearmLook slot).agePeriod slot).latchAndTest slot).clockUpdate slot →
    ((t.slot slot).st = .off → exec (.slotSampleInstant slot) s = .next t)
    ∧ ((t.slot slot).st = .hold → t.ctl.tsub ≠ .releasing → exec (.slotSampleInstant slot) s = .next (t.holdOut slot))
    ∧ ((t.slot slot).st = .armed → t.ctl.tsub ≠ .releasing → slot ≠ 4 ∨ (t.slot 4).closed = true →
      exec (.slotSampleInstant slot) s = .next ((t.runSlot slot).observers slot)))
  ∧ (∀ t, t = (((((((s.applyPend (fun p i => (groupOf p i).1 = pCTL_RAD_MIN)).radiusUpdate).tensionStep).sweepStep).rampStep).probeStep).limiter).wrapStep →
    (t.ctl.reversing = false → t.ctl.tsub ≠ .probing → t.ctl.rel = none → exec .limiterUpdate s = .next t)
    ∧ (t.ctl.reversing = true → t.ctl.vlim = 0 → t.ctl.alim = 0 → t.ctl.dwell = false → t.ctl.tsub ≠ .probing → t.ctl.rel = none →
      exec .limiterUpdate s = .next (t.modCtl (fun c =>
        { c with dwell := true, reversing := true, hit := false, tsub := if c.tsub.moves then .dwell else c.tsub }))))
  ∧ (s.ctl.dwell = true → exec .dwellEnd s = .next ((s.modCtl (fun c =>
      { c with
        dwell := false
        reversing := false
        lastDir := 0
        stillFor := 100
        tsub := if c.tsub = .dwell then .moving else c.tsub })).bumpPv pCTL_REV_CNT 0 (if s.ctl.reversing then 1 else 0)))
  ∧ (∀ slot, (s.slot slot).subst = true → exec (.substitutionEnd slot) s = .next (((s.modSlot slot (fun z =>
      { z with st := .hold, subst := false, cause := (s.slot slot).cause })).holdOut slot).raise (0x460 + slot) (s.slot slot).cause (leBytes 1 slot)))
  ∧ (∀ slot, exec (.ctlRearm none slot) s = .next ((s.modSlot slot (fun z => { z with rearm := true })).goOn))
  ∧ (∀ h q t slot, s.AdminRuns h q t → t.writeCheck pCTL_REARM slot [1] = none →
    exec (.ctlRearm (some h) slot) s = .next ((((t.noteWrite pCTL_REARM slot).modSlot slot (fun z => { z with rearm := true })).done q stOk).goOn)))
  ∧ (∀ s : State,
  (∀ cause, s.ctl.tsub.tense = true →
    ((cause = 1 ∧ (s.link 0).fault = true ∧ (s.link 1).fault = true)
      ∨ (cause = 2 ∧ ∀ n, n ≤ 1 → (s.slot n).st = .hold ∧ s.estimate n = none)
      ∨ (cause = 3 ∧ s.mag.st = .drain ∧ s.moves = true ∧ s.pw.bankMv < s.pn pPWR_BANK_MIN)) →
    exec (.emergencyStop cause) s = .next (((([0, 1, 2, 3].foldl (fun (u : State) n => if (u.slot n).st = .hold then u else u.slotOff n) s.endCopy).modCtl (fun c =>
        { c with
          tsub := .dynamic
          scb := true
          held := none
          target := 0
          vlim := 0
          alim := 0
          after := some .emergency
          shuttle := false
          aim := none
          turn := false
          dwell := false
          reversing := false
          sweep := none
          emAt := some s.pw.rtc })).modPw (fun p => { p with retPos := none })).raise 0x47B cause []))
  ∧ (∀ cause, (cause = 1 → (s.link 0).fault = false ∨ (s.link 1).fault = false) → (cause = 2 → (s.slot 0).st ≠ .hold ∨ (s.slot 1).st ≠ .hold) →
    (cause = 3 → s.mag.st ≠ .drain) → exec (.emergencyStop cause) s = .next s)
  ∧ (s.ctl.tsub = .dynamic → s.ctl.brake = false → (s.tapeSpeed < 50000 ∨ ∃ t, s.ctl.emAt = some t ∧ t + 65536 ≤ s.pw.rtc) →
    exec .emergencyBrakeApply s = .next (s.modCtl (fun c => { c with brake := true })))
  ∧ (s.ctl.tsub = .dynamic → 50000 ≤ s.tapeSpeed → (∀ t, s.ctl.emAt = some t → s.pw.rtc < t + 65536) → exec .emergencyBrakeApply s = .next s))

/-- A slot whose sample was tested at its sample instant is not tested again. Else a valid feedback of a watched slot with no excitation and no estimate
clears the slot's loss, freeze and residual counts and changes no slot state; the third invalid period in a row of an armed slot 0 to 3 that is not
substituted declares the loss of its feedback with cause 1. (07_control_engine.md) -/
def Obligations.FeedbackIsSupervised : Prop :=
  ∀ (s : State) (slot : Nat), slot ≤ 5 →
  ((s.slot slot).tested = true → exec (.supervisorFeedbackPeriod slot) s = .next (s.modSlot slot (fun z => { z with tested := false })))
  ∧ ((s.slot slot).tested = false → s.sampleValid slot = true → s.excited slot = false → s.estimate slot = none →
    ∃ t, exec (.supervisorFeedbackPeriod slot) s = .next t
      ∧ (t.slot slot).loss = 0 ∧ (t.slot slot).freeze = 0 ∧ (t.slot slot).resid = 0 ∧ (t.slot slot).valid = true ∧ (t.slot slot).st = (s.slot slot).st
      ∧ t.mag = s.mag ∧ t.car = s.car)
  ∧ ((s.slot slot).tested = false → s.sampleValid slot = false → (s.slot slot).loss = 2 → slot ≤ 3 → (s.slot slot).st = .armed → (s.slot slot).subst = false →
    ∃ t : State, exec (.supervisorFeedbackPeriod slot) s = .next (t.declare slot 1) ∧ (t.slot slot).loss = 3 ∧ (t.slot slot).st = .armed
      ∧ (t.slot slot).subst = false ∧ t.mag = s.mag ∧ t.car = s.car)

/-- A legal edge of an encoder input counts one and notes motion; a simultaneous edge counts none and is an encoder error of cause 1. A shuttle code
sample goes into the history of eight and takes the median of three, or the centre when all eight are 0 or 4,095, with EVT 0x795 cause 1 at the first.
A sample frame of a link that is on asks with the next sequence number; an asserted fault line of it is a link fault, which its slot, when armed,
declares with cause 4; a status frame with a wrong CRC counts and, once a second, raises the link's event with cause 1; a right one is taken. Arming
and software trigger act at once when Ringmaster writes them; a sample while the trace is not armed only drops what waits; an armed trace takes one
sample of its nodes, and one whose samples are done freezes, is counted and raises EVT 0x469 and an asynchronous event. (07_control_engine.md) -/
def Obligations.LinkAndTraceCommandsAct : Prop :=
  ∀ s : State,
  (∀ reel, reel ≤ 1 → ∀ b cycles, (s.encoder reel).a = false → (s.encoder reel).b = b → 100 ≤ cycles → (s.encoder reel).i = true →
    exec (.encoderEdge reel true b true cycles) s = .next ((s.modEnc reel (fun y =>
      { y with
        a := true
        b := b
        i := true
        count := (s.encoder reel).count + (if true != b then 1 else -1)
        cycle := (s.encoder reel).cycle + cycles
        edges := (((s.encoder reel).cycle + cycles, (s.encoder reel).count + (if true != b then 1 else -1)) :: (s.encoder reel).edges).filter
          (fun x => decide ((s.encoder reel).cycle + cycles ≤ x.1 + 160000))
        idle := 0 })).modCtl (fun c => { c with movedAt := s.mag.ticks })))
  ∧ (∀ reel, reel ≤ 1 → ∀ cycles, (s.encoder reel).a = false → (s.encoder reel).b = false → s.withinSecond (s.encoder reel).evtAt = false →
    ∀ t, t = ((s.modEnc reel (fun y => 
      { y with
        a := true
        b := true
        i := false
        count := (s.encoder reel).count + 0
        cycle := (s.encoder reel).cycle + cycles
        edges := (s.encoder reel).edges
        idle := 0 })).modEnc reel
      (fun e => { e with invalid := 1, index := none })).bumpPv pCTL_LINK_ERR (4 + reel) 1 →
      exec (.encoderEdge reel true true false cycles) s = .next ((t.modEnc reel (fun e => { e with evtAt := some s.pw.rtc })).raise (0x474 + reel) 1 []))
  ∧ (∀ raw, ∃ t, exec (.shuttleCodeSample raw) s = .next t ∧ t.ctl.shRaw = (raw :: s.ctl.shRaw).take 8
    ∧ (t.ctl.shFault = false → t.ctl.shCode = median3 (((raw :: s.ctl.shRaw).take 8).getD 0 raw) (((raw :: s.ctl.shRaw).take 8).getD 1 raw)
        (((raw :: s.ctl.shRaw).take 8).getD 2 raw))
    ∧ (t.ctl.shFault = true → t.ctl.shCode = s.pn pCTL_SHTL_CTR))
  ∧ (∀ link, (s.link link).on = true →
    exec (.linkSampleFrame link) s = .next (s.modLink link (fun l => { l with seq := (l.seq + 1) % 16, asked := true }))
    ∧ (∀ t, t = (s.modLink link (fun l => { l with fault := true })).declare (slotOfLink link) 4 → (t.link 0).fault = false ∨ (t.link 1).fault = false →
      exec (.faultLineAsserted link) s = .next t)
    ∧ ((s.slot (slotOfLink link)).st ≠ .armed → 2 ≤ link → (s.link 0).fault = false →
      exec (.faultLineAsserted link) s = .next (s.modLink link (fun l => { l with fault := true }))))
  ∧ (∀ link frame late, (s.link link).on = true → link ≤ 3 → crc8Bits (msbBits 80 (frame / 256)) ≠ frame % 256 → ∀ t, t = s.bumpPv pCTL_LINK_ERR link 1 →
    (s.withinSecond (s.link link).evtAt = true → exec (.linkStatusFrame link frame late) s = .next t)
    ∧ (s.withinSecond (s.link link).evtAt = false → exec (.linkStatusFrame link frame late) s =
      .next ((t.modLink link (fun l => { l with evtAt := some s.pw.rtc })).raise (0x470 + link) 1 [])))
  ∧ (∀ link frame, (s.link link).on = true → link ≤ 1 → crc8Bits (msbBits 80 (frame / 256)) = frame % 256 → bitsOf frame 87 84 = 8 →
    bitsOf frame 83 80 = (s.link link).seq → (s.link link).asked = true → Nat.testBit frame 25 = false →
    exec (.linkStatusFrame link frame false) s = .next ((s.modLink link (fun y =>
      { y with
        asked := false
        fresh := true
        a := s24 (bitsOf frame 79 56)
        b := (bitsOf frame 55 32 : Nat)
        flags := bitsOf frame 31 24 })).modLink link (fun y => { y with fault := false })))
  ∧ exec (.ctlTrcArm none) s = .next s.traceArm.goOn
  ∧ exec (.ctlTrcSoftwareTrigger none) s = .next
      ((s.modCtl (fun c => { c with trace := { c.trace with pending := c.trace.pending ||| 2 ^ 3 } })).goOn)
  ∧ (∀ h q t, s.AdminRuns h q t →
    (t.writeCheck pCTL_TRC_ARM 0 [1] = none → exec (.ctlTrcArm (some h)) s = .next ((((t.noteWrite pCTL_TRC_ARM 0).traceArm).done q stOk).goOn))
    ∧ (t.writeCheck pCTL_TRC_ARM 0 [2] = none →
      exec (.ctlTrcSoftwareTrigger (some h)) s = .next ((((t.noteWrite pCTL_TRC_ARM 0).traceHit 3).done q stOk).goOn)))
  ∧ (s.ctl.trace.st ≠ 1 ∨ s.ctl.trace.left = some 0 →
    exec .traceSample s = .next (s.modCtl (fun c => { c with trace := { c.trace with pending := 0 } })))
  ∧ (s.ctl.trace.st = 1 → s.ctl.trace.left ≠ some 0 → ∃ t, exec .traceSample s = .next t ∧ t.ctl.trace.index = s.ctl.trace.index + 1
    ∧ t.ctl.trace.pending = 0 ∧ t.mag = s.mag ∧ ∃ hit, t.ctl.trace.samples =
      ((s.ctl.trace.sel.map (fun code => s.traceWord code s.ctl.trace.index hit)) :: s.ctl.trace.samples).take 32768
    ∧ t.ctl.trace.left = (if hit then some (32768 - s.ctl.trace.pre) else s.ctl.trace.left.map (· - 1)))
  ∧ (s.ctl.trace.st = 1 → s.ctl.trace.left = some 0 → exec .traceFreeze s = .next (((s.modCtl (fun c =>
      { c with trace := { c.trace with st := 2, freezes := s.ctl.trace.freezes + 1, time := s.rtcSec } })).raise 0x469 1 []).asyncEvent 7 3 0xC3))

/-- A taken Transport Command that its state, context, spool queue, session, lid and argument allow is queued as the activity it asks for; out of those
states it completes with Command Sequence Error, with a bad argument with Invalid Field. Tension on and off and calibrate are for READY, TENSIONED,
PARKED and SERVICE, locate and shuttle also for PLAYBACK and LOCATING, park and eject preparation for every working state, unload and load for SERVICE
with a session. Resume Writing ends the suspension of tape writing in SERVICE at once. (08_transport_sequences.md, 12_host_interface.md) -/
def Obligations.TransportCommandsAreQueued : Prop :=
  ∀ (s t : State) (h : Hdr) (q : Nat), s.AdminRuns h q t →
  (t.mag.st ∈ stillStates → exec (.transportTensionOn h) s = .next ((t.addTask q (.tensionOn (some q))).goOn)
    ∧ (t.readWaits = false → t.queueEmpty = true → exec (.transportTensionOff h) s = .next ((t.addTask q (.tensionOff (some q))).goOn))
    ∧ (t.queueBars = false → exec (.transportCalibrate h 0) s = .next ((t.addTask q (.calibrate (some q))).goOn)))
  ∧ (t.mag.st.working = true → exec (.transportPark h 0) s = .next ((t.addTask q (.park (some q) false)).goOn)
    ∧ exec (.transportEjectPrepare h 0) s = .next ((t.addTask q (.park (some q) true)).goOn)
    ∧ ∀ arg, arg ≠ 0 → exec (.transportPark h arg) s = .next ((t.done q stField).goOn))
  ∧ (t.mag.st.working = false → ∀ arg, exec (.transportPark h arg) s = .next ((t.done q stSequence).goOn)
    ∧ exec (.transportEjectPrepare h arg) s = .next ((t.done q stSequence).goOn))
  ∧ (t.queueBars = false → t.mag.st ∈ locateStates →
    (∀ d11 d12, d11 % 256 ≤ 47 → Nat.testBit d11 31 = false → d12 ≤ 767999 →
      exec (.transportLocate h d11 d12) s = .next ((t.addTask q (.locate (some q) (.position (d11 % 256) d12))).goOn))
    ∧ (∀ d11 d12, d11 % 256 ≤ 47 → Nat.testBit d11 31 = true → 16 ≤ d12 → d12 ≤ 96591 →
      exec (.transportLocate h d11 d12) s = .next ((t.addTask q (.locate (some q) (.tpn (some (d11 % 256)) d12))).goOn))
    ∧ (t.mag.ctx = .dock → exec (.transportShuttle h) s = .next ((t.addTask q (.shuttle (some q))).goOn)))
  ∧ (t.mag.st = .service → t.keys.session = true → exec (.transportServiceUnload h) s = .next ((t.addTask q (.unload (some q))).goOn)
    ∧ (t.pw.lid = false → exec (.transportServiceLoad h) s = .next ((t.addTask q (.load (some q))).goOn))
    ∧ (t.pw.lid = true → exec (.transportServiceLoad h) s = .next ((t.done q stSequence).goOn)))
  ∧ (t.mag.st = .service → t.keys.session = false → exec (.transportServiceUnload h) s = .next ((t.done q stDenied).goOn))
  ∧ (t.mag.st = .service → t.sp.suspended = true → exec (.transportResumeWriting h 0) s = .next ((t.endSuspension.done q stOk).goOn))

/-- On a braked tape with work that needs it, in READY, PARKED or SERVICE, tension-up enters TENSIONED; with the drive rails missing a PGOOD it names the
rail, EVT 0x783 cause 1, and fails with cause 1; with a slot that does not re-arm it fails with cause 2; else it releases brake and short-circuit
braking, turns the links on and arms the reels when the radii are known or probes them. A probe that is done keeps its radii, here and in the retained
memory, and arms the reels; a failed one fails with cause 3. A tension failure settles and brakes the tape, goes to READY, raises EVT 0x478 with its
cause and fails the first activity. Settled tension arms slots 3, 4 and 5, and goes on at the kept position, or looks for one. The tension timeout
turns every slot off and fails with cause 1. (08_transport_sequences.md) -/
def Obligations.TensionSequenceActs : Prop :=
  ∀ s : State,
  (s.ctl.tsub = .braked → s.ctl.stage = 0 → s.ctl.after = none → s.nv.pp = false → s.tapeNeeded = true → s.mag.st = .ready →
    ∀ t w, t = s.tapeState .tensioned → w = (t.modCtl (fun c => { c with railsUp := true })).modPw (fun p =>
        { p with en := p.en % 1024 + 3072, pgood := p.pgood % 1024 + 3072 }) →
      (∀ a b x, t.ctl.railsUp = false → (a && b) = false → x = (t.raise 0x783 1 (leBytes 1 (if a then 11 else 10))).modPw
          (fun p => { p with en := p.en % 1024, pgood := p.pgood % 1024 }) →
        exec (.tensionUp a b) s = .next ((((x.settle.toBraked .ready).raise 0x478 1 []).failHead).serve))
      ∧ (∀ u, w.rearmAll = (false, u) → exec (.tensionUp true true) s = .next ((((u.settle.toBraked .ready).raise 0x478 2 []).failHead).serve))
      ∧ (∀ u v, w.rearmAll = (true, u) → v = (u.linksOn.modCtl (fun c =>
            { c with
              brake := false
              scb := false
              fast := false
              supStop := false
              probed := false
              dwell := false
              reversing := false
              begun := true
              probeTpn := false
              tensFor := 0
              sweep := none
              swept := false
              stage := match c.tasks with | .load _ :: _ => 1 | _ => 0 })).modRc (fun x =>
            { x with servo := x.servo.map (fun e => (e.1, { e.2 with ref := 256 * e.2.amps.sum / max 1 e.2.amps.length })) }) →
          (v.ctl.radiusOk = true → exec (.tensionUp true true) s = .next (((v.armUnlessHeld 0).armUnlessHeld 1).modCtl (fun c =>
            { c with tsub := .tensioning, vlim := 0, alim := 0, target := 0, tensFor := 0 })))
          ∧ (v.ctl.radiusOk = false → exec (.tensionUp true true) s = .next (v.modCtl (fun c => { c with tsub := .probing, dir := v.findDir })))))
  ∧ (s.ctl.tsub = .probing → (∀ a b, exec (.radiusProbeDone true a b) s = .next ((((((s.modCtl (fun c =>
        { c with radius := (a, b), radiusOk := true, radHist := [] })).modPw (fun p => { p with retRadius := some (a, b) })).armUnlessHeld 0).armUnlessHeld 1)).modCtl
          (fun c => { c with tsub := .tensioning, vlim := 0, alim := 0, target := 0, tensFor := 0 })))
    ∧ ∀ a b, exec (.radiusProbeDone false a b) s = .next ((((s.settle.toBraked .ready).raise 0x478 3 []).failHead).serve))
  ∧ (s.ctl.tsub = .tensioning →
    (∀ t, t = (List.range 6).foldl (fun t n => t.slotOff n) s →
      exec .tensionTimeout s = .next ((((t.settle.toBraked .ready).raise 0x478 1 []).failHead).serve))
    ∧ ∀ u t, u = [3, 4, 5].foldl State.armUnlessHeld (if (s.slot 2).st = .off then s.arm 2 else s) →
        t = u.modCtl (fun c => { c with held := u.positionKept, tsub := .held, idleTens := s.pn pCTL_IDLE_TENS }) → t.ctl.tasks = [] →
      (u.positionKept.isSome = true → exec .tensionSettled s = .next t.serve)
      ∧ (u.positionKept = none → exec .tensionSettled s = .next (t.modCtl (fun c =>
          { c with
            tsub := .finding
            sweep := none
            swept := false
            begun := !c.tasks.isEmpty
            dir := t.findDir
            target := t.findDir * t.pn pCTL_FIND_V }))))

/-- A position found while the tape is being found is held, kept with both encoder counts in the retained memory, and the tape is moving. A find that
fails raises EVT 0x479 with its cause, fails the first activity and releases the tape. Arrival at the target settles the tape: a locate goes to
TENSIONED and completes. A locate that takes too long raises EVT 0x47A cause 1, fails and stops. A stop that has come to rest ends as it was to end: a
hold leaves the tape standing with tension. The trapeze re-arms when the lateral error keeps a held tape from moving. An idle TENSIONED tape is
parked; an idle PLAYBACK returns to TENSIONED with no pass. (08_transport_sequences.md, 03_spooling_and_verify.md) -/
def Obligations.PositionAndStopActs : Prop :=
  ∀ s : State,
  (s.ctl.tsub = .finding → (∀ tpn frame boundary, s.ctl.tasks = [] → ∃ t : State, exec (.positionValid tpn frame boundary) s = .next t.serve
      ∧ t.ctl.held = some (80 * tpn + frame, (s.encoder 0).count, (s.encoder 1).count) ∧ t.pw.retPos = t.ctl.held ∧ t.ctl.lastTpn = tpn ∧ t.ctl.tsub = .moving
      ∧ t.rc.pos10 = 80 * tpn + frame)
    ∧ ∀ cause, exec (.findPositionFailed cause) s = .next (((s.raise 0x479 cause []).failHead).stopTape .release false))
  ∧ (s.arrived = true → ∀ c a rest, s.settle.ctl.tasks = .locate c a :: rest →
    exec .locateArrival s = .next (((s.settle.tapeState .tensioned).finishTask 0).serve))
  ∧ (s.ctl.aim.isSome = true → s.moves = true → exec .locateTimeout s = .next (((s.raise 0x47A 1 []).failHead).stopTape .hold false))
  ∧ (s.ctl.tsub = .stopping → s.ctl.vlim = 0 → s.ctl.alim = 0 →
    ∀ t, t = (s.resumePoint.endSubstitutions).modCtl (fun c => { c with after := none }) →
      (s.ctl.after = some .hold → t.settle.stillState.ctl.tasks = [] → exec .stopComplete s = .next t.settle.stillState.serve)
      ∧ (s.ctl.after = some .park → exec .stopComplete s = .next t.settle.serve)
      ∧ (s.ctl.after = some .drain → exec .stopComplete s = .next ((t.settle.slotsOffUnlessHeld [3, 2]).modCtl (fun c =>
        { c with
          tsub := .releasing
          brake := true
          after := none
          rel := some { goal := .drain, left := 100, amps := ((t.settle.link 0).cmd, (t.settle.link 1).cmd) } })))
      ∧ (s.ctl.after = some .lid → exec .stopComplete s = .next ((t.endSequence.dropTapeReads).release .ready).serve))
  ∧ (s.ctl.tsub = .held → s.lateralOkToMove = false → (s.slot 4).st ≠ .hold → (s.slot 5).st ≠ .hold → exec .trapezeAutoRearm s = .next s.serve)
  ∧ (∀ v, s.ctl.tsub = .held → s.lateralOkToMove = false → (s.slot 4).st ≠ .hold → (s.slot 5).st = .hold → s.rearm 5 false = (true, v) →
    exec .trapezeAutoRearm s = .next v.serve)
  ∧ (s.mag.st = .tensioned → s.ctl.tsub = .held → s.ctl.tasks = [] → s.ctl.idleTens ≠ 0 →
    exec .tensionedIdleTimeout s = .next ((s.modCtl (fun c => { c with tasks := [.park none false] })).serve))
  ∧ (s.mag.st = .playback → s.readWaits = false → s.ctl.idlePb ≠ 0 →
    ∃ t, t = (s.enter .tensioned).modRc (fun r => { r with pass := none }) ∧ (t.moves = false → exec .playbackIdleTimeout s = .next t.serve)
      ∧ (t.moves = true → exec .playbackIdleTimeout s = .next (t.stopTape .hold false).serve))
  ∧ (∃ t, t = ((s.modPw (fun p => { p with lid := false })).ringAdd 4 (leBytes 10 (s.free 5))).drawn 1
      ∧ exec (.lidSwChange false) s = .next (t.modMag (fun g => { g with unloaded := false })))
  ∧ (∃ t, t = ((s.modPw (fun p => { p with lid := true })).ringAdd 4 (leBytes 10 (s.free 5))).drawn 1
      ∧ (t.ctl.tasks = [] → t.mag.st = .spooling → t.ctl.after = none → t.moves = true →
        exec (.lidSwChange true) s = .next (t.endCopy.stopTape .lid true)))

/-- With Ringmaster running: a passing status of a unit that is due takes one program off it and clears the failures of its die; a die that times out
raises its event with cause 7 and is retired. A page that is not erased and holds no unit reads as nothing; an erased one whose sectors cannot be
corrected is logged and raises the die's event with cause 3; a page of a unit read at the first attempt keeps its read offset and serves what waits. A
journal commit that is next becomes persistent when the sequence numbers allow it. A checkpoint that is due writes the root record to NOR. A new
program sequence ceiling is in force when both copies were written, and when neither was it notes fault class 8 and raises EVT 0x7F3 cause 2. In a
working state garbage collection empties its victim; every block older than the scrub age is queued for a scrub. The age clock adds 16 s weighted by
the temperature. A loaded host memory buffer is in use. In a working state an extent held finely with at least 48 of its LBAs in flash, not touched
for the fold time and with no unreadable LBA, is written as one large unit of its 256 LBAs, unwritten ones as zeros, and mapped to it, and the fold is
logged; with no room for the unit the sidecar is worn. (11_carousel.md) -/
def Obligations.CarouselCommandsAct : Prop :=
  (∀ s : State,
  (s.mag.st.alive = true →
    (∀ unit u, NMap.find? s.car.units unit = some u → s.statusDue u = true → s.flows 69 = true →
      exec (.pageProgramStatus unit true) s = .next ((((s.pass 69 1 1).modCar (fun c =>
        { c with units := NMap.put c.units unit { u with left := u.left - 1, persisted := u.left = 1 } })).modDie u.die (fun d => { d with fails := 0 })).goOn))
    ∧ (∀ die, s.dieThere die = true → (s.die die).retired = false →
      exec (.dieOperationTimeout die) s = .next (((s.raise (dieEvt die) 7 (dieData die 0 0)).retireDie die).goOn))
    ∧ (∀ die block page errors t n, s.dieThere die = true → t = s.applyPend (fun p _ => p = pCSL_RT_TAB) → n = attemptsMade errors (t.pn pCSL_RETRY_N) 0 →
      (t.unitAt die block page = none → t.pageErased die block page = false → exec (.pageRead die block page errors) s = .next t)
      ∧ (∀ lost, t.unitAt die block page = none → t.pageErased die block page = true →
        lost = (List.range 8).countP (fun j => (List.range n).all (fun k => t.sectorRead false (attemptBits errors k j) = .uncorrectable)) → lost ≠ 0 →
        exec (.pageRead die block page errors) s = .next ((t.carLog 0x40 lost).raise (dieEvt die) 3 (dieData die block page)))
      ∧ (∀ id u, t.unitAt die block page = some (id, u) → n = 1 → (∀ j, j < 8 → attemptBits errors 0 j ≤ 120) →
        (List.range 8).foldl (fun m j => match (List.range n).find? (fun k => decide (attemptBits errors k j ≤ 120)) with
          | some k => max m (attemptBits errors k j)
          | none => m) 0 ≤ t.pn pCSL_SCRUB_BITS →
        exec (.pageRead die block page errors) s = .next (((t.modDie die (fun d =>
          { d with offset := t.readOffset (t.block die block) + t.pn pCSL_RT_STEP * ladderStep 0 })).readAll).goOn)))
    ∧ (∀ i c, s.seqRoom = true → s.nextCommit = some (i, c) →
      (c.index = false → exec .journalRecordPersisted s = .next (((s.commitDone i c).settleRot.readAll).goOn))
      ∧ (c.index = true → s.flows 72 = true → exec .journalRecordPersisted s = .next ((((s.pass 72 1 1).commitDone i c).settleRot.readAll).goOn)))
    ∧ (s.mag.st ≠ .drain → s.seqReady = true → s.pn pCSL_CKPT_MIB * 2 ^ 20 ≤ s.car.sinceCkpt →
      exec .checkpointWrite s = .next ((s.modCar (fun c => { c with sinceCkpt := 0, nv := { c.nv with ckAge := c.age } })).norWrite 2
        (s.rootBytes (s.car.pceil.getD 0)) .boot))
    ∧ (s.mag.st ≠ .drain → s.mag.st ≠ .safe → s.nor.dead = false → s.seqRoom = false →
      ∃ c, c = (s.car.pceil.getD s.car.pseq) + 2 ^ 32
        ∧ exec (.programSequenceCeiling true true) s =
          .next ((((s.putCopies 2 (s.rootBytes c) true true).modCar (fun x => { x with pceil := some c })).sideFlush).goOn)
        ∧ exec (.programSequenceCeiling false false) s = .next (((s.putCopies 2 (s.rootBytes c) false false).noteFault 8).raise 0x7F3 2 [])))
  ∧ (s.mag.st.working = true →
    (∀ k scrub, s.seqReady = true → s.victim = some (k, scrub) → exec .gcRun s =
      .next ((((s.modBlock (k / 65536) (k % 65536) (fun b => { b with use := if b.use = 1 then 2 else b.use })).emptyBlock k
        (if scrub then 0x50 else 0x58)).modCar (fun c => { c with scrub := c.scrub.filter (fun x => x != k) })).goOn))
    ∧ exec .scrub s = .next ((s.car.blocks.filter (fun (e : Nat × Block) => (e.2.use = 1 || e.2.use = 2) && decide (s.pn pCSL_SCRUB_AGE * 86400 ≤ s.blockAge e.2))).foldl
        (fun t (e : Nat × Block) => t.queueScrub e.1 (decide (s.pn pCSL_SCRUB_AGE * 86400 + 30 * 86400 ≤ s.blockAge e.2))) s))
  ∧ (s.pw.aon = true → ∃ t, exec .ageClockStep s = .next t ∧ 2 ^ 32 * t.car.age + t.car.ageFrac =
      2 ^ 32 * s.car.age + s.car.ageFrac + 16 * ageFactor (s.pn pCSL_EA_MEV) s.ageTemp ∧ t = s.modCar (fun _ => t.car))
  ∧ (s.car.hmb = 1 → exec .hmbMapLoadDone s = .next (((s.modCar (fun c => { c with hmb := 2 })).runHmb).goOn)))
  ∧ (∀ (s : State) (extent : Nat) (m : NMap Fine) (touch : Nat), s.mag.st.working = true → NMap.find? s.car.exts extent = some (.fine m touch) →
  48 ≤ m.countP (fun (e : Nat × Fine) => e.2.unit.isSome) → touch + s.pn pCSL_FOLD_S ≤ s.rtcSec →
  ((List.range 256).map (fun k => s.sideRead (256 * extent + k))).contains .unreadable = false → s.seqReady = true →
  ∃ app r, r = s.newUnit .large extent (((List.range 256).map (fun k => s.sideRead (256 * extent + k))).flatMap
      (fun r => match r with | .data b => fitBytes 4096 b | _ => zeroBytes 4096)) [256 * extent, 256, app]
    ∧ (∀ id t, r = some (id, t) → exec (.fold extent) s = .next (((t.setExtent extent (some (.large id)) [id]).carLog 0x60 1).goOn))
    ∧ (r = none → exec (.fold extent) s = .next s.sideWorn.goOn))

/-- In OFF the rise of AON_PORST_N starts Chervil with its clock at 0 and its retained memory lost; a stable crystal is noted. A line of 35 to 64 V
appearing in OFF or ISLAND starts power-up at rail 0; in any other state it is only noted, with EVT 0x780 cause 3; a higher one is counted as a bad
input. The PGOOD of the awaited rail takes power-up to the next one, the last enables the reference, and a settled reference releases the management
domain. A rail without PGOOD in time switches all rails off, raises EVT 0x783 cause 1 and arms the retry, which powers up again. Line loss raises EVT
0x780 cause 1, is logged and starts a DRAIN of class 1; overvoltage raises cause 2. A lost PGOOD in a working state is class 3 on rails 3, 10 and 11,
and cuts the rails as class 5 on rails 4 to 7 and as class 4 on the others. A sealed DRAIN with the reels braked is complete and the rails go off. A
bank below its minimum in DRAIN before the seal cuts the rails; below the island minimum in ISLAND the magazine is in OFF.
(15_power_holdup_chervil.md) -/
def Obligations.RailsCommandsAct : Prop :=
  ∀ s : State,
  (s.mag.st = .off → s.pw.aon = false → ∃ t, exec .aonPorstNRise s = .next t ∧ t.pw.aon = true ∧ t.pw.crystal = false ∧ t.pw.rtc = 0 ∧ t.car.age = 0
    ∧ t.mag = s.mag ∧ t.nor = s.nor)
  ∧ (s.pw.aon = true →
    exec .crystalStable s = .next (s.modPw (fun p => { p with crystal := true }))
    ∧ (∀ mv, 35000 ≤ mv → mv ≤ 64000 → s.pw.line = false → (s.mag.st = .off ∨ s.mag.st = .island) → ∃ t, exec (.linePresent mv) s = .next t ∧ t.mag.st = .boot ∧ t.pw.en = 1
      ∧ t.pw.pgood = 0 ∧ t.pw.mgt = false)
    ∧ (∀ mv, 64000 < mv → exec (.linePresent mv) s = .next (s.modPw (fun p => { p with badInputs := NMap.bump p.badInputs 0 1 })))
    ∧ (∀ mv, 35000 ≤ mv → mv ≤ 64000 → s.pw.line = false → s.mag.st ≠ .off → s.mag.st ≠ .island →
      exec (.linePresent mv) s = .next ((s.modPw (fun p => { p with line := true, lineMv := mv })).chvRaise 0x780 3 []))
    ∧ (s.pw.line = true → exec .lineOvervoltage s = .next (s.chvRaise 0x780 2 [])
      ∧ ∀ t, t = ((s.modPw (fun p => { p with line := false })).chvRaise 0x780 1 []).ringAdd 5 [] →
        (t.mag.st.working = true → exec .lineLoss s = .next (t.interruptTest.startDrain 1))
        ∧ (t.mag.st = .boot → exec .lineLoss s = .next (t.interruptTest.railsOff.afterRails)))
    ∧ (∀ rail, Nat.testBit s.pw.en rail = true → Nat.testBit s.pw.pgood rail = true → s.mag.st.working = true →
      ∀ t, t = ((s.modPw (fun p => { p with pgood := p.pgood - 2 ^ rail })).chvRaise 0x783 2 (leBytes 1 rail)).ringAdd 7 (leBytes 1 rail) →
        ((rail = 3 ∨ 10 ≤ rail) → t.mag.st.working = true → exec (.pgoodLost rail) s = .next (t.interruptTest.startDrain 3))
        ∧ (4 ≤ rail → rail ≤ 7 → exec (.pgoodLost rail) s = .next (t.interruptTest.cutRails 5))
        ∧ ((rail ≤ 2 ∨ rail = 8 ∨ rail = 9) → exec (.pgoodLost rail) s = .next (t.interruptTest.cutRails 4))))
  ∧ (∀ n, s.awaited = some n →
    (n < 9 → exec (.powerUpStep true) s = .next (s.modPw (fun p => { p with pgood := p.pgood ||| 2 ^ n, en := p.en ||| 2 ^ (n + 1), refEn := false })))
    ∧ (n = 9 → exec (.powerUpStep true) s = .next (s.modPw (fun p => { p with pgood := p.pgood ||| 2 ^ n, refEn := true })))
    ∧ exec (.pgoodTimeout n) s = .next ((((s.railsOff).chvRaise 0x783 1 (leBytes 1 n)).ringAdd 7 (leBytes 1 n)).modPw (fun p => { p with retry := true })))
  ∧ (s.mag.st = .boot → s.pw.retry = true → s.pw.line = true → exec .powerUpRetry s = .next s.powerUp)
  ∧ (s.mag.st = .boot → s.pw.refEn = true → s.pw.mgt = false → exec .referenceSettled s = .next (s.modPw (fun p => { p with mgt := true })))
  ∧ (s.drainSealed = true → s.ctl.tsub = .braked →
    exec .drainComplete s = .next (((s.settleLoss.modPw (fun p => { p with drain := 1 })).railsOff).afterRails))
  ∧ (s.mag.st = .drain → s.ctl.tsub = .braked → s.drainSealed = false → exec .bankBelowMinimum s = .next (s.cutRails 2))
  ∧ (s.mag.st = .island → ∃ t, exec .bankBelowIslandMinimum s = .next t ∧ t.pw.aon = false ∧ t.pw.line = false ∧ t.keys.lockout = 0 ∧ t.car.age = 0
    ∧ t.mag = (s.enter .off).mag)

/-- Awake, a bank sample lets the bank group take effect and sets the credit from it. A test that is due, or ordered by Ringmaster, starts charging when
none runs and the bank is in order. A charged bank is loaded; a first sample that has fallen by 2 V or more fails the test with cause 3, another is
kept; charging that takes too long fails with cause 1. At the end of a test within limits the capacity and the series resistance are kept and the test
has passed. Temperature and humidity samples, with their limits, and shocks are taken by Chervil. A composite temperature of 100 degrees or more is
the warning, EVT 0x786 cause 1 with an asynchronous event; a thermal trip starts a DRAIN of class 1 and is remembered. (15_power_holdup_chervil.md) -/
def Obligations.BankTestAndTemperatureAct : Prop :=
  ∀ s : State,
  (s.awake = true → ∀ mv, mv ≤ 64000 →
    (∃ t, t = (s.applyPend (fun p _ => isPwrGroup p)).modPw (fun p => { p with bankMv := mv }) ∧ exec (.creditRecompute mv) s = .next (t.setCredit t.creditNow))
    ∧ (s.pw.test = .idle → Nat.testBit s.mag.why 0 = false →
      exec (.bankTestStart mv) s = .next ((s.modPw (fun p => { p with bankMv := mv })).modPw (fun p => { p with test := .charging, testAge := 0 }))
      ∧ exec (.pwrTestNow none) s = .next ((s.modPw (fun p => { p with test := .charging, testAge := 0 })).goOn)))
  ∧ (∀ h q t u, s.AdminRuns h q t → t.writeCheck pPWR_TEST_NOW 0 [1] = none → u = t.noteWrite pPWR_TEST_NOW 0 → u.awake = true → u.pw.test = .idle →
    Nat.testBit u.mag.why 0 = false →
    exec (.pwrTestNow (some h)) s = .next (((u.modPw (fun p => { p with test := .charging, testAge := 0 })).done q stOk).goOn))
  ∧ (s.pw.test = .charging →
    (∀ mv, s.pn pPWR_BANK_FULL ≤ mv + 1000 → exec (.bankTestCharged mv) s = .next (s.modPw (fun p => { p with bankMv := mv, test := .loaded mv, testPin := true })))
    ∧ exec .bankTestChargeTimeout s = .next (((s.modPw (fun p =>
      { p with test := .idle, testPin := false, passed := false, failed := true, testFails := min 255 (p.testFails + 1) })).raise 0x781 1 []).setCredit 0))
  ∧ (∀ v0 mv, s.pw.test = .loaded v0 →
    (mv + 2000 ≤ v0 → exec (.bankTestV1Sample mv) s = .next ((s.modPw (fun p => { p with bankMv := mv })).testFail 3))
    ∧ (v0 < mv + 2000 → exec (.bankTestV1Sample mv) s =
      .next ((s.modPw (fun p => { p with bankMv := mv })).modPw (fun p => { p with test := .sampled v0 mv }))))
  ∧ (∀ v0 v1 mv us, s.pw.test = .sampled v0 v1 → (100000 ≤ us ∨ mv + 2000 ≤ v0) → mv < v1 → s.pn pPWR_RTEST ≠ 0 →
    s.pn pPWR_C_MIN * (capOf v1 mv (s.pn pPWR_RTEST) us).2 ≤ (capOf v1 mv (s.pn pPWR_RTEST) us).1 →
    (esrOf v0 v1 (s.pn pPWR_RTEST)).1 ≤ s.pn pPWR_ESR_MAX * 1000 * (esrOf v0 v1 (s.pn pPWR_RTEST)).2 →
    ∃ t, exec (.bankTestEnd mv us) s = .next t ∧ t.pw.test = .idle ∧ t.pw.passed = true ∧ t.pw.failed = false ∧ t.pw.testFails = 0
      ∧ t.pw.cap = capOf v1 mv (s.pn pPWR_RTEST) us ∧ t.pw.esr = esrOf v0 v1 (s.pn pPWR_RTEST) ∧ t.pw.bankMv = mv)
  ∧ (s.pw.aon = true →
    (∀ (c : Int) hum shocks, -4000 ≤ c → c ≤ 12500 → exec (.temperatureSample (some c) hum shocks) s =
      .next (State.noteThreshold s ((((s.applyPend (fun p _ => p = pCHV_TEMP_MIN || p = pCHV_TEMP_MAX)).takeTemp (c / 10)).takeHumidity hum).takeShock shocks)))
    ∧ (∀ hum shocks, exec (.temperatureSample none hum shocks) s =
      .next (State.noteThreshold s ((((s.applyPend (fun p _ => p = pCHV_TEMP_MIN || p = pCHV_TEMP_MAX)).badTemp).takeHumidity hum).takeShock shocks)))
    ∧ ∀ x y z, exec (.shockInterrupt x y z) s = .next (s.takeShock [x.natAbs, y.natAbs, z.natAbs]))
  ∧ (s.pw.mgt = true → s.mag.st.alive = true →
    (∀ deci, 970 ≤ deci → deci < 1000 →
      exec (.compositeTemperatureSample deci) s = .next ((State.noteThreshold s (s.modPw (fun p => { p with tj := deci, tjPeak := max p.tjPeak deci }))).goOn))
    ∧ (∀ deci, 1000 ≤ deci → deci < 1050 → s.pw.thermal = 0 → exec (.compositeTemperatureSample deci) s =
      .next ((State.noteThreshold s ((((s.modPw (fun p => { p with tj := deci, tjPeak := max p.tjPeak deci })).modPw
        (fun p => { p with thermal := 1 })).raise 0x786 1 []).asyncEvent 1 1 2)).goOn))
    ∧ (s.mag.st.working = true → exec .thermalTrip s = .next (((s.modPw (fun p => { p with tripped := true })).interruptTest).startDrain 1)))

/-- With the rails up and nothing left to wait for, BOOT runs its steps; a failed self-test halts the magazine. In SERVICE, with neither a check nor a
seal running, a value of the import register that is not refused acts when Ringmaster writes it; written by a host that passes the checks of a
Parameter Write, a check acts and the command completes, and a value that the register refuses completes with Parameter Busy; a seal of an imported
profile without fault starts the writes of the profile area. A lockstep mismatch forces K to 0, notes fault class 9 and raises EVT 0x7F1 with cause 1
the first and 2 the second time; in BOOT and DRAIN nothing else. An uncorrectable error of a buffer channel notes fault class 6, or 5 in DRAIN, and
raises EVT 0x7F2 with the channel; in SAFE nothing else. (16_startup_and_profile.md, 18_faults_and_guarantees.md) -/
def Obligations.BootAndRestartAct : Prop :=
  ∀ s : State,
  (∀ env : BootEnv, s.mag.st = .boot → s.pw.mgt = true → s.mag.halted = false → s.bootWaits env = false → s.mag.restart = 0 →
    (env.selfTest = false → exec (.bootSequence env) s = .next (s.modMag (fun g => { g with halted := true, step := 0 })))
    ∧ (env.selfTest = true → env.testMode = 0 → ∀ a, a = (s.bootStart env).bootNor env → a.nor.dead = true → a.hasCause = true →
      exec (.bootSequence env) s = .next (((((((a.bootPosition none).bootTrain env).bootTest).bootCarousel env false).bootRing).bootTake).bootEnd)))
  ∧ (s.nor.impBusy = 0 → s.mag.st = .service →
    (s.impRefused 1 = false → exec (.bootImportCheck none) s = .next (s.importCheck.goOn))
    ∧ (s.impRefused 2 = false → exec (.bootImportSeal none) s = .next (s.importSeal.goOn))
    ∧ (s.impRefused 3 = false → exec (.bootImportRestart none) s = .next (s.restartDevice.goOn))
    ∧ (s.impRefused 4 = false → exec (.bootImportAcceptLoss none) s = .next (s.acceptLoss.goOn)))
  ∧ (∀ h q t, s.AdminRuns h q t →
    (t.writeCheck pBOOT_IMP_CTL 0 [1] = none → t.impRefused 1 = false →
      exec (.bootImportCheck (some h)) s = .next ((((t.noteWrite pBOOT_IMP_CTL 0).importCheck).done q stOk).goOn))
    ∧ (t.writeCheck pBOOT_IMP_CTL 0 [2] = none → t.impRefused 2 = false →
      exec (.bootImportSeal (some h)) s = .next ((((t.noteWrite pBOOT_IMP_CTL 0).importSeal).done q stOk).goOn))
    ∧ (t.writeCheck pBOOT_IMP_CTL 0 [3] = none → t.impRefused 3 = false →
      exec (.bootImportRestart (some h)) s = .next ((((t.noteWrite pBOOT_IMP_CTL 0).restartDevice).done q stOk).goOn))
    ∧ (t.writeCheck pBOOT_IMP_CTL 0 [4] = none → t.impRefused 4 = false →
      exec (.bootImportAcceptLoss (some h)) s = .next ((((t.noteWrite pBOOT_IMP_CTL 0).acceptLoss).done q stOk).goOn))
    ∧ (t.writeCheck pBOOT_IMP_CTL 0 [4] = none → t.impRefused 4 = true →
      exec (.bootImportAcceptLoss (some h)) s = .next ((t.complete q stParamBusy 0 0 []).goOn)))
  ∧ (∀ t, s.importFault = none → s.nor.dead = false → s.nor.impBusy = 0 → s.mag.st = .service → s.impRefused 2 = false →
    t = s.modNor (fun n => { n with impBusy := 2, impStat := (4, 0, 0) }) →
    exec (.bootImportSeal none) s = .next ((t.norWrite 0 (s.sealedProfile s.imported) .profile).goOn))
  ∧ (s.mag.st = .drain ∨ s.mag.st = .boot → s.mag.st.alive = true → s.pw.mgt = true → s.mag.mismatch = none → exec .lockstepMismatch s =
    .next ((((s.modPw (fun p => { p with force0 := true })).noteFault 9).raise 0x7F1 1 []).modMag (fun g => { g with mismatch := some 0 })))
  ∧ (s.mag.st = .ready → s.pw.mgt = true → ∀ t b, b = s.mag.mismatch.isSome → t = (((s.modPw (fun p => { p with force0 := true })).noteFault 9).raise 0x7F1
        (if b then 2 else 1) []).modMag (fun g => { g with mismatch := if b then g.mismatch else some 0, heldFault := g.heldFault || b }) →
    (b = true → exec .lockstepMismatch s = .next ((((t.flushWhere (fun _ w => w.acked)).endTape).modMag (fun g => { g with restart := 3 })).goOn))
    ∧ (b = false → exec .lockstepMismatch s =
      .next (((((t.flushWhere (fun _ w => w.acked)).endTape).restartReset).modMag (fun g => { g with restart := 2 })).goOn)))
  ∧ (s.mag.st = .safe → s.pw.mgt = true → ∀ channel, channel < 4 →
    exec (.bufferUncorrectableError channel) s = .next ((s.noteFault 6).raise 0x7F2 (channel + 1) []))
  ∧ (s.mag.st = .ready → s.pw.mgt = true → ∀ channel, channel < 4 →
    exec (.bufferUncorrectableError channel) s = .next (((((((((s.noteFault 6).raise 0x7F2 (channel + 1) []).latchLoss 6).modPw
      (fun p => { p with force0 := true })).bufferLost.endTape).restartReset).modMag (fun g => { g with restart := 1 }))).goOn))

/-- With Ringmaster running: an event goes as a packet into the FIFO of its source, and a packet that is complete there is counted, and journalled when
EVT_CTL says so and the second's rate allows it; at the end of a second each suppressed event gets its summary and the counts of the second start
again; outside DRAIN the event records are given to the journal; the used percentage is computed; and a health record is written once 600 s of use
have passed since the last. When the second copy of an area's NOR write has been programmed, outside DRAIN, the copy is stored if it was good, the
write is over, and what waited for it goes on, told whether one copy was good. (17_background_and_health.md, 16_startup_and_profile.md) -/
def Obligations.EventsAndHealthAct : Prop :=
  ∀ s : State, s.mag.st.alive = true →
  (∀ evt cause data u n, n = 80 + evt % 2048 / 256 → u = (s.feed n (eventPacket (evt % 2048) (cause % 16) data)).1 →
    (s.feed n (eventPacket (evt % 2048) (cause % 16) data)).2 = false →
    (∀ f, (u.fifo n).takePackets (u.pni pSFQ_CT_THRESH n) = ([], f) → exec (.eventRecord evt cause data) s = .next (u.modFifo n (fun _ => f)))
    ∧ (∀ f p e c d t, (u.fifo n).takePackets (u.pni pSFQ_CT_THRESH n) = ([p], f) → eventOf p = (e, c, d) → t = u.modFifo n (fun _ => f) →
      (t.evtCtl e = 0 → e ≠ 0x7F0 →
        exec (.eventRecord evt cause data) s = .next (t.modEv (fun v => { v with count := NMap.bumpSat (2 ^ 32 - 1) v.count e 1 })))
      ∧ (t.evtCtl e = 1 → e ≠ 0x7F0 → NMap.get 0 t.ev.inSec e < t.ev.rate →
        exec (.eventRecord evt cause data) s = .next (((t.modEv (fun v => { v with count := NMap.bumpSat (2 ^ 32 - 1) v.count e 1 })).modEv (fun v =>
          { v with inSec := NMap.bump v.inSec e 1 })).journal e c false d))))
  ∧ (exec .eventRateSecondEnd s = .next ((s.ev.suppSec.foldl (fun t (e : Nat × Nat) => t.summary e.1 e.2) s).modEv (fun v =>
      { v with inSec := [], suppSec := [], rate := s.pn pEVT_RATE })))
  ∧ (s.mag.st ≠ .drain → ∀ es, es = s.ev.unsaved.filter (fun e => !s.eventsQueued.contains e.seq) →
    (es ≠ [] → exec .eventJournalPersist s = .next ((s.mapCommit (es.map .event) []).goOn)) ∧ (es = [] → exec .eventJournalPersist s = .next s.goOn))
  ∧ (∀ m pct, m = s.lifeMax → pct = min 255 (100 * m.1.1 / m.1.2) →
    (pct < 90 → exec .percentageUsedCompute s = .next (s.modEv (fun v => { v with life := (pct, m.2) })))
    ∧ (90 ≤ pct → pct < 100 → Nat.testBit s.ev.lifeEvt 0 = false → exec .percentageUsedCompute s =
      .next (((s.modEv (fun v => { v with life := (pct, m.2) })).modEv (fun v => { v with lifeEvt := v.lifeEvt ||| 2 ^ 0 })).raise 0x608 1 [])))
  ∧ (s.mag.st ≠ .drain → s.ev.headSaved + 600 * 32768 ≤ s.ev.headTicks → exec .healthRecordWrite s =
    .next ((s.norWrite 4 s.healthRecord .plain).modEv (fun v => { v with headSaved := v.headTicks })))
  ∧ (s.mag.st ≠ .drain → ∀ area (o : NorOp), s.nor.ops.find? (fun o => o.area = area) = some o →
    (∀ r, o.r0 = some r → exec (.norProgramComplete area (1 - o.first) true) s = .next (((((s.putCopy area (1 - o.first) o.data r).modNor (fun n =>
        { n with ops := n.ops.erase o })).norDone area o.data o.act true).settleRot).goOn)
      ∧ exec (.norProgramComplete area (1 - o.first) false) s = .next ((((s.modNor (fun n =>
        { n with ops := n.ops.erase o })).norDone area o.data o.act r).settleRot).goOn))
    ∧ (o.r0 = none → area ≠ 1 → ∀ ok, exec (.norProgramComplete area o.first ok) s = .next (((if ok then s.putCopy area o.first o.data false else s).modNor (fun n =>
        { n with ops := n.ops.map (fun x => if x = o then { o with r0 := some ok, data := o.data } else x) })).goOn)))

/-- A read of a FIFO of the device whose head holds no readable word, with no producer waiting, delivers the not-valid word (V = 0, E = 0, C = 0, a zero
payload: none in the model), and moves no pointer and no counter: the FIFO, but for the word delivered, every other FIFO and every other part of the
state are as before. (R104) -/
def Obligations.NotReadableReadChangesNothing : Prop :=
  ∀ (s : State) (n : Nat), fifoExists n = true → (s.fifo n).held = [] → fifoReadable n (s.fifo n) = false →
  ∃ t, exec (.fifoRead n) s = .next t ∧ t.fifo n = { s.fifo n with out := none } ∧ (∀ k, k ≠ n → t.fifo k = s.fifo k) ∧ t = { s with fifos := t.fifos }

/-- On FIFO 66, with no producer held, pointers counted in words behind L: ADVANCE moves M past the next end-marked word at or after M and before P;
REWIND_MARK sets P to M; RELEASE k, for 1 to 64 end marks that lie before M, moves L past k of them and frees those words; REWIND_RELEASE sets P and M
to L. ADVANCE with M at P, and a RELEASE of a number outside 1 to 64 or that would move L past M, are refused: every pointer stays, the
refused-operation bit is set and EVT 0x442 is raised with the fill. (R108) -/
def Obligations.RetentionOperationsActAsTheTableSays : Prop :=
  ∀ s : State, (s.fifo 66).held = [] →
  (∀ j, (s.fifo 66).m ≤ j → j < (s.fifo 66).p → (s.fifo 66).p ≤ (s.fifo 66).words.length →
    (∀ i w, (s.fifo 66).m ≤ i → i < j → (s.fifo 66).words[i]? = some w → w.last = false) → ((s.fifo 66).words[j]?.map (fun w => w.last)) = some true →
    ∃ t, exec .fifoAdvance s = .next t ∧ t.fifo 66 = { s.fifo 66 with m := j + 1 } ∧ t = { s with fifos := t.fifos })
  ∧ (∃ t, exec .fifoRewindMark s = .next t ∧ t.fifo 66 = { s.fifo 66 with p := (s.fifo 66).m, headRead := 0 } ∧ t = { s with fifos := t.fifos })
  ∧ (∃ t, exec .fifoRewindRelease s = .next t ∧ t.fifo 66 = { s.fifo 66 with p := 0, m := 0, headRead := 0 } ∧ t = { s with fifos := t.fifos })
  ∧ (∀ k j w, 1 ≤ k → k ≤ 64 → j < (s.fifo 66).m → (s.fifo 66).words[j]? = some w → w.last = true →
    ((s.fifo 66).words.take (j + 1)).countP (fun x => x.last) = k →
    ∃ t, exec (.fifoRelease k) s = .next t ∧ t.fifo 66 =
        { s.fifo 66 with
          words := (s.fifo 66).words.drop (j + 1)
          lp := (s.fifo 66).lp + (j + 1)
          m := (s.fifo 66).m - (j + 1)
          p := (s.fifo 66).p - (j + 1) }
      ∧ t = { s with fifos := t.fifos })
  ∧ ((s.fifo 66).m = (s.fifo 66).p → ∃ t, exec .fifoAdvance s = .next t
    ∧ t.fifo 66 = { s.fifo 66 with sticky := (s.fifo 66).sticky ||| 4 }
    ∧ t = (s.modFifo 66 (fun f => { f with sticky := f.sticky ||| 4 })).raise 0x442 3 (leBytes 4 (s.fifo 66).fill))
  ∧ (∀ k, k = 0 ∨ 64 < k ∨ ((s.fifo 66).words.take (s.fifo 66).m).countP (fun x => x.last) < k → ∃ t, exec (.fifoRelease k) s = .next t
    ∧ t.fifo 66 = { s.fifo 66 with sticky := (s.fifo 66).sticky ||| 4 }
    ∧ t = (s.modFifo 66 (fun f => { f with sticky := f.sticky ||| 4 })).raise 0x442 3 (leBytes 4 (s.fifo 66).fill))

/-- Row r of SDS s lies in slot s div 4 on channel 32·((r + k) mod 16) + 4·(r div 16) + (s mod 4), and the inverse the device uses gives back s and r. The
inverse is the formula of the rule, gives an SDS and a row of a DS for each of the 512 × 8 pairs of channel and slot, and the mapping leads back to
the pair: a bijection. (R48) -/
def Obligations.RowsArePlacedByABijection : Prop :=
  (∀ s r : Nat, s < 32 → r < 128 → chanOf s r = 32 * ((r + s / 4) % 16) + 4 * (r / 16) + s % 4 ∧ chanOf s r < 512 ∧ s / 4 < 8
    ∧ rowAt (chanOf s r) (s / 4) = (s, r))
  ∧ (∀ c k : Nat, c < 512 → k < 8 →
    rowAt c k = (4 * k + c % 4, 16 * (c % 32 / 4) + (c / 32 + 16 - k) % 16)
    ∧ (rowAt c k).1 < 32 ∧ (rowAt c k).2 < 128 ∧ (rowAt c k).1 / 4 = k ∧ chanOf (rowAt c k).1 (rowAt c k).2 = c)

/-- Among the allowed ways of a requester, the effective ones whose bit its mask has: if one holds no valid line, the lowest-numbered such way is chosen;
otherwise the least recent one, the way than which the matrix shows every other allowed way as more recent. A requester with no allowed way does not
allocate: a read miss delivers the buffer's bytes, a write miss writes its bytes to the buffer, and a hit in a way of the set is served and counted as
for any other requester. (R386) -/
def Obligations.AllocationTakesTheRuledWay : Prop :=
  (∀ (s : State) (q w : Nat), w ∈ s.allowedWays q ↔ w < 16 ∧ Nat.testBit s.cache.ways w = true ∧ Nat.testBit (s.pni pCCA_WMASK q) w = true)
  ∧ (∀ (s : State) (q : Nat) (c : CSet) (w : Nat), w ∈ s.allowedWays q → NMap.find? c.lines w = none →
    (∀ u ∈ s.allowedWays q, NMap.find? c.lines u = none → w ≤ u) → c.choose (s.allowedWays q) = some w)
  ∧ (∀ (s : State) (q : Nat) (c : CSet) (v : Nat), v ∈ s.allowedWays q → (∀ u ∈ s.allowedWays q, (NMap.find? c.lines u).isSome = true) →
    (∀ u ∈ s.allowedWays q, u ≠ v → newerWay c.order u v = true) →
    c.choose (s.allowedWays q) = some v)
  ∧ (∀ (s : State) (r : CReq), (s.bumpPv pCCA_MISSES r.q 1).allowedWays r.q = [] →
    (r.wr = false → s.startMiss r = (s.bumpPv pCCA_MISSES r.q 1).cacheOut (((s.bumpPv pCCA_MISSES r.q 1).bufLine r.line).drop (r.addr % 64)))
    ∧ (r.wr = true → s.startMiss r = (s.bumpPv pCCA_MISSES r.q 1).putLine r.line
        (lineWrite ((s.bumpPv pCCA_MISSES r.q 1).bufLine r.line) (r.addr % 64) r.data)))
  ∧ (∀ (s : State) (r : CReq) (w : Nat) (x : CLine), s.lookup r.line = .way w → NMap.find? (s.cset r.line).lines w = some x →
    s.serveHit r = some ((((s.useLine r x).2.install r.line w (s.useLine r x).1 true).2).bumpPv pCCA_HITS r.q 1))

/-- If in every FIFO the pointers are in queue order, L ≤ M ≤ P ≤ W, so they are after every step that answers a next state. (04_stream_fifos.md) -/
def Obligations.FifoPointersStayInOrder : Prop :=
  ∀ s t : State, s.FifosOrdered → step s = .next t → t.FifosOrdered

/-- If every layer of the parameter space has strictly rising keys and the buffer behind the cluster cache is in canonical form, so it is after every step
that answers a next state. (19_parameter_space.md, 14_cluster_cache.md) -/
def Obligations.CanonicalFormsAreKept : Prop :=
  ∀ s t : State, s.ParamsRising ∧ s.BufferCanonical → step s = .next t → t.ParamsRising ∧ t.BufferCanonical

/-- A write, a read or a retention operation of any FIFO changes nothing but the FIFOs, the events and what an event changes in the host interface: the
magazine, the tape, the read channel, the control engine, the keys, the Carousel, the compute cluster, the buffer and every line of the cache, power,
the NOR and the parameters are as before. (04_stream_fifos.md) -/
def Obligations.FramesOfFifoCommands : Prop :=
  ∀ (s t : State) (i : Instr), (∃ n p l c, i = .fifoWrite n p l c) ∨ (∃ n, i = .fifoRead n) ∨ i = .fifoAdvance ∨ i = .fifoRewindMark ∨ (∃ k, i = .fifoRelease k)
      ∨ i = .fifoRewindRelease → exec i s = .next t →
    t.mag = s.mag ∧ t.sp = s.sp ∧ t.rc = s.rc ∧ t.ctl = s.ctl ∧ t.keys = s.keys ∧ t.car = s.car ∧ t.comp = s.comp ∧ t.cache = s.cache ∧ t.pw = s.pw
      ∧ t.nor = s.nor ∧ t.params = s.params ∧ t.staged = s.staged ∧ t.presets = s.presets ∧ t.pending = s.pending
end

