-- ==== Sys2Proof/Laws/NMap.lean ====
section
/-! SUPPORT. Laws of sparse arrays: a read after a write, and that every operation keeps the canonical form. -/

namespace Sys2Proof.Machine

set_option Elab.async false

variable {α : Type}

@[simp] theorem NMap.find?_nil (k : Nat) : NMap.find? ([] : NMap α) k = none := rfl

/-! ### A read after a write -/

@[simp] theorem NMap.find?_put_same (m : NMap α) (k : Nat) (v : α) : NMap.find? (NMap.put m k v) k = some v := by
  induction m with
  | nil => simp [NMap.put, NMap.find?]
  | cons e m ih =>
    obtain ⟨j, w⟩ := e
    unfold NMap.put
    split
    · simp [NMap.find?]
    · split
      · simp [NMap.find?]
      · next h1 h2 => simp [NMap.find?, Ne.symm h2, ih]

theorem NMap.find?_put_other (m : NMap α) {k i : Nat} (v : α) (h : i ≠ k) : NMap.find? (NMap.put m k v) i = NMap.find? m i := by
  induction m with
  | nil => simp [NMap.put, NMap.find?, Ne.symm h]
  | cons e m ih =>
    obtain ⟨j, w⟩ := e
    unfold NMap.put
    split
    · simp [NMap.find?, Ne.symm h]
    · split
      · next h1 h2 => subst h2; simp [NMap.find?, Ne.symm h]
      · simp [NMap.find?, ih]

theorem NMap.find?_del_same (m : NMap α) (k : Nat) : NMap.find? (NMap.del m k) k = none := by
  induction m with
  | nil => rfl
  | cons e m ih =>
    obtain ⟨j, w⟩ := e
    unfold NMap.del at *
    by_cases h : j = k
    · simpa [List.filter, h] using ih
    · rw [List.filter_cons_of_pos (by simpa using h)]; simp [NMap.find?, h, ih]

theorem NMap.find?_del_other (m : NMap α) {k i : Nat} (h : i ≠ k) : NMap.find? (NMap.del m k) i = NMap.find? m i := by
  induction m with
  | nil => rfl
  | cons e m ih =>
    obtain ⟨j, w⟩ := e
    unfold NMap.del at *
    by_cases hj : j = k
    · subst hj; simpa [List.filter, NMap.find?, Ne.symm h] using ih
    · rw [List.filter_cons_of_pos (by simpa using hj)]; simp [NMap.find?, ih]

@[simp] theorem NMap.get_put_same (d : α) (m : NMap α) (k : Nat) (v : α) : NMap.get d (NMap.put m k v) k = v := by
  simp [NMap.get]

theorem NMap.get_put_other (d : α) (m : NMap α) {k i : Nat} (v : α) (h : i ≠ k) : NMap.get d (NMap.put m k v) i = NMap.get d m i := by
  simp [NMap.get, NMap.find?_put_other m v h]

@[simp] theorem NMap.get_set_same [DecidableEq α] (d : α) (m : NMap α) (k : Nat) (v : α) : NMap.get d (NMap.set d m k v) k = v := by
  unfold NMap.set
  split
  · next h => simp [NMap.get, NMap.find?_del_same, h]
  · simp

theorem NMap.get_set_other [DecidableEq α] (d : α) (m : NMap α) {k i : Nat} (v : α) (h : i ≠ k) : NMap.get d (NMap.set d m k v) i = NMap.get d m i := by
  unfold NMap.set
  split
  · simp [NMap.get, NMap.find?_del_other m h]
  · exact NMap.get_put_other d m v h

@[simp] theorem NMap.get_upd_same [DecidableEq α] (d : α) (m : NMap α) (k : Nat) (f : α → α) : NMap.get d (NMap.upd d m k f) k = f (NMap.get d m k) := by
  simp [NMap.upd]

theorem NMap.get_upd_other [DecidableEq α] (d : α) (m : NMap α) {k i : Nat} (f : α → α) (h : i ≠ k) : NMap.get d (NMap.upd d m k f) i = NMap.get d m i := by
  simp [NMap.upd, NMap.get_set_other d m _ h]

/-! ### Members -/

theorem NMap.mem_put {m : NMap α} {k : Nat} {v : α} {e : Nat × α} (h : e ∈ NMap.put m k v) : e = (k, v) ∨ e ∈ m := by
  induction m with
  | nil => simpa [NMap.put] using h
  | cons x m ih =>
    obtain ⟨j, w⟩ := x
    unfold NMap.put at h
    split at h
    · simpa using h
    · split at h
      · rcases List.mem_cons.mp h with h | h
        · exact Or.inl h
        · exact Or.inr (List.mem_cons_of_mem _ h)
      · rcases List.mem_cons.mp h with h | h
        · exact Or.inr (h ▸ List.mem_cons_self)
        · rcases ih h with h | h
          · exact Or.inl h
          · exact Or.inr (List.mem_cons_of_mem _ h)

theorem NMap.mem_del {m : NMap α} {k : Nat} {e : Nat × α} (h : e ∈ NMap.del m k) : e ∈ m := (List.mem_filter.mp h).1

theorem NMap.mem_set [DecidableEq α] {d : α} {m : NMap α} {k : Nat} {v : α} {e : Nat × α} (h : e ∈ NMap.set d m k v) : e = (k, v) ∨ e ∈ m := by
  unfold NMap.set at h
  split at h
  · exact Or.inr (NMap.mem_del h)
  · exact NMap.mem_put h

theorem NMap.find?_mem {m : NMap α} {k : Nat} {v : α} (h : NMap.find? m k = some v) : (k, v) ∈ m := by
  induction m with
  | nil => simp at h
  | cons x m ih =>
    obtain ⟨j, w⟩ := x
    unfold NMap.find? at h
    split at h
    · next hj => subst hj; cases h; exact List.mem_cons_self
    · exact List.mem_cons_of_mem _ (ih h)

/-! ### The canonical form -/

/-- Keys strictly rising, said of the tail: the head's key is below every other. -/
theorem NMap.rising_cons {j : Nat} {w : α} {m : NMap α} : NMap.rising ((j, w) :: m) = true ↔ (∀ e ∈ m, j < e.1) ∧ NMap.rising m = true := by
  induction m generalizing j w with
  | nil => simp [NMap.rising]
  | cons x m ih =>
    obtain ⟨k, v⟩ := x
    have hk := @ih k v
    simp only [NMap.rising, Bool.and_eq_true, decide_eq_true_eq, List.mem_cons, forall_eq_or_imp]
    constructor
    · rintro ⟨h1, h2⟩
      exact ⟨⟨h1, fun e he => Nat.lt_trans h1 ((hk.mp h2).1 e he)⟩, h2⟩
    · rintro ⟨⟨h1, _⟩, h3⟩
      exact ⟨h1, h3⟩

theorem NMap.rising_put {m : NMap α} (k : Nat) (v : α) (h : NMap.rising m = true) : NMap.rising (NMap.put m k v) = true := by
  induction m with
  | nil => rfl
  | cons x m ih =>
    obtain ⟨j, w⟩ := x
    have hc := NMap.rising_cons.mp h
    unfold NMap.put
    split
    · next hlt =>
      refine NMap.rising_cons.mpr ⟨?_, h⟩
      intro e he
      rcases List.mem_cons.mp he with rfl | he
      · exact hlt
      · exact Nat.lt_trans hlt (hc.1 e he)
    · split
      · next _ heq => subst heq; exact NMap.rising_cons.mpr hc
      · next h1 h2 =>
        refine NMap.rising_cons.mpr ⟨?_, ih hc.2⟩
        intro e he
        rcases NMap.mem_put he with rfl | he
        · show j < k
          omega
        · exact hc.1 e he

theorem NMap.rising_filter {m : NMap α} (p : Nat × α → Bool) (h : NMap.rising m = true) : NMap.rising (List.filter p m) = true := by
  induction m with
  | nil => rfl
  | cons x m ih =>
    obtain ⟨j, w⟩ := x
    have hc := NMap.rising_cons.mp h
    rw [List.filter_cons]
    split
    · exact NMap.rising_cons.mpr ⟨fun e he => hc.1 e (List.mem_filter.mp he).1, ih hc.2⟩
    · exact ih hc.2

theorem NMap.rising_del {m : NMap α} (k : Nat) (h : NMap.rising m = true) : NMap.rising (NMap.del m k) = true := NMap.rising_filter _ h

theorem NMap.rising_foldl_put {β : Type} (key : β → Nat) (val : β → α) (l : List β) {m : NMap α} (h : NMap.rising m = true) :
    NMap.rising (l.foldl (fun (a : NMap α) b => NMap.put a (key b) (val b)) m) = true := by
  induction l generalizing m with
  | nil => exact h
  | cons b l ih => exact ih (NMap.rising_put _ _ h)

theorem NMap.wf_iff [DecidableEq α] {d : α} {m : NMap α} : NMap.wf d m = true ↔ NMap.rising m = true ∧ ∀ e ∈ m, e.2 ≠ d := by
  simp [NMap.wf]

theorem NMap.wf_set [DecidableEq α] {d : α} {m : NMap α} (k : Nat) (v : α) (h : NMap.wf d m = true) : NMap.wf d (NMap.set d m k v) = true := by
  rw [NMap.wf_iff] at *
  unfold NMap.set
  split
  · exact ⟨NMap.rising_del k h.1, fun e he => h.2 e (NMap.mem_del he)⟩
  · next hv =>
    refine ⟨NMap.rising_put k v h.1, fun e he => ?_⟩
    rcases NMap.mem_put he with rfl | he
    · exact hv
    · exact h.2 e he

theorem NMap.wf_upd [DecidableEq α] {d : α} {m : NMap α} (k : Nat) (f : α → α) (h : NMap.wf d m = true) : NMap.wf d (NMap.upd d m k f) = true :=
  NMap.wf_set k _ h

theorem NMap.wf_putRun [DecidableEq α] {d : α} (vs : List α) {m : NMap α} (k : Nat) (h : NMap.wf d m = true) : NMap.wf d (NMap.putRun d m k vs) = true := by
  induction vs generalizing m k with
  | nil => exact h
  | cons v vs ih => exact ih (k + 1) (NMap.wf_set k v h)

end Sys2Proof.Machine
end

