-- ==== Sys2Proof/Laws/State.lean ====
section
/-! SUPPORT. What each update of the state leaves in each of its fields: one lemma per field and update, true by unfolding. -/

namespace Sys2Proof.Machine

set_option Elab.async false

/-! ### `State.modMag` -/

@[simp] theorem State.modMag_pending (s : State) (f : Mag → Mag) : (s.modMag f).pending = s.pending := rfl
@[simp] theorem State.modMag_mag (s : State) (f : Mag → Mag) : (s.modMag f).mag = f s.mag := rfl
@[simp] theorem State.modMag_params (s : State) (f : Mag → Mag) : (s.modMag f).params = s.params := rfl
@[simp] theorem State.modMag_staged (s : State) (f : Mag → Mag) : (s.modMag f).staged = s.staged := rfl
@[simp] theorem State.modMag_pend (s : State) (f : Mag → Mag) : (s.modMag f).pend = s.pend := rfl
@[simp] theorem State.modMag_wrote (s : State) (f : Mag → Mag) : (s.modMag f).wrote = s.wrote := rfl
@[simp] theorem State.modMag_presets (s : State) (f : Mag → Mag) : (s.modMag f).presets = s.presets := rfl
@[simp] theorem State.modMag_nv (s : State) (f : Mag → Mag) : (s.modMag f).nv = s.nv := rfl
@[simp] theorem State.modMag_sp (s : State) (f : Mag → Mag) : (s.modMag f).sp = s.sp := rfl
@[simp] theorem State.modMag_fifos (s : State) (f : Mag → Mag) : (s.modMag f).fifos = s.fifos := rfl
@[simp] theorem State.modMag_rc (s : State) (f : Mag → Mag) : (s.modMag f).rc = s.rc := rfl
@[simp] theorem State.modMag_ctl (s : State) (f : Mag → Mag) : (s.modMag f).ctl = s.ctl := rfl
@[simp] theorem State.modMag_keys (s : State) (f : Mag → Mag) : (s.modMag f).keys = s.keys := rfl
@[simp] theorem State.modMag_car (s : State) (f : Mag → Mag) : (s.modMag f).car = s.car := rfl
@[simp] theorem State.modMag_comp (s : State) (f : Mag → Mag) : (s.modMag f).comp = s.comp := rfl
@[simp] theorem State.modMag_cache (s : State) (f : Mag → Mag) : (s.modMag f).cache = s.cache := rfl
@[simp] theorem State.modMag_pw (s : State) (f : Mag → Mag) : (s.modMag f).pw = s.pw := rfl
@[simp] theorem State.modMag_nor (s : State) (f : Mag → Mag) : (s.modMag f).nor = s.nor := rfl
@[simp] theorem State.modMag_ev (s : State) (f : Mag → Mag) : (s.modMag f).ev = s.ev := rfl
@[simp] theorem State.modMag_freeCtr (s : State) (f : Mag → Mag) : (s.modMag f).freeCtr = s.freeCtr := rfl

/-! ### `State.modNv` -/

@[simp] theorem State.modNv_pending (s : State) (f : Nvme → Nvme) : (s.modNv f).pending = s.pending := rfl
@[simp] theorem State.modNv_mag (s : State) (f : Nvme → Nvme) : (s.modNv f).mag = s.mag := rfl
@[simp] theorem State.modNv_params (s : State) (f : Nvme → Nvme) : (s.modNv f).params = s.params := rfl
@[simp] theorem State.modNv_staged (s : State) (f : Nvme → Nvme) : (s.modNv f).staged = s.staged := rfl
@[simp] theorem State.modNv_pend (s : State) (f : Nvme → Nvme) : (s.modNv f).pend = s.pend := rfl
@[simp] theorem State.modNv_wrote (s : State) (f : Nvme → Nvme) : (s.modNv f).wrote = s.wrote := rfl
@[simp] theorem State.modNv_presets (s : State) (f : Nvme → Nvme) : (s.modNv f).presets = s.presets := rfl
@[simp] theorem State.modNv_nv (s : State) (f : Nvme → Nvme) : (s.modNv f).nv = f s.nv := rfl
@[simp] theorem State.modNv_sp (s : State) (f : Nvme → Nvme) : (s.modNv f).sp = s.sp := rfl
@[simp] theorem State.modNv_fifos (s : State) (f : Nvme → Nvme) : (s.modNv f).fifos = s.fifos := rfl
@[simp] theorem State.modNv_rc (s : State) (f : Nvme → Nvme) : (s.modNv f).rc = s.rc := rfl
@[simp] theorem State.modNv_ctl (s : State) (f : Nvme → Nvme) : (s.modNv f).ctl = s.ctl := rfl
@[simp] theorem State.modNv_keys (s : State) (f : Nvme → Nvme) : (s.modNv f).keys = s.keys := rfl
@[simp] theorem State.modNv_car (s : State) (f : Nvme → Nvme) : (s.modNv f).car = s.car := rfl
@[simp] theorem State.modNv_comp (s : State) (f : Nvme → Nvme) : (s.modNv f).comp = s.comp := rfl
@[simp] theorem State.modNv_cache (s : State) (f : Nvme → Nvme) : (s.modNv f).cache = s.cache := rfl
@[simp] theorem State.modNv_pw (s : State) (f : Nvme → Nvme) : (s.modNv f).pw = s.pw := rfl
@[simp] theorem State.modNv_nor (s : State) (f : Nvme → Nvme) : (s.modNv f).nor = s.nor := rfl
@[simp] theorem State.modNv_ev (s : State) (f : Nvme → Nvme) : (s.modNv f).ev = s.ev := rfl
@[simp] theorem State.modNv_freeCtr (s : State) (f : Nvme → Nvme) : (s.modNv f).freeCtr = s.freeCtr := rfl

/-! ### `State.modSp` -/

@[simp] theorem State.modSp_pending (s : State) (f : Spool → Spool) : (s.modSp f).pending = s.pending := rfl
@[simp] theorem State.modSp_mag (s : State) (f : Spool → Spool) : (s.modSp f).mag = s.mag := rfl
@[simp] theorem State.modSp_params (s : State) (f : Spool → Spool) : (s.modSp f).params = s.params := rfl
@[simp] theorem State.modSp_staged (s : State) (f : Spool → Spool) : (s.modSp f).staged = s.staged := rfl
@[simp] theorem State.modSp_pend (s : State) (f : Spool → Spool) : (s.modSp f).pend = s.pend := rfl
@[simp] theorem State.modSp_wrote (s : State) (f : Spool → Spool) : (s.modSp f).wrote = s.wrote := rfl
@[simp] theorem State.modSp_presets (s : State) (f : Spool → Spool) : (s.modSp f).presets = s.presets := rfl
@[simp] theorem State.modSp_nv (s : State) (f : Spool → Spool) : (s.modSp f).nv = s.nv := rfl
@[simp] theorem State.modSp_sp (s : State) (f : Spool → Spool) : (s.modSp f).sp = f s.sp := rfl
@[simp] theorem State.modSp_fifos (s : State) (f : Spool → Spool) : (s.modSp f).fifos = s.fifos := rfl
@[simp] theorem State.modSp_rc (s : State) (f : Spool → Spool) : (s.modSp f).rc = s.rc := rfl
@[simp] theorem State.modSp_ctl (s : State) (f : Spool → Spool) : (s.modSp f).ctl = s.ctl := rfl
@[simp] theorem State.modSp_keys (s : State) (f : Spool → Spool) : (s.modSp f).keys = s.keys := rfl
@[simp] theorem State.modSp_car (s : State) (f : Spool → Spool) : (s.modSp f).car = s.car := rfl
@[simp] theorem State.modSp_comp (s : State) (f : Spool → Spool) : (s.modSp f).comp = s.comp := rfl
@[simp] theorem State.modSp_cache (s : State) (f : Spool → Spool) : (s.modSp f).cache = s.cache := rfl
@[simp] theorem State.modSp_pw (s : State) (f : Spool → Spool) : (s.modSp f).pw = s.pw := rfl
@[simp] theorem State.modSp_nor (s : State) (f : Spool → Spool) : (s.modSp f).nor = s.nor := rfl
@[simp] theorem State.modSp_ev (s : State) (f : Spool → Spool) : (s.modSp f).ev = s.ev := rfl
@[simp] theorem State.modSp_freeCtr (s : State) (f : Spool → Spool) : (s.modSp f).freeCtr = s.freeCtr := rfl

/-! ### `State.modRc` -/

@[simp] theorem State.modRc_pending (s : State) (f : ReadCh → ReadCh) : (s.modRc f).pending = s.pending := rfl
@[simp] theorem State.modRc_mag (s : State) (f : ReadCh → ReadCh) : (s.modRc f).mag = s.mag := rfl
@[simp] theorem State.modRc_params (s : State) (f : ReadCh → ReadCh) : (s.modRc f).params = s.params := rfl
@[simp] theorem State.modRc_staged (s : State) (f : ReadCh → ReadCh) : (s.modRc f).staged = s.staged := rfl
@[simp] theorem State.modRc_pend (s : State) (f : ReadCh → ReadCh) : (s.modRc f).pend = s.pend := rfl
@[simp] theorem State.modRc_wrote (s : State) (f : ReadCh → ReadCh) : (s.modRc f).wrote = s.wrote := rfl
@[simp] theorem State.modRc_presets (s : State) (f : ReadCh → ReadCh) : (s.modRc f).presets = s.presets := rfl
@[simp] theorem State.modRc_nv (s : State) (f : ReadCh → ReadCh) : (s.modRc f).nv = s.nv := rfl
@[simp] theorem State.modRc_sp (s : State) (f : ReadCh → ReadCh) : (s.modRc f).sp = s.sp := rfl
@[simp] theorem State.modRc_fifos (s : State) (f : ReadCh → ReadCh) : (s.modRc f).fifos = s.fifos := rfl
@[simp] theorem State.modRc_rc (s : State) (f : ReadCh → ReadCh) : (s.modRc f).rc = f s.rc := rfl
@[simp] theorem State.modRc_ctl (s : State) (f : ReadCh → ReadCh) : (s.modRc f).ctl = s.ctl := rfl
@[simp] theorem State.modRc_keys (s : State) (f : ReadCh → ReadCh) : (s.modRc f).keys = s.keys := rfl
@[simp] theorem State.modRc_car (s : State) (f : ReadCh → ReadCh) : (s.modRc f).car = s.car := rfl
@[simp] theorem State.modRc_comp (s : State) (f : ReadCh → ReadCh) : (s.modRc f).comp = s.comp := rfl
@[simp] theorem State.modRc_cache (s : State) (f : ReadCh → ReadCh) : (s.modRc f).cache = s.cache := rfl
@[simp] theorem State.modRc_pw (s : State) (f : ReadCh → ReadCh) : (s.modRc f).pw = s.pw := rfl
@[simp] theorem State.modRc_nor (s : State) (f : ReadCh → ReadCh) : (s.modRc f).nor = s.nor := rfl
@[simp] theorem State.modRc_ev (s : State) (f : ReadCh → ReadCh) : (s.modRc f).ev = s.ev := rfl
@[simp] theorem State.modRc_freeCtr (s : State) (f : ReadCh → ReadCh) : (s.modRc f).freeCtr = s.freeCtr := rfl

/-! ### `State.modCtl` -/

@[simp] theorem State.modCtl_pending (s : State) (f : Ctl → Ctl) : (s.modCtl f).pending = s.pending := rfl
@[simp] theorem State.modCtl_mag (s : State) (f : Ctl → Ctl) : (s.modCtl f).mag = s.mag := rfl
@[simp] theorem State.modCtl_params (s : State) (f : Ctl → Ctl) : (s.modCtl f).params = s.params := rfl
@[simp] theorem State.modCtl_staged (s : State) (f : Ctl → Ctl) : (s.modCtl f).staged = s.staged := rfl
@[simp] theorem State.modCtl_pend (s : State) (f : Ctl → Ctl) : (s.modCtl f).pend = s.pend := rfl
@[simp] theorem State.modCtl_wrote (s : State) (f : Ctl → Ctl) : (s.modCtl f).wrote = s.wrote := rfl
@[simp] theorem State.modCtl_presets (s : State) (f : Ctl → Ctl) : (s.modCtl f).presets = s.presets := rfl
@[simp] theorem State.modCtl_nv (s : State) (f : Ctl → Ctl) : (s.modCtl f).nv = s.nv := rfl
@[simp] theorem State.modCtl_sp (s : State) (f : Ctl → Ctl) : (s.modCtl f).sp = s.sp := rfl
@[simp] theorem State.modCtl_fifos (s : State) (f : Ctl → Ctl) : (s.modCtl f).fifos = s.fifos := rfl
@[simp] theorem State.modCtl_rc (s : State) (f : Ctl → Ctl) : (s.modCtl f).rc = s.rc := rfl
@[simp] theorem State.modCtl_ctl (s : State) (f : Ctl → Ctl) : (s.modCtl f).ctl = f s.ctl := rfl
@[simp] theorem State.modCtl_keys (s : State) (f : Ctl → Ctl) : (s.modCtl f).keys = s.keys := rfl
@[simp] theorem State.modCtl_car (s : State) (f : Ctl → Ctl) : (s.modCtl f).car = s.car := rfl
@[simp] theorem State.modCtl_comp (s : State) (f : Ctl → Ctl) : (s.modCtl f).comp = s.comp := rfl
@[simp] theorem State.modCtl_cache (s : State) (f : Ctl → Ctl) : (s.modCtl f).cache = s.cache := rfl
@[simp] theorem State.modCtl_pw (s : State) (f : Ctl → Ctl) : (s.modCtl f).pw = s.pw := rfl
@[simp] theorem State.modCtl_nor (s : State) (f : Ctl → Ctl) : (s.modCtl f).nor = s.nor := rfl
@[simp] theorem State.modCtl_ev (s : State) (f : Ctl → Ctl) : (s.modCtl f).ev = s.ev := rfl
@[simp] theorem State.modCtl_freeCtr (s : State) (f : Ctl → Ctl) : (s.modCtl f).freeCtr = s.freeCtr := rfl

/-! ### `State.modKeys` -/

@[simp] theorem State.modKeys_pending (s : State) (f : Keys → Keys) : (s.modKeys f).pending = s.pending := rfl
@[simp] theorem State.modKeys_mag (s : State) (f : Keys → Keys) : (s.modKeys f).mag = s.mag := rfl
@[simp] theorem State.modKeys_params (s : State) (f : Keys → Keys) : (s.modKeys f).params = s.params := rfl
@[simp] theorem State.modKeys_staged (s : State) (f : Keys → Keys) : (s.modKeys f).staged = s.staged := rfl
@[simp] theorem State.modKeys_pend (s : State) (f : Keys → Keys) : (s.modKeys f).pend = s.pend := rfl
@[simp] theorem State.modKeys_wrote (s : State) (f : Keys → Keys) : (s.modKeys f).wrote = s.wrote := rfl
@[simp] theorem State.modKeys_presets (s : State) (f : Keys → Keys) : (s.modKeys f).presets = s.presets := rfl
@[simp] theorem State.modKeys_nv (s : State) (f : Keys → Keys) : (s.modKeys f).nv = s.nv := rfl
@[simp] theorem State.modKeys_sp (s : State) (f : Keys → Keys) : (s.modKeys f).sp = s.sp := rfl
@[simp] theorem State.modKeys_fifos (s : State) (f : Keys → Keys) : (s.modKeys f).fifos = s.fifos := rfl
@[simp] theorem State.modKeys_rc (s : State) (f : Keys → Keys) : (s.modKeys f).rc = s.rc := rfl
@[simp] theorem State.modKeys_ctl (s : State) (f : Keys → Keys) : (s.modKeys f).ctl = s.ctl := rfl
@[simp] theorem State.modKeys_keys (s : State) (f : Keys → Keys) : (s.modKeys f).keys = f s.keys := rfl
@[simp] theorem State.modKeys_car (s : State) (f : Keys → Keys) : (s.modKeys f).car = s.car := rfl
@[simp] theorem State.modKeys_comp (s : State) (f : Keys → Keys) : (s.modKeys f).comp = s.comp := rfl
@[simp] theorem State.modKeys_cache (s : State) (f : Keys → Keys) : (s.modKeys f).cache = s.cache := rfl
@[simp] theorem State.modKeys_pw (s : State) (f : Keys → Keys) : (s.modKeys f).pw = s.pw := rfl
@[simp] theorem State.modKeys_nor (s : State) (f : Keys → Keys) : (s.modKeys f).nor = s.nor := rfl
@[simp] theorem State.modKeys_ev (s : State) (f : Keys → Keys) : (s.modKeys f).ev = s.ev := rfl
@[simp] theorem State.modKeys_freeCtr (s : State) (f : Keys → Keys) : (s.modKeys f).freeCtr = s.freeCtr := rfl

/-! ### `State.modCar` -/

@[simp] theorem State.modCar_pending (s : State) (f : Car → Car) : (s.modCar f).pending = s.pending := rfl
@[simp] theorem State.modCar_mag (s : State) (f : Car → Car) : (s.modCar f).mag = s.mag := rfl
@[simp] theorem State.modCar_params (s : State) (f : Car → Car) : (s.modCar f).params = s.params := rfl
@[simp] theorem State.modCar_staged (s : State) (f : Car → Car) : (s.modCar f).staged = s.staged := rfl
@[simp] theorem State.modCar_pend (s : State) (f : Car → Car) : (s.modCar f).pend = s.pend := rfl
@[simp] theorem State.modCar_wrote (s : State) (f : Car → Car) : (s.modCar f).wrote = s.wrote := rfl
@[simp] theorem State.modCar_presets (s : State) (f : Car → Car) : (s.modCar f).presets = s.presets := rfl
@[simp] theorem State.modCar_nv (s : State) (f : Car → Car) : (s.modCar f).nv = s.nv := rfl
@[simp] theorem State.modCar_sp (s : State) (f : Car → Car) : (s.modCar f).sp = s.sp := rfl
@[simp] theorem State.modCar_fifos (s : State) (f : Car → Car) : (s.modCar f).fifos = s.fifos := rfl
@[simp] theorem State.modCar_rc (s : State) (f : Car → Car) : (s.modCar f).rc = s.rc := rfl
@[simp] theorem State.modCar_ctl (s : State) (f : Car → Car) : (s.modCar f).ctl = s.ctl := rfl
@[simp] theorem State.modCar_keys (s : State) (f : Car → Car) : (s.modCar f).keys = s.keys := rfl
@[simp] theorem State.modCar_car (s : State) (f : Car → Car) : (s.modCar f).car = f s.car := rfl
@[simp] theorem State.modCar_comp (s : State) (f : Car → Car) : (s.modCar f).comp = s.comp := rfl
@[simp] theorem State.modCar_cache (s : State) (f : Car → Car) : (s.modCar f).cache = s.cache := rfl
@[simp] theorem State.modCar_pw (s : State) (f : Car → Car) : (s.modCar f).pw = s.pw := rfl
@[simp] theorem State.modCar_nor (s : State) (f : Car → Car) : (s.modCar f).nor = s.nor := rfl
@[simp] theorem State.modCar_ev (s : State) (f : Car → Car) : (s.modCar f).ev = s.ev := rfl
@[simp] theorem State.modCar_freeCtr (s : State) (f : Car → Car) : (s.modCar f).freeCtr = s.freeCtr := rfl

/-! ### `State.modComp` -/

@[simp] theorem State.modComp_pending (s : State) (f : Comp → Comp) : (s.modComp f).pending = s.pending := rfl
@[simp] theorem State.modComp_mag (s : State) (f : Comp → Comp) : (s.modComp f).mag = s.mag := rfl
@[simp] theorem State.modComp_params (s : State) (f : Comp → Comp) : (s.modComp f).params = s.params := rfl
@[simp] theorem State.modComp_staged (s : State) (f : Comp → Comp) : (s.modComp f).staged = s.staged := rfl
@[simp] theorem State.modComp_pend (s : State) (f : Comp → Comp) : (s.modComp f).pend = s.pend := rfl
@[simp] theorem State.modComp_wrote (s : State) (f : Comp → Comp) : (s.modComp f).wrote = s.wrote := rfl
@[simp] theorem State.modComp_presets (s : State) (f : Comp → Comp) : (s.modComp f).presets = s.presets := rfl
@[simp] theorem State.modComp_nv (s : State) (f : Comp → Comp) : (s.modComp f).nv = s.nv := rfl
@[simp] theorem State.modComp_sp (s : State) (f : Comp → Comp) : (s.modComp f).sp = s.sp := rfl
@[simp] theorem State.modComp_fifos (s : State) (f : Comp → Comp) : (s.modComp f).fifos = s.fifos := rfl
@[simp] theorem State.modComp_rc (s : State) (f : Comp → Comp) : (s.modComp f).rc = s.rc := rfl
@[simp] theorem State.modComp_ctl (s : State) (f : Comp → Comp) : (s.modComp f).ctl = s.ctl := rfl
@[simp] theorem State.modComp_keys (s : State) (f : Comp → Comp) : (s.modComp f).keys = s.keys := rfl
@[simp] theorem State.modComp_car (s : State) (f : Comp → Comp) : (s.modComp f).car = s.car := rfl
@[simp] theorem State.modComp_comp (s : State) (f : Comp → Comp) : (s.modComp f).comp = f s.comp := rfl
@[simp] theorem State.modComp_cache (s : State) (f : Comp → Comp) : (s.modComp f).cache = s.cache := rfl
@[simp] theorem State.modComp_pw (s : State) (f : Comp → Comp) : (s.modComp f).pw = s.pw := rfl
@[simp] theorem State.modComp_nor (s : State) (f : Comp → Comp) : (s.modComp f).nor = s.nor := rfl
@[simp] theorem State.modComp_ev (s : State) (f : Comp → Comp) : (s.modComp f).ev = s.ev := rfl
@[simp] theorem State.modComp_freeCtr (s : State) (f : Comp → Comp) : (s.modComp f).freeCtr = s.freeCtr := rfl

/-! ### `State.modCache` -/

@[simp] theorem State.modCache_pending (s : State) (f : Cache → Cache) : (s.modCache f).pending = s.pending := rfl
@[simp] theorem State.modCache_mag (s : State) (f : Cache → Cache) : (s.modCache f).mag = s.mag := rfl
@[simp] theorem State.modCache_params (s : State) (f : Cache → Cache) : (s.modCache f).params = s.params := rfl
@[simp] theorem State.modCache_staged (s : State) (f : Cache → Cache) : (s.modCache f).staged = s.staged := rfl
@[simp] theorem State.modCache_pend (s : State) (f : Cache → Cache) : (s.modCache f).pend = s.pend := rfl
@[simp] theorem State.modCache_wrote (s : State) (f : Cache → Cache) : (s.modCache f).wrote = s.wrote := rfl
@[simp] theorem State.modCache_presets (s : State) (f : Cache → Cache) : (s.modCache f).presets = s.presets := rfl
@[simp] theorem State.modCache_nv (s : State) (f : Cache → Cache) : (s.modCache f).nv = s.nv := rfl
@[simp] theorem State.modCache_sp (s : State) (f : Cache → Cache) : (s.modCache f).sp = s.sp := rfl
@[simp] theorem State.modCache_fifos (s : State) (f : Cache → Cache) : (s.modCache f).fifos = s.fifos := rfl
@[simp] theorem State.modCache_rc (s : State) (f : Cache → Cache) : (s.modCache f).rc = s.rc := rfl
@[simp] theorem State.modCache_ctl (s : State) (f : Cache → Cache) : (s.modCache f).ctl = s.ctl := rfl
@[simp] theorem State.modCache_keys (s : State) (f : Cache → Cache) : (s.modCache f).keys = s.keys := rfl
@[simp] theorem State.modCache_car (s : State) (f : Cache → Cache) : (s.modCache f).car = s.car := rfl
@[simp] theorem State.modCache_comp (s : State) (f : Cache → Cache) : (s.modCache f).comp = s.comp := rfl
@[simp] theorem State.modCache_cache (s : State) (f : Cache → Cache) : (s.modCache f).cache = f s.cache := rfl
@[simp] theorem State.modCache_pw (s : State) (f : Cache → Cache) : (s.modCache f).pw = s.pw := rfl
@[simp] theorem State.modCache_nor (s : State) (f : Cache → Cache) : (s.modCache f).nor = s.nor := rfl
@[simp] theorem State.modCache_ev (s : State) (f : Cache → Cache) : (s.modCache f).ev = s.ev := rfl
@[simp] theorem State.modCache_freeCtr (s : State) (f : Cache → Cache) : (s.modCache f).freeCtr = s.freeCtr := rfl

/-! ### `State.modPw` -/

@[simp] theorem State.modPw_pending (s : State) (f : Power → Power) : (s.modPw f).pending = s.pending := rfl
@[simp] theorem State.modPw_mag (s : State) (f : Power → Power) : (s.modPw f).mag = s.mag := rfl
@[simp] theorem State.modPw_params (s : State) (f : Power → Power) : (s.modPw f).params = s.params := rfl
@[simp] theorem State.modPw_staged (s : State) (f : Power → Power) : (s.modPw f).staged = s.staged := rfl
@[simp] theorem State.modPw_pend (s : State) (f : Power → Power) : (s.modPw f).pend = s.pend := rfl
@[simp] theorem State.modPw_wrote (s : State) (f : Power → Power) : (s.modPw f).wrote = s.wrote := rfl
@[simp] theorem State.modPw_presets (s : State) (f : Power → Power) : (s.modPw f).presets = s.presets := rfl
@[simp] theorem State.modPw_nv (s : State) (f : Power → Power) : (s.modPw f).nv = s.nv := rfl
@[simp] theorem State.modPw_sp (s : State) (f : Power → Power) : (s.modPw f).sp = s.sp := rfl
@[simp] theorem State.modPw_fifos (s : State) (f : Power → Power) : (s.modPw f).fifos = s.fifos := rfl
@[simp] theorem State.modPw_rc (s : State) (f : Power → Power) : (s.modPw f).rc = s.rc := rfl
@[simp] theorem State.modPw_ctl (s : State) (f : Power → Power) : (s.modPw f).ctl = s.ctl := rfl
@[simp] theorem State.modPw_keys (s : State) (f : Power → Power) : (s.modPw f).keys = s.keys := rfl
@[simp] theorem State.modPw_car (s : State) (f : Power → Power) : (s.modPw f).car = s.car := rfl
@[simp] theorem State.modPw_comp (s : State) (f : Power → Power) : (s.modPw f).comp = s.comp := rfl
@[simp] theorem State.modPw_cache (s : State) (f : Power → Power) : (s.modPw f).cache = s.cache := rfl
@[simp] theorem State.modPw_pw (s : State) (f : Power → Power) : (s.modPw f).pw = f s.pw := rfl
@[simp] theorem State.modPw_nor (s : State) (f : Power → Power) : (s.modPw f).nor = s.nor := rfl
@[simp] theorem State.modPw_ev (s : State) (f : Power → Power) : (s.modPw f).ev = s.ev := rfl
@[simp] theorem State.modPw_freeCtr (s : State) (f : Power → Power) : (s.modPw f).freeCtr = s.freeCtr := rfl

/-! ### `State.modNor` -/

@[simp] theorem State.modNor_pending (s : State) (f : Nor → Nor) : (s.modNor f).pending = s.pending := rfl
@[simp] theorem State.modNor_mag (s : State) (f : Nor → Nor) : (s.modNor f).mag = s.mag := rfl
@[simp] theorem State.modNor_params (s : State) (f : Nor → Nor) : (s.modNor f).params = s.params := rfl
@[simp] theorem State.modNor_staged (s : State) (f : Nor → Nor) : (s.modNor f).staged = s.staged := rfl
@[simp] theorem State.modNor_pend (s : State) (f : Nor → Nor) : (s.modNor f).pend = s.pend := rfl
@[simp] theorem State.modNor_wrote (s : State) (f : Nor → Nor) : (s.modNor f).wrote = s.wrote := rfl
@[simp] theorem State.modNor_presets (s : State) (f : Nor → Nor) : (s.modNor f).presets = s.presets := rfl
@[simp] theorem State.modNor_nv (s : State) (f : Nor → Nor) : (s.modNor f).nv = s.nv := rfl
@[simp] theorem State.modNor_sp (s : State) (f : Nor → Nor) : (s.modNor f).sp = s.sp := rfl
@[simp] theorem State.modNor_fifos (s : State) (f : Nor → Nor) : (s.modNor f).fifos = s.fifos := rfl
@[simp] theorem State.modNor_rc (s : State) (f : Nor → Nor) : (s.modNor f).rc = s.rc := rfl
@[simp] theorem State.modNor_ctl (s : State) (f : Nor → Nor) : (s.modNor f).ctl = s.ctl := rfl
@[simp] theorem State.modNor_keys (s : State) (f : Nor → Nor) : (s.modNor f).keys = s.keys := rfl
@[simp] theorem State.modNor_car (s : State) (f : Nor → Nor) : (s.modNor f).car = s.car := rfl
@[simp] theorem State.modNor_comp (s : State) (f : Nor → Nor) : (s.modNor f).comp = s.comp := rfl
@[simp] theorem State.modNor_cache (s : State) (f : Nor → Nor) : (s.modNor f).cache = s.cache := rfl
@[simp] theorem State.modNor_pw (s : State) (f : Nor → Nor) : (s.modNor f).pw = s.pw := rfl
@[simp] theorem State.modNor_nor (s : State) (f : Nor → Nor) : (s.modNor f).nor = f s.nor := rfl
@[simp] theorem State.modNor_ev (s : State) (f : Nor → Nor) : (s.modNor f).ev = s.ev := rfl
@[simp] theorem State.modNor_freeCtr (s : State) (f : Nor → Nor) : (s.modNor f).freeCtr = s.freeCtr := rfl

/-! ### `State.modEv` -/

@[simp] theorem State.modEv_pending (s : State) (f : Events → Events) : (s.modEv f).pending = s.pending := rfl
@[simp] theorem State.modEv_mag (s : State) (f : Events → Events) : (s.modEv f).mag = s.mag := rfl
@[simp] theorem State.modEv_params (s : State) (f : Events → Events) : (s.modEv f).params = s.params := rfl
@[simp] theorem State.modEv_staged (s : State) (f : Events → Events) : (s.modEv f).staged = s.staged := rfl
@[simp] theorem State.modEv_pend (s : State) (f : Events → Events) : (s.modEv f).pend = s.pend := rfl
@[simp] theorem State.modEv_wrote (s : State) (f : Events → Events) : (s.modEv f).wrote = s.wrote := rfl
@[simp] theorem State.modEv_presets (s : State) (f : Events → Events) : (s.modEv f).presets = s.presets := rfl
@[simp] theorem State.modEv_nv (s : State) (f : Events → Events) : (s.modEv f).nv = s.nv := rfl
@[simp] theorem State.modEv_sp (s : State) (f : Events → Events) : (s.modEv f).sp = s.sp := rfl
@[simp] theorem State.modEv_fifos (s : State) (f : Events → Events) : (s.modEv f).fifos = s.fifos := rfl
@[simp] theorem State.modEv_rc (s : State) (f : Events → Events) : (s.modEv f).rc = s.rc := rfl
@[simp] theorem State.modEv_ctl (s : State) (f : Events → Events) : (s.modEv f).ctl = s.ctl := rfl
@[simp] theorem State.modEv_keys (s : State) (f : Events → Events) : (s.modEv f).keys = s.keys := rfl
@[simp] theorem State.modEv_car (s : State) (f : Events → Events) : (s.modEv f).car = s.car := rfl
@[simp] theorem State.modEv_comp (s : State) (f : Events → Events) : (s.modEv f).comp = s.comp := rfl
@[simp] theorem State.modEv_cache (s : State) (f : Events → Events) : (s.modEv f).cache = s.cache := rfl
@[simp] theorem State.modEv_pw (s : State) (f : Events → Events) : (s.modEv f).pw = s.pw := rfl
@[simp] theorem State.modEv_nor (s : State) (f : Events → Events) : (s.modEv f).nor = s.nor := rfl
@[simp] theorem State.modEv_ev (s : State) (f : Events → Events) : (s.modEv f).ev = f s.ev := rfl
@[simp] theorem State.modEv_freeCtr (s : State) (f : Events → Events) : (s.modEv f).freeCtr = s.freeCtr := rfl

/-! ### `State.modFifos` -/

@[simp] theorem State.modFifos_pending (s : State) (f : NMap Fifo → NMap Fifo) : (s.modFifos f).pending = s.pending := rfl
@[simp] theorem State.modFifos_mag (s : State) (f : NMap Fifo → NMap Fifo) : (s.modFifos f).mag = s.mag := rfl
@[simp] theorem State.modFifos_params (s : State) (f : NMap Fifo → NMap Fifo) : (s.modFifos f).params = s.params := rfl
@[simp] theorem State.modFifos_staged (s : State) (f : NMap Fifo → NMap Fifo) : (s.modFifos f).staged = s.staged := rfl
@[simp] theorem State.modFifos_pend (s : State) (f : NMap Fifo → NMap Fifo) : (s.modFifos f).pend = s.pend := rfl
@[simp] theorem State.modFifos_wrote (s : State) (f : NMap Fifo → NMap Fifo) : (s.modFifos f).wrote = s.wrote := rfl
@[simp] theorem State.modFifos_presets (s : State) (f : NMap Fifo → NMap Fifo) : (s.modFifos f).presets = s.presets := rfl
@[simp] theorem State.modFifos_nv (s : State) (f : NMap Fifo → NMap Fifo) : (s.modFifos f).nv = s.nv := rfl
@[simp] theorem State.modFifos_sp (s : State) (f : NMap Fifo → NMap Fifo) : (s.modFifos f).sp = s.sp := rfl
@[simp] theorem State.modFifos_fifos (s : State) (f : NMap Fifo → NMap Fifo) : (s.modFifos f).fifos = f s.fifos := rfl
@[simp] theorem State.modFifos_rc (s : State) (f : NMap Fifo → NMap Fifo) : (s.modFifos f).rc = s.rc := rfl
@[simp] theorem State.modFifos_ctl (s : State) (f : NMap Fifo → NMap Fifo) : (s.modFifos f).ctl = s.ctl := rfl
@[simp] theorem State.modFifos_keys (s : State) (f : NMap Fifo → NMap Fifo) : (s.modFifos f).keys = s.keys := rfl
@[simp] theorem State.modFifos_car (s : State) (f : NMap Fifo → NMap Fifo) : (s.modFifos f).car = s.car := rfl
@[simp] theorem State.modFifos_comp (s : State) (f : NMap Fifo → NMap Fifo) : (s.modFifos f).comp = s.comp := rfl
@[simp] theorem State.modFifos_cache (s : State) (f : NMap Fifo → NMap Fifo) : (s.modFifos f).cache = s.cache := rfl
@[simp] theorem State.modFifos_pw (s : State) (f : NMap Fifo → NMap Fifo) : (s.modFifos f).pw = s.pw := rfl
@[simp] theorem State.modFifos_nor (s : State) (f : NMap Fifo → NMap Fifo) : (s.modFifos f).nor = s.nor := rfl
@[simp] theorem State.modFifos_ev (s : State) (f : NMap Fifo → NMap Fifo) : (s.modFifos f).ev = s.ev := rfl
@[simp] theorem State.modFifos_freeCtr (s : State) (f : NMap Fifo → NMap Fifo) : (s.modFifos f).freeCtr = s.freeCtr := rfl

/-! ### `State.drawn`, `State.setElem`, `State.enter` -/

@[simp] theorem State.drawn_pending (s : State) (n : Nat) : (s.drawn n).pending = s.pending := rfl
@[simp] theorem State.drawn_mag (s : State) (n : Nat) : (s.drawn n).mag = s.mag := rfl
@[simp] theorem State.drawn_params (s : State) (n : Nat) : (s.drawn n).params = s.params := rfl
@[simp] theorem State.drawn_staged (s : State) (n : Nat) : (s.drawn n).staged = s.staged := rfl
@[simp] theorem State.drawn_pend (s : State) (n : Nat) : (s.drawn n).pend = s.pend := rfl
@[simp] theorem State.drawn_wrote (s : State) (n : Nat) : (s.drawn n).wrote = s.wrote := rfl
@[simp] theorem State.drawn_presets (s : State) (n : Nat) : (s.drawn n).presets = s.presets := rfl
@[simp] theorem State.drawn_nv (s : State) (n : Nat) : (s.drawn n).nv = s.nv := rfl
@[simp] theorem State.drawn_sp (s : State) (n : Nat) : (s.drawn n).sp = s.sp := rfl
@[simp] theorem State.drawn_fifos (s : State) (n : Nat) : (s.drawn n).fifos = s.fifos := rfl
@[simp] theorem State.drawn_rc (s : State) (n : Nat) : (s.drawn n).rc = s.rc := rfl
@[simp] theorem State.drawn_ctl (s : State) (n : Nat) : (s.drawn n).ctl = s.ctl := rfl
@[simp] theorem State.drawn_keys (s : State) (n : Nat) : (s.drawn n).keys = s.keys := rfl
@[simp] theorem State.drawn_car (s : State) (n : Nat) : (s.drawn n).car = s.car := rfl
@[simp] theorem State.drawn_comp (s : State) (n : Nat) : (s.drawn n).comp = s.comp := rfl
@[simp] theorem State.drawn_cache (s : State) (n : Nat) : (s.drawn n).cache = s.cache := rfl
@[simp] theorem State.drawn_pw (s : State) (n : Nat) : (s.drawn n).pw = s.pw := rfl
@[simp] theorem State.drawn_nor (s : State) (n : Nat) : (s.drawn n).nor = s.nor := rfl
@[simp] theorem State.drawn_ev (s : State) (n : Nat) : (s.drawn n).ev = s.ev := rfl
@[simp] theorem State.drawn_freeCtr (s : State) (n : Nat) : (s.drawn n).freeCtr = s.freeCtr + n := rfl

@[simp] theorem State.setElem_pending (s : State) (p i e : Nat) : (s.setElem p i e).pending = s.pending := rfl
@[simp] theorem State.setElem_mag (s : State) (p i e : Nat) : (s.setElem p i e).mag = s.mag := rfl
@[simp] theorem State.setElem_staged (s : State) (p i e : Nat) : (s.setElem p i e).staged = s.staged := rfl
@[simp] theorem State.setElem_pend (s : State) (p i e : Nat) : (s.setElem p i e).pend = s.pend := rfl
@[simp] theorem State.setElem_wrote (s : State) (p i e : Nat) : (s.setElem p i e).wrote = s.wrote := rfl
@[simp] theorem State.setElem_presets (s : State) (p i e : Nat) : (s.setElem p i e).presets = s.presets := rfl
@[simp] theorem State.setElem_nv (s : State) (p i e : Nat) : (s.setElem p i e).nv = s.nv := rfl
@[simp] theorem State.setElem_sp (s : State) (p i e : Nat) : (s.setElem p i e).sp = s.sp := rfl
@[simp] theorem State.setElem_fifos (s : State) (p i e : Nat) : (s.setElem p i e).fifos = s.fifos := rfl
@[simp] theorem State.setElem_rc (s : State) (p i e : Nat) : (s.setElem p i e).rc = s.rc := rfl
@[simp] theorem State.setElem_ctl (s : State) (p i e : Nat) : (s.setElem p i e).ctl = s.ctl := rfl
@[simp] theorem State.setElem_keys (s : State) (p i e : Nat) : (s.setElem p i e).keys = s.keys := rfl
@[simp] theorem State.setElem_car (s : State) (p i e : Nat) : (s.setElem p i e).car = s.car := rfl
@[simp] theorem State.setElem_comp (s : State) (p i e : Nat) : (s.setElem p i e).comp = s.comp := rfl
@[simp] theorem State.setElem_cache (s : State) (p i e : Nat) : (s.setElem p i e).cache = s.cache := rfl
@[simp] theorem State.setElem_pw (s : State) (p i e : Nat) : (s.setElem p i e).pw = s.pw := rfl
@[simp] theorem State.setElem_nor (s : State) (p i e : Nat) : (s.setElem p i e).nor = s.nor := rfl
@[simp] theorem State.setElem_ev (s : State) (p i e : Nat) : (s.setElem p i e).ev = s.ev := rfl
@[simp] theorem State.setElem_freeCtr (s : State) (p i e : Nat) : (s.setElem p i e).freeCtr = s.freeCtr := rfl

@[simp] theorem State.enter_pending (s : State) (m : MagState) : (s.enter m).pending = s.pending := rfl
@[simp] theorem State.enter_params (s : State) (m : MagState) : (s.enter m).params = s.params := rfl
@[simp] theorem State.enter_staged (s : State) (m : MagState) : (s.enter m).staged = s.staged := rfl
@[simp] theorem State.enter_pend (s : State) (m : MagState) : (s.enter m).pend = s.pend := rfl
@[simp] theorem State.enter_wrote (s : State) (m : MagState) : (s.enter m).wrote = s.wrote := rfl
@[simp] theorem State.enter_presets (s : State) (m : MagState) : (s.enter m).presets = s.presets := rfl
@[simp] theorem State.enter_nv (s : State) (m : MagState) : (s.enter m).nv = s.nv := rfl
@[simp] theorem State.enter_sp (s : State) (m : MagState) : (s.enter m).sp = s.sp := rfl
@[simp] theorem State.enter_fifos (s : State) (m : MagState) : (s.enter m).fifos = s.fifos := rfl
@[simp] theorem State.enter_rc (s : State) (m : MagState) : (s.enter m).rc = s.rc := rfl
@[simp] theorem State.enter_ctl (s : State) (m : MagState) : (s.enter m).ctl = s.ctl := rfl
@[simp] theorem State.enter_keys (s : State) (m : MagState) : (s.enter m).keys = s.keys := rfl
@[simp] theorem State.enter_car (s : State) (m : MagState) : (s.enter m).car = s.car := rfl
@[simp] theorem State.enter_comp (s : State) (m : MagState) : (s.enter m).comp = s.comp := rfl
@[simp] theorem State.enter_cache (s : State) (m : MagState) : (s.enter m).cache = s.cache := rfl
@[simp] theorem State.enter_pw (s : State) (m : MagState) : (s.enter m).pw = s.pw := rfl
@[simp] theorem State.enter_nor (s : State) (m : MagState) : (s.enter m).nor = s.nor := rfl
@[simp] theorem State.enter_ev (s : State) (m : MagState) : (s.enter m).ev = s.ev := rfl
@[simp] theorem State.enter_freeCtr (s : State) (m : MagState) : (s.enter m).freeCtr = s.freeCtr := rfl
@[simp] theorem State.enter_st (s : State) (m : MagState) : (s.enter m).mag.st = m := rfl

/-! ### Chained updates of one field -/

theorem State.modMag_modMag (s : State) (f g : Mag → Mag) : (s.modMag f).modMag g = s.modMag (fun x => g (f x)) := rfl
theorem State.modNv_modNv (s : State) (f g : Nvme → Nvme) : (s.modNv f).modNv g = s.modNv (fun x => g (f x)) := rfl
theorem State.modSp_modSp (s : State) (f g : Spool → Spool) : (s.modSp f).modSp g = s.modSp (fun x => g (f x)) := rfl
theorem State.modRc_modRc (s : State) (f g : ReadCh → ReadCh) : (s.modRc f).modRc g = s.modRc (fun x => g (f x)) := rfl
theorem State.modCtl_modCtl (s : State) (f g : Ctl → Ctl) : (s.modCtl f).modCtl g = s.modCtl (fun x => g (f x)) := rfl
theorem State.modKeys_modKeys (s : State) (f g : Keys → Keys) : (s.modKeys f).modKeys g = s.modKeys (fun x => g (f x)) := rfl
theorem State.modCar_modCar (s : State) (f g : Car → Car) : (s.modCar f).modCar g = s.modCar (fun x => g (f x)) := rfl
theorem State.modComp_modComp (s : State) (f g : Comp → Comp) : (s.modComp f).modComp g = s.modComp (fun x => g (f x)) := rfl
theorem State.modCache_modCache (s : State) (f g : Cache → Cache) : (s.modCache f).modCache g = s.modCache (fun x => g (f x)) := rfl
theorem State.modPw_modPw (s : State) (f g : Power → Power) : (s.modPw f).modPw g = s.modPw (fun x => g (f x)) := rfl
theorem State.modNor_modNor (s : State) (f g : Nor → Nor) : (s.modNor f).modNor g = s.modNor (fun x => g (f x)) := rfl
theorem State.modEv_modEv (s : State) (f g : Events → Events) : (s.modEv f).modEv g = s.modEv (fun x => g (f x)) := rfl
theorem State.modFifos_modFifos (s : State) (f g : NMap Fifo → NMap Fifo) : (s.modFifos f).modFifos g = s.modFifos (fun x => g (f x)) := rfl

end Sys2Proof.Machine
end

