-- ==== Sys2Proof/Laws/Ops.lean ====
section
/-! SUPPORT. What a completion and an event can change: a completion the host interface only, an event the events and the host interface. -/

namespace Sys2Proof.Machine

set_option Elab.async false

theorem State.post_frame (s : State) (q : Nat) (e : Cqe) : s.post q e = { s with nv := (s.post q e).nv } := by
  unfold State.post
  repeat' split
  all_goals rfl

@[simp] theorem State.post_pending (s : State) (q : Nat) (e : Cqe) : (s.post q e).pending = s.pending := by
  rw [State.post_frame]
@[simp] theorem State.post_mag (s : State) (q : Nat) (e : Cqe) : (s.post q e).mag = s.mag := by
  rw [State.post_frame]
@[simp] theorem State.post_params (s : State) (q : Nat) (e : Cqe) : (s.post q e).params = s.params := by
  rw [State.post_frame]
@[simp] theorem State.post_staged (s : State) (q : Nat) (e : Cqe) : (s.post q e).staged = s.staged := by
  rw [State.post_frame]
@[simp] theorem State.post_pend (s : State) (q : Nat) (e : Cqe) : (s.post q e).pend = s.pend := by
  rw [State.post_frame]
@[simp] theorem State.post_wrote (s : State) (q : Nat) (e : Cqe) : (s.post q e).wrote = s.wrote := by
  rw [State.post_frame]
@[simp] theorem State.post_presets (s : State) (q : Nat) (e : Cqe) : (s.post q e).presets = s.presets := by
  rw [State.post_frame]
@[simp] theorem State.post_sp (s : State) (q : Nat) (e : Cqe) : (s.post q e).sp = s.sp := by
  rw [State.post_frame]
@[simp] theorem State.post_fifos (s : State) (q : Nat) (e : Cqe) : (s.post q e).fifos = s.fifos := by
  rw [State.post_frame]
@[simp] theorem State.post_rc (s : State) (q : Nat) (e : Cqe) : (s.post q e).rc = s.rc := by
  rw [State.post_frame]
@[simp] theorem State.post_ctl (s : State) (q : Nat) (e : Cqe) : (s.post q e).ctl = s.ctl := by
  rw [State.post_frame]
@[simp] theorem State.post_keys (s : State) (q : Nat) (e : Cqe) : (s.post q e).keys = s.keys := by
  rw [State.post_frame]
@[simp] theorem State.post_car (s : State) (q : Nat) (e : Cqe) : (s.post q e).car = s.car := by
  rw [State.post_frame]
@[simp] theorem State.post_comp (s : State) (q : Nat) (e : Cqe) : (s.post q e).comp = s.comp := by
  rw [State.post_frame]
@[simp] theorem State.post_cache (s : State) (q : Nat) (e : Cqe) : (s.post q e).cache = s.cache := by
  rw [State.post_frame]
@[simp] theorem State.post_pw (s : State) (q : Nat) (e : Cqe) : (s.post q e).pw = s.pw := by
  rw [State.post_frame]
@[simp] theorem State.post_nor (s : State) (q : Nat) (e : Cqe) : (s.post q e).nor = s.nor := by
  rw [State.post_frame]
@[simp] theorem State.post_ev (s : State) (q : Nat) (e : Cqe) : (s.post q e).ev = s.ev := by
  rw [State.post_frame]
@[simp] theorem State.post_freeCtr (s : State) (q : Nat) (e : Cqe) : (s.post q e).freeCtr = s.freeCtr := by
  rw [State.post_frame]

theorem State.complete_frame (s : State) (q : Nat) (st : Status) (a b : Nat) (d : Bytes) : s.complete q st a b d = { s with nv := (s.complete q st a b d).nv } := by
  unfold State.complete
  split
  · exact State.post_frame s q _
  · rfl

@[simp] theorem State.complete_pending (s : State) (q : Nat) (st : Status) (a b : Nat) (d : Bytes) : (s.complete q st a b d).pending = s.pending := by
  rw [State.complete_frame]
@[simp] theorem State.complete_mag (s : State) (q : Nat) (st : Status) (a b : Nat) (d : Bytes) : (s.complete q st a b d).mag = s.mag := by
  rw [State.complete_frame]
@[simp] theorem State.complete_params (s : State) (q : Nat) (st : Status) (a b : Nat) (d : Bytes) : (s.complete q st a b d).params = s.params := by
  rw [State.complete_frame]
@[simp] theorem State.complete_staged (s : State) (q : Nat) (st : Status) (a b : Nat) (d : Bytes) : (s.complete q st a b d).staged = s.staged := by
  rw [State.complete_frame]
@[simp] theorem State.complete_pend (s : State) (q : Nat) (st : Status) (a b : Nat) (d : Bytes) : (s.complete q st a b d).pend = s.pend := by
  rw [State.complete_frame]
@[simp] theorem State.complete_wrote (s : State) (q : Nat) (st : Status) (a b : Nat) (d : Bytes) : (s.complete q st a b d).wrote = s.wrote := by
  rw [State.complete_frame]
@[simp] theorem State.complete_presets (s : State) (q : Nat) (st : Status) (a b : Nat) (d : Bytes) : (s.complete q st a b d).presets = s.presets := by
  rw [State.complete_frame]
@[simp] theorem State.complete_sp (s : State) (q : Nat) (st : Status) (a b : Nat) (d : Bytes) : (s.complete q st a b d).sp = s.sp := by
  rw [State.complete_frame]
@[simp] theorem State.complete_fifos (s : State) (q : Nat) (st : Status) (a b : Nat) (d : Bytes) : (s.complete q st a b d).fifos = s.fifos := by
  rw [State.complete_frame]
@[simp] theorem State.complete_rc (s : State) (q : Nat) (st : Status) (a b : Nat) (d : Bytes) : (s.complete q st a b d).rc = s.rc := by
  rw [State.complete_frame]
@[simp] theorem State.complete_ctl (s : State) (q : Nat) (st : Status) (a b : Nat) (d : Bytes) : (s.complete q st a b d).ctl = s.ctl := by
  rw [State.complete_frame]
@[simp] theorem State.complete_keys (s : State) (q : Nat) (st : Status) (a b : Nat) (d : Bytes) : (s.complete q st a b d).keys = s.keys := by
  rw [State.complete_frame]
@[simp] theorem State.complete_car (s : State) (q : Nat) (st : Status) (a b : Nat) (d : Bytes) : (s.complete q st a b d).car = s.car := by
  rw [State.complete_frame]
@[simp] theorem State.complete_comp (s : State) (q : Nat) (st : Status) (a b : Nat) (d : Bytes) : (s.complete q st a b d).comp = s.comp := by
  rw [State.complete_frame]
@[simp] theorem State.complete_cache (s : State) (q : Nat) (st : Status) (a b : Nat) (d : Bytes) : (s.complete q st a b d).cache = s.cache := by
  rw [State.complete_frame]
@[simp] theorem State.complete_pw (s : State) (q : Nat) (st : Status) (a b : Nat) (d : Bytes) : (s.complete q st a b d).pw = s.pw := by
  rw [State.complete_frame]
@[simp] theorem State.complete_nor (s : State) (q : Nat) (st : Status) (a b : Nat) (d : Bytes) : (s.complete q st a b d).nor = s.nor := by
  rw [State.complete_frame]
@[simp] theorem State.complete_ev (s : State) (q : Nat) (st : Status) (a b : Nat) (d : Bytes) : (s.complete q st a b d).ev = s.ev := by
  rw [State.complete_frame]
@[simp] theorem State.complete_freeCtr (s : State) (q : Nat) (st : Status) (a b : Nat) (d : Bytes) : (s.complete q st a b d).freeCtr = s.freeCtr := by
  rw [State.complete_frame]

@[simp] theorem State.done_pending (s : State) (q : Nat) (st : Status) : (s.done q st).pending = s.pending := by
  simp [State.done]
@[simp] theorem State.done_mag (s : State) (q : Nat) (st : Status) : (s.done q st).mag = s.mag := by
  simp [State.done]
@[simp] theorem State.done_params (s : State) (q : Nat) (st : Status) : (s.done q st).params = s.params := by
  simp [State.done]
@[simp] theorem State.done_staged (s : State) (q : Nat) (st : Status) : (s.done q st).staged = s.staged := by
  simp [State.done]
@[simp] theorem State.done_pend (s : State) (q : Nat) (st : Status) : (s.done q st).pend = s.pend := by
  simp [State.done]
@[simp] theorem State.done_wrote (s : State) (q : Nat) (st : Status) : (s.done q st).wrote = s.wrote := by
  simp [State.done]
@[simp] theorem State.done_presets (s : State) (q : Nat) (st : Status) : (s.done q st).presets = s.presets := by
  simp [State.done]
@[simp] theorem State.done_sp (s : State) (q : Nat) (st : Status) : (s.done q st).sp = s.sp := by
  simp [State.done]
@[simp] theorem State.done_fifos (s : State) (q : Nat) (st : Status) : (s.done q st).fifos = s.fifos := by
  simp [State.done]
@[simp] theorem State.done_rc (s : State) (q : Nat) (st : Status) : (s.done q st).rc = s.rc := by
  simp [State.done]
@[simp] theorem State.done_ctl (s : State) (q : Nat) (st : Status) : (s.done q st).ctl = s.ctl := by
  simp [State.done]
@[simp] theorem State.done_keys (s : State) (q : Nat) (st : Status) : (s.done q st).keys = s.keys := by
  simp [State.done]
@[simp] theorem State.done_car (s : State) (q : Nat) (st : Status) : (s.done q st).car = s.car := by
  simp [State.done]
@[simp] theorem State.done_comp (s : State) (q : Nat) (st : Status) : (s.done q st).comp = s.comp := by
  simp [State.done]
@[simp] theorem State.done_cache (s : State) (q : Nat) (st : Status) : (s.done q st).cache = s.cache := by
  simp [State.done]
@[simp] theorem State.done_pw (s : State) (q : Nat) (st : Status) : (s.done q st).pw = s.pw := by
  simp [State.done]
@[simp] theorem State.done_nor (s : State) (q : Nat) (st : Status) : (s.done q st).nor = s.nor := by
  simp [State.done]
@[simp] theorem State.done_ev (s : State) (q : Nat) (st : Status) : (s.done q st).ev = s.ev := by
  simp [State.done]
@[simp] theorem State.done_freeCtr (s : State) (q : Nat) (st : Status) : (s.done q st).freeCtr = s.freeCtr := by
  simp [State.done]

theorem State.asyncEvent_frame (s : State) (ty info log : Nat) : s.asyncEvent ty info log = { s with nv := (s.asyncEvent ty info log).nv } := by
  unfold State.asyncEvent
  dsimp only
  repeat' split
  all_goals first | rfl | (rw [State.complete_frame]; rfl)

@[simp] theorem State.asyncEvent_pending (s : State) (ty info log : Nat) : (s.asyncEvent ty info log).pending = s.pending := by
  rw [State.asyncEvent_frame]
@[simp] theorem State.asyncEvent_mag (s : State) (ty info log : Nat) : (s.asyncEvent ty info log).mag = s.mag := by
  rw [State.asyncEvent_frame]
@[simp] theorem State.asyncEvent_params (s : State) (ty info log : Nat) : (s.asyncEvent ty info log).params = s.params := by
  rw [State.asyncEvent_frame]
@[simp] theorem State.asyncEvent_staged (s : State) (ty info log : Nat) : (s.asyncEvent ty info log).staged = s.staged := by
  rw [State.asyncEvent_frame]
@[simp] theorem State.asyncEvent_pend (s : State) (ty info log : Nat) : (s.asyncEvent ty info log).pend = s.pend := by
  rw [State.asyncEvent_frame]
@[simp] theorem State.asyncEvent_wrote (s : State) (ty info log : Nat) : (s.asyncEvent ty info log).wrote = s.wrote := by
  rw [State.asyncEvent_frame]
@[simp] theorem State.asyncEvent_presets (s : State) (ty info log : Nat) : (s.asyncEvent ty info log).presets = s.presets := by
  rw [State.asyncEvent_frame]
@[simp] theorem State.asyncEvent_sp (s : State) (ty info log : Nat) : (s.asyncEvent ty info log).sp = s.sp := by
  rw [State.asyncEvent_frame]
@[simp] theorem State.asyncEvent_fifos (s : State) (ty info log : Nat) : (s.asyncEvent ty info log).fifos = s.fifos := by
  rw [State.asyncEvent_frame]
@[simp] theorem State.asyncEvent_rc (s : State) (ty info log : Nat) : (s.asyncEvent ty info log).rc = s.rc := by
  rw [State.asyncEvent_frame]
@[simp] theorem State.asyncEvent_ctl (s : State) (ty info log : Nat) : (s.asyncEvent ty info log).ctl = s.ctl := by
  rw [State.asyncEvent_frame]
@[simp] theorem State.asyncEvent_keys (s : State) (ty info log : Nat) : (s.asyncEvent ty info log).keys = s.keys := by
  rw [State.asyncEvent_frame]
@[simp] theorem State.asyncEvent_car (s : State) (ty info log : Nat) : (s.asyncEvent ty info log).car = s.car := by
  rw [State.asyncEvent_frame]
@[simp] theorem State.asyncEvent_comp (s : State) (ty info log : Nat) : (s.asyncEvent ty info log).comp = s.comp := by
  rw [State.asyncEvent_frame]
@[simp] theorem State.asyncEvent_cache (s : State) (ty info log : Nat) : (s.asyncEvent ty info log).cache = s.cache := by
  rw [State.asyncEvent_frame]
@[simp] theorem State.asyncEvent_pw (s : State) (ty info log : Nat) : (s.asyncEvent ty info log).pw = s.pw := by
  rw [State.asyncEvent_frame]
@[simp] theorem State.asyncEvent_nor (s : State) (ty info log : Nat) : (s.asyncEvent ty info log).nor = s.nor := by
  rw [State.asyncEvent_frame]
@[simp] theorem State.asyncEvent_ev (s : State) (ty info log : Nat) : (s.asyncEvent ty info log).ev = s.ev := by
  rw [State.asyncEvent_frame]
@[simp] theorem State.asyncEvent_freeCtr (s : State) (ty info log : Nat) : (s.asyncEvent ty info log).freeCtr = s.freeCtr := by
  rw [State.asyncEvent_frame]

/-- `x` differs from `s` in the host interface, the events and the stream FIFOs at most. -/
def State.NvEv (s x : State) : Prop := ∃ n v f, x = { s with nv := n, ev := v, fifos := f }

theorem State.NvEv.rfl' (s : State) : s.NvEv s := ⟨_, _, _, rfl⟩

theorem State.NvEv.trans {s x y : State} (h : s.NvEv x) (g : x.NvEv y) : s.NvEv y := by
  obtain ⟨n, v, f, rfl⟩ := h
  obtain ⟨m, w, k, rfl⟩ := g
  exact ⟨_, _, _, rfl⟩

theorem State.NvEv.ite {s a b : State} {c : Prop} [Decidable c] (ha : s.NvEv a) (hb : s.NvEv b) : s.NvEv (if c then a else b) := by
  split <;> assumption

theorem State.NvEv.modNv {s x : State} (f : Nvme → Nvme) (h : s.NvEv x) : s.NvEv (x.modNv f) := h.trans ⟨_, _, _, rfl⟩

theorem State.NvEv.modEv {s x : State} (f : Events → Events) (h : s.NvEv x) : s.NvEv (x.modEv f) := h.trans ⟨_, _, _, rfl⟩

theorem State.NvEv.modFifo {s x : State} (n : Nat) (f : Fifo → Fifo) (h : s.NvEv x) : s.NvEv (x.modFifo n f) := h.trans ⟨_, _, _, rfl⟩

theorem State.NvEv.asyncEvent {s x : State} (a b c : Nat) (h : s.NvEv x) : s.NvEv (x.asyncEvent a b c) := by
  refine h.trans ?_
  rw [State.asyncEvent_frame]
  exact ⟨_, _, _, rfl⟩

/-- A routed record changes the events and the host interface. -/
theorem State.route_nvEv (s : State) (evt cause : Nat) (data : Bytes) : s.NvEv (s.route evt cause data) := by
  have r := State.NvEv.rfl' s
  unfold State.route State.journal
  dsimp only
  refine .ite (.modNv _ ?_) ?_ <;>
    exact .ite (.ite (.ite (.asyncEvent _ _ _ (.modEv _ (.modEv _ (.modEv _ r)))) (.modEv _ (.modEv _ (.modEv _ r)))) (.modEv _ (.modEv _ r))) (.modEv _ r)

/-- What a producer presents to a FIFO changes the FIFOs only. -/
theorem State.feed_nvEv (s : State) (n : Nat) (ws : List FWord) : s.NvEv (s.feed n ws).1 := ⟨_, _, _, rfl⟩

theorem State.routeFifo_nvEv (s : State) (n : Nat) : s.NvEv (s.routeFifo n) := by
  have key : ∀ (l : List (List FWord)) (t : State), s.NvEv t →
      s.NvEv (l.foldl (fun t p => t.route (eventOf p).1 (eventOf p).2.1 (eventOf p).2.2) t) := by
    intro l
    induction l with
    | nil => exact fun _ h => h
    | cons p l ih => exact fun t h => ih _ (h.trans (State.route_nvEv _ _ _ _))
  exact key _ _ (.modFifo _ _ (.rfl' s))

theorem State.overran_nvEv (s : State) (n : Nat) : s.NvEv (s.overran n) := (State.feed_nvEv _ _ _).trans (State.routeFifo_nvEv _ _)

/-- An event changes the events, the stream FIFOs and the host interface. -/
theorem State.raise_nvEv (s : State) (evt cause : Nat) (data : Bytes) : s.NvEv (s.raise evt cause data) := by
  unfold State.raise State.when
  dsimp only
  refine State.NvEv.trans ?_ (State.routeFifo_nvEv _ _)
  exact .ite ((State.feed_nvEv _ _ _).trans (State.overran_nvEv _ _)) (State.feed_nvEv _ _ _)

@[simp] theorem State.raise_pending (s : State) (evt cause : Nat) (data : Bytes) : (s.raise evt cause data).pending = s.pending := by
  obtain ⟨n, v, f, h⟩ := State.raise_nvEv s evt cause data; rw [h]
@[simp] theorem State.raise_mag (s : State) (evt cause : Nat) (data : Bytes) : (s.raise evt cause data).mag = s.mag := by
  obtain ⟨n, v, f, h⟩ := State.raise_nvEv s evt cause data; rw [h]
@[simp] theorem State.raise_params (s : State) (evt cause : Nat) (data : Bytes) : (s.raise evt cause data).params = s.params := by
  obtain ⟨n, v, f, h⟩ := State.raise_nvEv s evt cause data; rw [h]
@[simp] theorem State.raise_staged (s : State) (evt cause : Nat) (data : Bytes) : (s.raise evt cause data).staged = s.staged := by
  obtain ⟨n, v, f, h⟩ := State.raise_nvEv s evt cause data; rw [h]
@[simp] theorem State.raise_pend (s : State) (evt cause : Nat) (data : Bytes) : (s.raise evt cause data).pend = s.pend := by
  obtain ⟨n, v, f, h⟩ := State.raise_nvEv s evt cause data; rw [h]
@[simp] theorem State.raise_wrote (s : State) (evt cause : Nat) (data : Bytes) : (s.raise evt cause data).wrote = s.wrote := by
  obtain ⟨n, v, f, h⟩ := State.raise_nvEv s evt cause data; rw [h]
@[simp] theorem State.raise_presets (s : State) (evt cause : Nat) (data : Bytes) : (s.raise evt cause data).presets = s.presets := by
  obtain ⟨n, v, f, h⟩ := State.raise_nvEv s evt cause data; rw [h]
@[simp] theorem State.raise_sp (s : State) (evt cause : Nat) (data : Bytes) : (s.raise evt cause data).sp = s.sp := by
  obtain ⟨n, v, f, h⟩ := State.raise_nvEv s evt cause data; rw [h]
@[simp] theorem State.raise_rc (s : State) (evt cause : Nat) (data : Bytes) : (s.raise evt cause data).rc = s.rc := by
  obtain ⟨n, v, f, h⟩ := State.raise_nvEv s evt cause data; rw [h]
@[simp] theorem State.raise_ctl (s : State) (evt cause : Nat) (data : Bytes) : (s.raise evt cause data).ctl = s.ctl := by
  obtain ⟨n, v, f, h⟩ := State.raise_nvEv s evt cause data; rw [h]
@[simp] theorem State.raise_keys (s : State) (evt cause : Nat) (data : Bytes) : (s.raise evt cause data).keys = s.keys := by
  obtain ⟨n, v, f, h⟩ := State.raise_nvEv s evt cause data; rw [h]
@[simp] theorem State.raise_car (s : State) (evt cause : Nat) (data : Bytes) : (s.raise evt cause data).car = s.car := by
  obtain ⟨n, v, f, h⟩ := State.raise_nvEv s evt cause data; rw [h]
@[simp] theorem State.raise_comp (s : State) (evt cause : Nat) (data : Bytes) : (s.raise evt cause data).comp = s.comp := by
  obtain ⟨n, v, f, h⟩ := State.raise_nvEv s evt cause data; rw [h]
@[simp] theorem State.raise_cache (s : State) (evt cause : Nat) (data : Bytes) : (s.raise evt cause data).cache = s.cache := by
  obtain ⟨n, v, f, h⟩ := State.raise_nvEv s evt cause data; rw [h]
@[simp] theorem State.raise_pw (s : State) (evt cause : Nat) (data : Bytes) : (s.raise evt cause data).pw = s.pw := by
  obtain ⟨n, v, f, h⟩ := State.raise_nvEv s evt cause data; rw [h]
@[simp] theorem State.raise_nor (s : State) (evt cause : Nat) (data : Bytes) : (s.raise evt cause data).nor = s.nor := by
  obtain ⟨n, v, f, h⟩ := State.raise_nvEv s evt cause data; rw [h]
@[simp] theorem State.raise_freeCtr (s : State) (evt cause : Nat) (data : Bytes) : (s.raise evt cause data).freeCtr = s.freeCtr := by
  obtain ⟨n, v, f, h⟩ := State.raise_nvEv s evt cause data; rw [h]

@[simp] theorem State.noteFault_pending (s : State) (c : Nat) : (s.noteFault c).pending = s.pending := by
  rfl
@[simp] theorem State.noteFault_mag (s : State) (c : Nat) : (s.noteFault c).mag = s.mag := by
  rfl
@[simp] theorem State.noteFault_params (s : State) (c : Nat) : (s.noteFault c).params = s.params := by
  rfl
@[simp] theorem State.noteFault_staged (s : State) (c : Nat) : (s.noteFault c).staged = s.staged := by
  rfl
@[simp] theorem State.noteFault_pend (s : State) (c : Nat) : (s.noteFault c).pend = s.pend := by
  rfl
@[simp] theorem State.noteFault_wrote (s : State) (c : Nat) : (s.noteFault c).wrote = s.wrote := by
  rfl
@[simp] theorem State.noteFault_presets (s : State) (c : Nat) : (s.noteFault c).presets = s.presets := by
  rfl
@[simp] theorem State.noteFault_nv (s : State) (c : Nat) : (s.noteFault c).nv = s.nv := by
  rfl
@[simp] theorem State.noteFault_sp (s : State) (c : Nat) : (s.noteFault c).sp = s.sp := by
  rfl
@[simp] theorem State.noteFault_fifos (s : State) (c : Nat) : (s.noteFault c).fifos = s.fifos := by
  rfl
@[simp] theorem State.noteFault_rc (s : State) (c : Nat) : (s.noteFault c).rc = s.rc := by
  rfl
@[simp] theorem State.noteFault_ctl (s : State) (c : Nat) : (s.noteFault c).ctl = s.ctl := by
  rfl
@[simp] theorem State.noteFault_keys (s : State) (c : Nat) : (s.noteFault c).keys = s.keys := by
  rfl
@[simp] theorem State.noteFault_car (s : State) (c : Nat) : (s.noteFault c).car = s.car := by
  rfl
@[simp] theorem State.noteFault_comp (s : State) (c : Nat) : (s.noteFault c).comp = s.comp := by
  rfl
@[simp] theorem State.noteFault_cache (s : State) (c : Nat) : (s.noteFault c).cache = s.cache := by
  rfl
@[simp] theorem State.noteFault_pw (s : State) (c : Nat) : (s.noteFault c).pw = s.pw := by
  rfl
@[simp] theorem State.noteFault_nor (s : State) (c : Nat) : (s.noteFault c).nor = s.nor := by
  rfl
@[simp] theorem State.noteFault_freeCtr (s : State) (c : Nat) : (s.noteFault c).freeCtr = s.freeCtr := by
  rfl

@[simp] theorem State.ringAdd_pending (s : State) (k : Nat) (d : Bytes) : (s.ringAdd k d).pending = s.pending := by
  rfl
@[simp] theorem State.ringAdd_mag (s : State) (k : Nat) (d : Bytes) : (s.ringAdd k d).mag = s.mag := by
  rfl
@[simp] theorem State.ringAdd_params (s : State) (k : Nat) (d : Bytes) : (s.ringAdd k d).params = s.params := by
  rfl
@[simp] theorem State.ringAdd_staged (s : State) (k : Nat) (d : Bytes) : (s.ringAdd k d).staged = s.staged := by
  rfl
@[simp] theorem State.ringAdd_pend (s : State) (k : Nat) (d : Bytes) : (s.ringAdd k d).pend = s.pend := by
  rfl
@[simp] theorem State.ringAdd_wrote (s : State) (k : Nat) (d : Bytes) : (s.ringAdd k d).wrote = s.wrote := by
  rfl
@[simp] theorem State.ringAdd_presets (s : State) (k : Nat) (d : Bytes) : (s.ringAdd k d).presets = s.presets := by
  rfl
@[simp] theorem State.ringAdd_nv (s : State) (k : Nat) (d : Bytes) : (s.ringAdd k d).nv = s.nv := by
  rfl
@[simp] theorem State.ringAdd_sp (s : State) (k : Nat) (d : Bytes) : (s.ringAdd k d).sp = s.sp := by
  rfl
@[simp] theorem State.ringAdd_fifos (s : State) (k : Nat) (d : Bytes) : (s.ringAdd k d).fifos = s.fifos := by
  rfl
@[simp] theorem State.ringAdd_rc (s : State) (k : Nat) (d : Bytes) : (s.ringAdd k d).rc = s.rc := by
  rfl
@[simp] theorem State.ringAdd_ctl (s : State) (k : Nat) (d : Bytes) : (s.ringAdd k d).ctl = s.ctl := by
  rfl
@[simp] theorem State.ringAdd_keys (s : State) (k : Nat) (d : Bytes) : (s.ringAdd k d).keys = s.keys := by
  rfl
@[simp] theorem State.ringAdd_car (s : State) (k : Nat) (d : Bytes) : (s.ringAdd k d).car = s.car := by
  rfl
@[simp] theorem State.ringAdd_comp (s : State) (k : Nat) (d : Bytes) : (s.ringAdd k d).comp = s.comp := by
  rfl
@[simp] theorem State.ringAdd_cache (s : State) (k : Nat) (d : Bytes) : (s.ringAdd k d).cache = s.cache := by
  rfl
@[simp] theorem State.ringAdd_nor (s : State) (k : Nat) (d : Bytes) : (s.ringAdd k d).nor = s.nor := by
  rfl
@[simp] theorem State.ringAdd_ev (s : State) (k : Nat) (d : Bytes) : (s.ringAdd k d).ev = s.ev := by
  rfl
@[simp] theorem State.ringAdd_freeCtr (s : State) (k : Nat) (d : Bytes) : (s.ringAdd k d).freeCtr = s.freeCtr := by
  rfl

@[simp] theorem State.norWrite_pending (s : State) (a : Nat) (d : Bytes) (x : NorAct) : (s.norWrite a d x).pending = s.pending := by
  unfold State.norWrite; split <;> rfl
@[simp] theorem State.norWrite_mag (s : State) (a : Nat) (d : Bytes) (x : NorAct) : (s.norWrite a d x).mag = s.mag := by
  unfold State.norWrite; split <;> rfl
@[simp] theorem State.norWrite_params (s : State) (a : Nat) (d : Bytes) (x : NorAct) : (s.norWrite a d x).params = s.params := by
  unfold State.norWrite; split <;> rfl
@[simp] theorem State.norWrite_staged (s : State) (a : Nat) (d : Bytes) (x : NorAct) : (s.norWrite a d x).staged = s.staged := by
  unfold State.norWrite; split <;> rfl
@[simp] theorem State.norWrite_pend (s : State) (a : Nat) (d : Bytes) (x : NorAct) : (s.norWrite a d x).pend = s.pend := by
  unfold State.norWrite; split <;> rfl
@[simp] theorem State.norWrite_wrote (s : State) (a : Nat) (d : Bytes) (x : NorAct) : (s.norWrite a d x).wrote = s.wrote := by
  unfold State.norWrite; split <;> rfl
@[simp] theorem State.norWrite_presets (s : State) (a : Nat) (d : Bytes) (x : NorAct) : (s.norWrite a d x).presets = s.presets := by
  unfold State.norWrite; split <;> rfl
@[simp] theorem State.norWrite_nv (s : State) (a : Nat) (d : Bytes) (x : NorAct) : (s.norWrite a d x).nv = s.nv := by
  unfold State.norWrite; split <;> rfl
@[simp] theorem State.norWrite_sp (s : State) (a : Nat) (d : Bytes) (x : NorAct) : (s.norWrite a d x).sp = s.sp := by
  unfold State.norWrite; split <;> rfl
@[simp] theorem State.norWrite_fifos (s : State) (a : Nat) (d : Bytes) (x : NorAct) : (s.norWrite a d x).fifos = s.fifos := by
  unfold State.norWrite; split <;> rfl
@[simp] theorem State.norWrite_rc (s : State) (a : Nat) (d : Bytes) (x : NorAct) : (s.norWrite a d x).rc = s.rc := by
  unfold State.norWrite; split <;> rfl
@[simp] theorem State.norWrite_ctl (s : State) (a : Nat) (d : Bytes) (x : NorAct) : (s.norWrite a d x).ctl = s.ctl := by
  unfold State.norWrite; split <;> rfl
@[simp] theorem State.norWrite_keys (s : State) (a : Nat) (d : Bytes) (x : NorAct) : (s.norWrite a d x).keys = s.keys := by
  unfold State.norWrite; split <;> rfl
@[simp] theorem State.norWrite_car (s : State) (a : Nat) (d : Bytes) (x : NorAct) : (s.norWrite a d x).car = s.car := by
  unfold State.norWrite; split <;> rfl
@[simp] theorem State.norWrite_comp (s : State) (a : Nat) (d : Bytes) (x : NorAct) : (s.norWrite a d x).comp = s.comp := by
  unfold State.norWrite; split <;> rfl
@[simp] theorem State.norWrite_cache (s : State) (a : Nat) (d : Bytes) (x : NorAct) : (s.norWrite a d x).cache = s.cache := by
  unfold State.norWrite; split <;> rfl
@[simp] theorem State.norWrite_pw (s : State) (a : Nat) (d : Bytes) (x : NorAct) : (s.norWrite a d x).pw = s.pw := by
  unfold State.norWrite; split <;> rfl
@[simp] theorem State.norWrite_ev (s : State) (a : Nat) (d : Bytes) (x : NorAct) : (s.norWrite a d x).ev = s.ev := by
  unfold State.norWrite; split <;> rfl
@[simp] theorem State.norWrite_freeCtr (s : State) (a : Nat) (d : Bytes) (x : NorAct) : (s.norWrite a d x).freeCtr = s.freeCtr := by
  unfold State.norWrite; split <;> rfl

end Sys2Proof.Machine
end

