-- ==== Sys2Proof/Laws/Fifo.lean ====
section
/-! SUPPORT. Laws of the stream FIFOs: what a change of one FIFO leaves in the others, what a read and a write do, the order of the pointers. -/

namespace Sys2Proof.Machine

set_option Elab.async false

@[simp] theorem State.modFifo_fifo_same (s : State) (n : Nat) (f : Fifo → Fifo) : (s.modFifo n f).fifo n = f (s.fifo n) :=
  NMap.get_upd_same _ _ _ _

theorem State.modFifo_fifo_other (s : State) {n k : Nat} (f : Fifo → Fifo) (h : k ≠ n) : (s.modFifo n f).fifo k = s.fifo k :=
  NMap.get_upd_other _ _ f h

/-- A change of a FIFO changes the FIFOs only. -/
theorem State.modFifo_frame (s : State) (n : Nat) (f : Fifo → Fifo) : s.modFifo n f = { s with fifos := (s.modFifo n f).fifos } := rfl

/-- A clock of a FIFO that neither overruns it anew nor has a retention operation refused changes that FIFO and nothing else. -/
theorem State.fifoAct_quiet (s : State) {n : Nat} (c : FifoClock) {f : Fifo} (hn : n < 96)
    (h : fifoClock n (s.fifoDepth n) (s.pni pSFQ_CT_THRESH n) (s.fifo n) c = { fifo := f, overrun := false, refused := false }) :
    s.fifoAct n c = s.modFifo n (fun _ => f) := by
  simp [State.fifoAct, fifoExists, hn, h, State.when]

/-- A clock of a FIFO changes, beside that FIFO, the events, FIFO 84 and the host interface at most. -/
theorem State.fifoAct_nvEv (s : State) (n : Nat) (c : FifoClock) : s.NvEv (s.fifoAct n c) := by
  unfold State.fifoAct State.when
  split
  · dsimp only
    refine .ite (State.NvEv.trans ?_ (State.raise_nvEv _ _ _ _)) ?_ <;>
      exact .ite ((State.NvEv.modFifo _ _ (.rfl' s)).trans (State.raise_nvEv _ _ _ _)) (.modFifo _ _ (.rfl' s))
  · exact .rfl' s

/-- A read with no readable word delivers the not-valid word and changes nothing else (R104). -/
theorem fifoGet_unreadable (n thr : Nat) {f : Fifo} (h : fifoReadable n f = false) : fifoGet n thr f = { f with out := none } := by
  unfold fifoGet; rw [h]; simp

/-- A read of a readable FIFO takes the head word off, or keeps it on FIFO 66 (R104, R108). -/
theorem fifoGet_readable (n thr : Nat) {f : Fifo} {w : FWord} {ws : List FWord} (hh : f.halted = false) (hr : fifoReadable n f = true)
    (hw : f.words.drop f.p = w :: ws) :
    fifoGet n thr f =
      if n = 66 then { f with p := f.p + 1, out := some w, headRead := if w.last then 0 else f.headRead + 1 }
      else
        { f with
          words := f.words.drop 1, lp := f.lp + 1, out := some w, headRead := if w.last then 0 else f.headRead + 1
          thr := if w.last then thr else f.thr } := by
  unfold fifoGet
  rw [hh, hr, hw]
  rfl

/-- A write to a FIFO that stands still keeps the word with the producer, behind those it holds already (R105, R111). -/
theorem fifoPut_held (n depth thr : Nat) {f : Fifo} (w : FWord) (h : fifoStalls n depth f = true) :
    fifoPut n depth thr f [w] = ({ f with held := f.held ++ [w] }, false) := by
  unfold fifoPut
  cases hh : f.held with
  | nil => simp [fifoFeed, h]
  | cons v vs => simp [fifoFeed, h]

/-- A write to a FIFO that is not halted, dropping, full or holding its producer stores the word (R102, R105, R106). -/
theorem fifoPut_stores (n depth thr : Nat) {f : Fifo} (w : FWord) (h1 : f.held = []) (h2 : f.dropping = false) (h3 : f.halted = false)
    (h4 : fifoFull n depth f = false) : fifoPut n depth thr f [w] = ({ f.store thr w with held := [] }, false) := by
  simp [fifoPut, fifoFeed, fifoStalls, fifoAdmit, h1, h2, h3, h4]

/-! ### The order of the pointers -/

/-- L ≤ M ≤ P ≤ W of FIFO `n`; on every FIFO but 66 a read frees its word, so P stands at L. -/
def Fifo.Ordered (n : Nat) (f : Fifo) : Prop := f.m ≤ f.p ∧ f.p ≤ f.words.length ∧ (n ≠ 66 → f.p = 0)

theorem Fifo.ordered_empty (n : Nat) : Fifo.empty.Ordered n := ⟨Nat.le_refl _, Nat.le_refl _, fun _ => rfl⟩

theorem Fifo.ordered_store {n : Nat} {f : Fifo} (thr : Nat) (w : FWord) (h : f.Ordered n) : (f.store thr w).Ordered n := by
  refine ⟨h.1, ?_, h.2.2⟩
  have := h.2.1
  simp only [Fifo.store, List.length_append, List.length_singleton]
  omega

theorem ordered_fifoAdmit {n : Nat} (depth thr : Nat) {f : Fifo} (w : FWord) (h : f.Ordered n) : (fifoAdmit n depth thr f w).1.Ordered n := by
  unfold fifoAdmit
  repeat' split
  all_goals first | exact h | exact Fifo.ordered_store thr w h

theorem ordered_fifoFeed {n : Nat} (depth thr : Nat) : ∀ (ws : List FWord) {f : Fifo}, f.Ordered n → (fifoFeed n depth thr ws f).1.Ordered n
  | [], _, h => h
  | w :: ws, f, h => by
    unfold fifoFeed
    split
    · exact h
    · exact ordered_fifoFeed depth thr ws (ordered_fifoAdmit depth thr w h)

theorem ordered_fifoPut {n : Nat} (depth thr : Nat) {f : Fifo} (ws : List FWord) (h : f.Ordered n) : (fifoPut n depth thr f ws).1.Ordered n :=
  ordered_fifoFeed depth thr _ h

theorem ordered_fifoGet {n : Nat} (thr : Nat) {f : Fifo} (h : f.Ordered n) : (fifoGet n thr f).Ordered n := by
  unfold fifoGet
  split
  · split
    · next w ws hw =>
      have hl : f.p < f.words.length := by
        rcases Nat.lt_or_ge f.p f.words.length with hp | hp
        · exact hp
        · rw [List.drop_eq_nil_of_le hp] at hw; cases hw
      obtain ⟨h1, h2, h3⟩ := h
      dsimp only
      split
      · next e => exact ⟨by dsimp only; omega, by dsimp only; omega, fun c => absurd e c⟩
      · next e =>
        have := h3 e
        refine ⟨h1, ?_, fun _ => this⟩
        simp only [List.length_drop]
        omega
    · exact h
  · exact h

theorem packetWords_le : ∀ (k : Nat) (ws : List FWord) (j : Nat), packetWords k ws = some j → j ≤ ws.length
  | 0, ws, j, h => by simp [packetWords] at h; omega
  | k + 1, [], j, h => by simp [packetWords] at h
  | k + 1, w :: ws, j, h => by
    unfold packetWords at h
    split at h
    · obtain ⟨a, ha, rfl⟩ := Option.map_eq_some_iff.mp h
      have := packetWords_le k ws a ha
      simp only [List.length_cons]; omega
    · obtain ⟨a, ha, rfl⟩ := Option.map_eq_some_iff.mp h
      have := packetWords_le (k + 1) ws a ha
      simp only [List.length_cons]; omega

theorem Fifo.ordered_advance {n : Nat} {f g : Fifo} (h : f.Ordered n) (e : f.advance = some g) : g.Ordered n := by
  unfold Fifo.advance at e
  obtain ⟨h1, h2, h3⟩ := h
  split at e
  · cases e
  · split at e
    · next j hj =>
      cases e
      have := packetWords_le _ _ _ hj
      simp only [List.length_take, List.length_drop] at this
      exact ⟨by dsimp only; omega, h2, h3⟩
    · cases e; exact ⟨Nat.le_refl _, h2, h3⟩

theorem Fifo.ordered_rewindMark {n : Nat} {f : Fifo} (h : f.Ordered n) : f.rewindMark.Ordered n :=
  ⟨Nat.le_refl _, Nat.le_trans h.1 h.2.1, fun c => Nat.le_zero.mp (h.2.2 c ▸ h.1)⟩

theorem Fifo.ordered_rewindRelease (n : Nat) (f : Fifo) : f.rewindRelease.Ordered n := ⟨Nat.le_refl _, Nat.zero_le _, fun _ => rfl⟩

theorem Fifo.ordered_release {n : Nat} {f g : Fifo} (k : Nat) (h : f.Ordered n) (e : f.release k = some g) : g.Ordered n := by
  unfold Fifo.release at e
  obtain ⟨h1, h2, h3⟩ := h
  split at e
  · cases e
  · split at e
    · next j hj =>
      cases e
      have := packetWords_le _ _ _ hj
      simp only [List.length_take] at this
      refine ⟨by dsimp only; omega, ?_, fun c => by have := h3 c; dsimp only; omega⟩
      simp only [List.length_drop]; omega
    · cases e

theorem Fifo.ordered_retain {n : Nat} {f g : Fifo} (o : RetOp) (h : f.Ordered n) (e : f.retain o = some g) : g.Ordered n := by
  cases o with
  | advance => exact Fifo.ordered_advance h e
  | rewindMark => cases e; exact Fifo.ordered_rewindMark h
  | release k => exact Fifo.ordered_release k h e
  | rewindRelease => cases e; exact Fifo.ordered_rewindRelease n f

theorem Fifo.ordered_wiped (n : Nat) (f : Fifo) : f.wiped.Ordered n := ⟨Nat.le_refl _, Nat.le_refl _, fun _ => rfl⟩

theorem Fifo.ordered_clockRead {n : Nat} (thr : Nat) {f : Fifo} (op : Option RetOp) (read : Bool) (h : f.Ordered n) :
    (f.clockRead n thr op read).1.Ordered n := by
  unfold Fifo.clockRead
  split
  · next o =>
    have hf : (if read then { f with out := none } else f).Ordered n := by split <;> exact h
    dsimp only
    split
    · next g hg => exact Fifo.ordered_retain o hf hg
    · exact hf
  · dsimp only
    split
    · exact ordered_fifoGet thr h
    · exact h

/-- A clock of a FIFO keeps the order of its pointers. -/
theorem ordered_fifoClock {n : Nat} (depth thr : Nat) {f : Fifo} (c : FifoClock) (h : f.Ordered n) : (fifoClock n depth thr f c).fifo.Ordered n := by
  have hr : (f.clockReset c.reset).Ordered n := by
    unfold Fifo.clockReset
    split
    · exact Fifo.ordered_wiped n f
    · exact h
  exact ordered_fifoPut depth thr _ (Fifo.ordered_clockRead thr c.op c.read hr)

/-- The consumer of a FIFO other than 66 keeps the order when it takes the complete packets. -/
theorem Fifo.ordered_takePackets {n : Nat} (thr : Nat) {f : Fifo} (hn : n ≠ 66) (h : f.Ordered n) : (f.takePackets thr).2.Ordered n := by
  obtain ⟨h1, _, h3⟩ := h
  have hp := h3 hn
  unfold Fifo.takePackets
  dsimp only
  repeat' split
  all_goals exact ⟨h1, by dsimp only; omega, h3⟩

theorem Fifo.ordered_passes {n : Nat} (k high : Nat) {f : Fifo} (hn : n ≠ 66) (h : f.Ordered n) : (f.passes k high).Ordered n :=
  ⟨h.1, h.2.2 hn ▸ Nat.zero_le _, h.2.2⟩

/-- A change of one FIFO that keeps its order keeps the order of every FIFO. -/
theorem ordered_upd {m : NMap Fifo} (n : Nat) (f : Fifo → Fifo) (hf : ∀ x : Fifo, x.Ordered n → (f x).Ordered n)
    (h : ∀ e ∈ m, e.2.Ordered e.1) : ∀ e ∈ NMap.upd Fifo.empty m n f, e.2.Ordered e.1 := by
  intro e he
  unfold NMap.upd at he
  rcases NMap.mem_set he with rfl | he
  · apply hf
    unfold NMap.get
    cases hx : NMap.find? m n with
    | none => exact Fifo.ordered_empty n
    | some x => exact h _ (NMap.find?_mem hx)
  · exact h e he

end Sys2Proof.Machine
end

