-- ==== Sys2Proof/Laws/Host.lean ====
section
/-! SUPPORT. What happens to a command that is taken: its body runs on the state that the fetch leaves. -/

namespace Sys2Proof.Machine

set_option Elab.async false

/-- An admin command that is taken runs its body, when it may run in SAFE. -/
theorem State.adminCmd_admin {s t : State} {h : Hdr} {q : Nat} (body : Nat → State → State) (k : s.Admin h q t) :
    s.adminCmd h true body = body q t := by
  obtain ⟨hb, hq⟩ := k
  simp [State.adminCmd, hb, hq]

/-- An admin command that is taken outside SAFE runs its body. -/
theorem State.adminCmd_runs {s t : State} {h : Hdr} {q : Nat} (safe : Bool) (body : Nat → State → State) (k : s.AdminRuns h q t) :
    s.adminCmd h safe body = body q t := by
  obtain ⟨⟨hb, hq⟩, hs⟩ := k
  simp [State.adminCmd, hb, hq, hs]

/-- In SAFE an admin command that R325 does not allow there is refused. -/
theorem State.adminCmd_safe {s t : State} {h : Hdr} {q : Nat} (body : Nat → State → State) (k : s.Admin h q t) (hs : t.mag.st = .safe) :
    s.adminCmd h false body = t.done q stSequence := by
  obtain ⟨hb, hq⟩ := k
  simp [State.adminCmd, hb, hq, hs]

/-- An I/O command that is taken runs its body. -/
theorem State.ioCmd_runs {s t : State} {h : Hdr} {q : Nat} (body : Nat → State → State) (k : s.IoRuns h q t) :
    s.ioCmd h body = body q t := by
  obtain ⟨hb, hq, hs, hd⟩ := k
  simp only [State.ioCmd, hb, hq, hs, hd, if_false, Bool.false_eq_true]

/-- A command of the take namespace runs the take namespace's body. -/
theorem State.ioNs_take {s t : State} {h : Hdr} {q : Nat} (take side : Nat → State → State) (k : s.TakeRuns h q t) :
    s.ioNs h 1 take side = take q t := by
  obtain ⟨hr, hc⟩ := k
  simp [State.ioNs, State.ioCmd_runs _ hr, hc]

/-- A command of the sidecar namespace runs the sidecar's body. -/
theorem State.ioNs_side {s t : State} {h : Hdr} {q : Nat} (take side : Nat → State → State) (k : s.IoRuns h q t) :
    s.ioNs h 2 take side = side q t := by
  simp [State.ioNs, State.ioCmd_runs _ k]

/-- A zone command on a cartridge that may be written runs its body. -/
theorem State.zoneCmd_runs {s t : State} {h : Hdr} {q : Nat} (body : Nat → State → State) (k : s.TakeRuns h q t)
    (hp : t.takeProtected = false) : s.zoneCmd h 1 body = body q t := by
  simp [State.zoneCmd, State.ioNs_take _ _ k, hp]

/-- An address at the start of a zone of the namespace names that zone. -/
theorem State.onZone_at {s : State} {q slba : Nat} (act : Nat → State) (hr : slba < s.takeLbas) (hz : slba % 65536 = 0) :
    s.onZone q slba act = act (zoneOf slba) := by
  simp [State.onZone, Nat.not_le.mpr hr, hz]

/-- Set Features of a known feature that is not to be saved acts. -/
theorem State.setFeatures_runs {s t : State} {h : Hdr} {q fid : Nat} (act : Nat → State → State) (k : s.AdminRuns h q t)
    (hf : featureKnown fid = true) : s.setFeatures h fid false act = .next (act q t).goOn := by
  simp [State.setFeatures, State.adminCmd_runs _ _ k, hf]

end Sys2Proof.Machine
end

