-- ==== Sys2Proof/Laws/PerInstr.lean ====
section
/-! SUPPORT. Facts about every command as syntax, one lemma per constructor: a well-formed command that a host sends has a well-formed header. -/

namespace Sys2Proof.Laws.Operands

set_option Elab.async false

open Sys2Proof

/-- The header of a well-formed command names a queue and a command identifier of 16 bits each. -/
def Statement (i : Instr) : Prop := i.wf = true → ∀ k, i.hdr? = some k → k.wf = true

/-- The first of several checks holds when all do. -/
theorem first {a b : Bool} (h : (a && b) = true) : a = true := (Bool.and_eq_true_iff.mp h).1

/-- The header of a host command. -/
theorem ofSome {h k : Hdr} (w : h.wf = true) (e : some h = some k) : k.wf = true := Option.some.inj e ▸ w

/-- The header of a register write, when it has one. -/
theorem ofOpt {w : Option Hdr} {k : Hdr} (hw : hdrWf w = true) (e : w = some k) : k.wf = true := by
  subst e; exact hw

/-- A command without a header. -/
theorem noHdr {k : Hdr} {P : Prop} (e : (none : Option Hdr) = some k) : P := by cases e

theorem createIoSubmissionQueue (h : Hdr) (qid : Nat) (size : Nat) (prio : Nat) (cqid : Nat) (pc : Bool) : Statement (.createIoSubmissionQueue h qid size prio cqid pc) := fun hw _ hk => ofSome (Operands.first (Operands.first (Operands.first (Operands.first hw)))) hk
theorem createIoCompletionQueue (h : Hdr) (qid : Nat) (size : Nat) (vector : Nat) (ien : Bool) (pc : Bool) : Statement (.createIoCompletionQueue h qid size vector ien pc) := fun hw _ hk => ofSome (Operands.first (Operands.first (Operands.first hw))) hk
theorem deleteIoSubmissionQueue (h : Hdr) (qid : Nat) : Statement (.deleteIoSubmissionQueue h qid) := fun hw _ hk => ofSome (Operands.first hw) hk
theorem deleteIoCompletionQueue (h : Hdr) (qid : Nat) : Statement (.deleteIoCompletionQueue h qid) := fun hw _ hk => ofSome (Operands.first hw) hk
theorem getLogPage (h : Hdr) (lid : Nat) (off : Nat) (dwords : Nat) (rae : Bool) : Statement (.getLogPage h lid off dwords rae) := fun hw _ hk => ofSome (Operands.first (Operands.first (Operands.first hw))) hk
theorem identify (h : Hdr) (cns : Nat) (nsid : Nat) (csi : Nat) : Statement (.identify h cns nsid csi) := fun hw _ hk => ofSome (Operands.first (Operands.first (Operands.first hw))) hk
theorem abort (h : Hdr) (sqid : Nat) (cid : Nat) : Statement (.abort h sqid cid) := fun hw _ hk => ofSome (Operands.first (Operands.first hw)) hk
theorem setFeatures (h : Hdr) (fid : Nat) (save : Bool) (d11 : Nat) (d12 : Nat) (data : Bytes) : Statement (.setFeatures h fid save d11 d12 data) := fun hw _ hk => ofSome (Operands.first (Operands.first (Operands.first hw))) hk
theorem setVolatileWriteCache (h : Hdr) (save : Bool) (d11 : Nat) : Statement (.setVolatileWriteCache h save d11) := fun hw _ hk => ofSome (Operands.first hw) hk
theorem setHostMemoryBuffer (h : Hdr) (save : Bool) (d11 : Nat) (size : Nat) : Statement (.setHostMemoryBuffer h save d11 size) := fun hw _ hk => ofSome (Operands.first (Operands.first hw)) hk
theorem setTimestamp (h : Hdr) (save : Bool) (ms : Nat) : Statement (.setTimestamp h save ms) := fun hw _ hk => ofSome (Operands.first hw) hk
theorem setSpeedPolicy (h : Hdr) (save : Bool) (data : Bytes) : Statement (.setSpeedPolicy h save data) := fun hw _ hk => ofSome hw hk
theorem setAcknowledgeCreditPolicy (h : Hdr) (save : Bool) (d11 : Nat) : Statement (.setAcknowledgeCreditPolicy h save d11) := fun hw _ hk => ofSome (Operands.first hw) hk
theorem setCompressionPolicy (h : Hdr) (save : Bool) (d11 : Nat) : Statement (.setCompressionPolicy h save d11) := fun hw _ hk => ofSome (Operands.first hw) hk
theorem setOperatingContext (h : Hdr) (save : Bool) (d11 : Nat) : Statement (.setOperatingContext h save d11) := fun hw _ hk => ofSome (Operands.first hw) hk
theorem setRewritePolicy (h : Hdr) (save : Bool) (data : Bytes) : Statement (.setRewritePolicy h save data) := fun hw _ hk => ofSome hw hk
theorem setComputePolicy (h : Hdr) (save : Bool) (d11 : Nat) : Statement (.setComputePolicy h save d11) := fun hw _ hk => ofSome (Operands.first hw) hk
theorem getFeatures (h : Hdr) (fid : Nat) (sel : Nat) (d11 : Nat) : Statement (.getFeatures h fid sel d11) := fun hw _ hk => ofSome (Operands.first (Operands.first (Operands.first hw))) hk
theorem asynchronousEventRequest (h : Hdr) : Statement (.asynchronousEventRequest h) := fun hw _ hk => ofSome hw hk
theorem firmwareImageDownload (h : Hdr) (off : Nat) (data : Bytes) : Statement (.firmwareImageDownload h off data) := fun hw _ hk => ofSome (Operands.first hw) hk
theorem firmwareCommitStore (h : Hdr) (slot : Nat) : Statement (.firmwareCommitStore h slot) := fun hw _ hk => ofSome (Operands.first hw) hk
theorem firmwareCommitStoreAndMark (h : Hdr) (slot : Nat) : Statement (.firmwareCommitStoreAndMark h slot) := fun hw _ hk => ofSome (Operands.first hw) hk
theorem firmwareCommitMark (h : Hdr) (slot : Nat) : Statement (.firmwareCommitMark h slot) := fun hw _ hk => ofSome (Operands.first hw) hk
theorem firmwareCommitActivate (h : Hdr) (slot : Nat) : Statement (.firmwareCommitActivate h slot) := fun hw _ hk => ofSome (Operands.first hw) hk
theorem formatNvm (h : Hdr) (nsid : Nat) (ses : Nat) (lbaf : Nat) : Statement (.formatNvm h nsid ses lbaf) := fun hw _ hk => ofSome (Operands.first (Operands.first (Operands.first hw))) hk
theorem formatSecureEraseTake (h : Hdr) (nsid : Nat) (lbaf : Nat) : Statement (.formatSecureEraseTake h nsid lbaf) := fun hw _ hk => ofSome (Operands.first (Operands.first hw)) hk
theorem parameterRead (h : Hdr) (d10 : Nat) (first : Nat) (count : Nat) : Statement (.parameterRead h d10 first count) := fun hw _ hk => ofSome (Operands.first (Operands.first (Operands.first hw))) hk
theorem parameterWrite (h : Hdr) (d10 : Nat) (first : Nat) (count : Nat) (data : Bytes) : Statement (.parameterWrite h d10 first count data) := fun hw _ hk => ofSome (Operands.first (Operands.first (Operands.first hw))) hk
theorem parameterCommit (h : Hdr) (op : Nat) : Statement (.parameterCommit h op) := fun hw _ hk => ofSome (Operands.first hw) hk
theorem parameterDiscard (h : Hdr) : Statement (.parameterDiscard h) := fun hw _ hk => ofSome hw hk
theorem keyDepositClaim (h : Hdr) (data : Bytes) : Statement (.keyDepositClaim h data) := fun hw _ hk => ofSome hw hk
theorem keyDepositReplaceOwnerKey (h : Hdr) (data : Bytes) : Statement (.keyDepositReplaceOwnerKey h data) := fun hw _ hk => ofSome hw hk
theorem keyDepositEscrowKey (h : Hdr) (data : Bytes) : Statement (.keyDepositEscrowKey h data) := fun hw _ hk => ofSome hw hk
theorem keyDepositRemoveEscrowKey (h : Hdr) (data : Bytes) : Statement (.keyDepositRemoveEscrowKey h data) := fun hw _ hk => ofSome hw hk
theorem keyDepositEraseTake (h : Hdr) (data : Bytes) : Statement (.keyDepositEraseTake h data) := fun hw _ hk => ofSome hw hk
theorem keyDepositRecoverAndAdopt (h : Hdr) (data : Bytes) : Statement (.keyDepositRecoverAndAdopt h data) := fun hw _ hk => ofSome hw hk
theorem ownerChallenge (h : Hdr) : Statement (.ownerChallenge h) := fun hw _ hk => ofSome hw hk
theorem ownerChallengeQuery (h : Hdr) : Statement (.ownerChallengeQuery h) := fun hw _ hk => ofSome hw hk
theorem ownerResponse (h : Hdr) (data : Bytes) : Statement (.ownerResponse h data) := fun hw _ hk => ofSome hw hk
theorem kernelLoad (h : Hdr) (d10 : Nat) (image : Bytes) : Statement (.kernelLoad h d10 image) := fun hw _ hk => ofSome (Operands.first hw) hk
theorem kernelLoadRom (h : Hdr) (number : Nat) : Statement (.kernelLoadRom h number) := fun hw _ hk => ofSome (Operands.first hw) hk
theorem kernelUnload (h : Hdr) (inst : Nat) : Statement (.kernelUnload h inst) := fun hw _ hk => ofSome (Operands.first hw) hk
theorem traceRead (h : Hdr) (d10 : Nat) (first : Nat) (src : Nat) : Statement (.traceRead h d10 first src) := fun hw _ hk => ofSome (Operands.first (Operands.first (Operands.first hw))) hk
theorem transportTensionOn (h : Hdr) : Statement (.transportTensionOn h) := fun hw _ hk => ofSome hw hk
theorem transportTensionOff (h : Hdr) : Statement (.transportTensionOff h) := fun hw _ hk => ofSome hw hk
theorem transportPark (h : Hdr) (arg : Nat) : Statement (.transportPark h arg) := fun hw _ hk => ofSome (Operands.first hw) hk
theorem transportLocate (h : Hdr) (d11 : Nat) (d12 : Nat) : Statement (.transportLocate h d11 d12) := fun hw _ hk => ofSome (Operands.first (Operands.first hw)) hk
theorem transportShuttle (h : Hdr) : Statement (.transportShuttle h) := fun hw _ hk => ofSome hw hk
theorem transportCalibrate (h : Hdr) (arg : Nat) : Statement (.transportCalibrate h arg) := fun hw _ hk => ofSome (Operands.first hw) hk
theorem transportEjectPrepare (h : Hdr) (arg : Nat) : Statement (.transportEjectPrepare h arg) := fun hw _ hk => ofSome (Operands.first hw) hk
theorem transportServiceUnload (h : Hdr) : Statement (.transportServiceUnload h) := fun hw _ hk => ofSome hw hk
theorem transportServiceLoad (h : Hdr) : Statement (.transportServiceLoad h) := fun hw _ hk => ofSome hw hk
theorem transportResumeWriting (h : Hdr) (arg : Nat) : Statement (.transportResumeWriting h arg) := fun hw _ hk => ofSome (Operands.first hw) hk
theorem unsupportedCommand (h : Hdr) (opcode : Nat) (nsid : Nat) (d10 : Nat) : Statement (.unsupportedCommand h opcode nsid d10) := fun hw _ hk => ofSome (Operands.first (Operands.first (Operands.first hw))) hk
theorem flush (h : Hdr) (nsid : Nat) : Statement (.flush h nsid) := fun hw _ hk => ofSome (Operands.first hw) hk
theorem write (h : Hdr) (nsid : Nat) (slba : Nat) (nlb : Nat) (fua : Bool) (cdw2 : Nat) (cdw3 : Nat) (data : Option Bytes) : Statement (.write h nsid slba nlb fua cdw2 cdw3 data) := fun hw _ hk => ofSome (Operands.first (Operands.first (Operands.first (Operands.first (Operands.first (Operands.first hw)))))) hk
theorem zoneAppend (h : Hdr) (nsid : Nat) (slba : Nat) (nlb : Nat) (fua : Bool) (cdw2 : Nat) (cdw3 : Nat) (data : Option Bytes) : Statement (.zoneAppend h nsid slba nlb fua cdw2 cdw3 data) := fun hw _ hk => ofSome (Operands.first (Operands.first (Operands.first (Operands.first (Operands.first (Operands.first hw)))))) hk
theorem read (h : Hdr) (nsid : Nat) (slba : Nat) (nlb : Nat) (limited : Bool) : Statement (.read h nsid slba nlb limited) := fun hw _ hk => ofSome (Operands.first (Operands.first (Operands.first hw))) hk
theorem writeZeroes (h : Hdr) (nsid : Nat) (slba : Nat) (nlb : Nat) : Statement (.writeZeroes h nsid slba nlb) := fun hw _ hk => ofSome (Operands.first (Operands.first (Operands.first hw))) hk
theorem datasetManagement (h : Hdr) (nsid : Nat) (deallocate : Bool) (ranges : List (Nat × Nat)) : Statement (.datasetManagement h nsid deallocate ranges) := fun hw _ hk => ofSome (Operands.first (Operands.first hw)) hk
theorem zoneOpen (h : Hdr) (nsid : Nat) (slba : Nat) (all : Bool) : Statement (.zoneOpen h nsid slba all) := fun hw _ hk => ofSome (Operands.first (Operands.first hw)) hk
theorem zoneClose (h : Hdr) (nsid : Nat) (slba : Nat) (all : Bool) : Statement (.zoneClose h nsid slba all) := fun hw _ hk => ofSome (Operands.first (Operands.first hw)) hk
theorem zoneFinish (h : Hdr) (nsid : Nat) (slba : Nat) (all : Bool) : Statement (.zoneFinish h nsid slba all) := fun hw _ hk => ofSome (Operands.first (Operands.first hw)) hk
theorem zoneReset (h : Hdr) (nsid : Nat) (slba : Nat) : Statement (.zoneReset h nsid slba) := fun hw _ hk => ofSome (Operands.first (Operands.first hw)) hk
theorem zoneResetAll (h : Hdr) (nsid : Nat) : Statement (.zoneResetAll h nsid) := fun hw _ hk => ofSome (Operands.first hw) hk
theorem zoneOffline (h : Hdr) (nsid : Nat) (slba : Nat) : Statement (.zoneOffline h nsid slba) := fun hw _ hk => ofSome (Operands.first (Operands.first hw)) hk
theorem zoneManagementReceive (h : Hdr) (nsid : Nat) (slba : Nat) (dwords : Nat) (zra : Nat) (zrasf : Nat) (part : Bool) : Statement (.zoneManagementReceive h nsid slba dwords zra zrasf part) := fun hw _ hk => ofSome (Operands.first (Operands.first (Operands.first (Operands.first (Operands.first hw))))) hk
theorem kernelInvoke (h : Hdr) (nsid : Nat) (d10 : Nat) (block : Bytes) : Statement (.kernelInvoke h nsid d10 block) := fun hw _ hk => ofSome (Operands.first (Operands.first hw)) hk
theorem spoolCommit (h : Hdr) (nsid : Nat) : Statement (.spoolCommit h nsid) := fun hw _ hk => ofSome (Operands.first hw) hk
theorem takeMark (h : Hdr) (nsid : Nat) : Statement (.takeMark h nsid) := fun hw _ hk => ofSome (Operands.first hw) hk
theorem ccEnSet (ams : Nat) (css : Nat) (asqs : Nat) (acqs : Nat) : Statement (.ccEnSet ams css asqs acqs) := fun _ _ hk => noHdr hk
theorem ccEnClear : Statement (.ccEnClear) := fun _ _ hk => noHdr hk
theorem shutdownNormal : Statement (.shutdownNormal) := fun _ _ hk => noHdr hk
theorem shutdownAbrupt : Statement (.shutdownAbrupt) := fun _ _ hk => noHdr hk
theorem sqTailDoorbell (qid : Nat) (value : Nat) : Statement (.sqTailDoorbell qid value) := fun _ _ hk => noHdr hk
theorem cqHeadDoorbell (qid : Nat) (value : Nat) : Statement (.cqHeadDoorbell qid value) := fun _ _ hk => noHdr hk
theorem perstNAssert : Statement (.perstNAssert) := fun _ _ hk => noHdr hk
theorem functionLevelReset : Statement (.functionLevelReset) := fun _ _ hk => noHdr hk
theorem linkTrained (rate : Nat) (width : Nat) (flit : Bool) : Statement (.linkTrained rate width flit) := fun _ _ hk => noHdr hk
theorem linkDown (requested : Bool) : Statement (.linkDown requested) := fun _ _ hk => noHdr hk
theorem commandFetch : Statement (.commandFetch) := fun _ _ hk => noHdr hk
theorem writeDataTransfer (sq : Nat) (cid : Nat) (data : Option Bytes) : Statement (.writeDataTransfer sq cid data) := fun _ _ hk => noHdr hk
theorem writeCreditGrant : Statement (.writeCreditGrant) := fun _ _ hk => noHdr hk
theorem creditWaitTimeout : Statement (.creditWaitTimeout) := fun _ _ hk => noHdr hk
theorem recordIdleTimeout (zone : Nat) : Statement (.recordIdleTimeout zone) := fun _ _ hk => noHdr hk
theorem compressionBlockCode (engine : Nat) : Statement (.compressionBlockCode engine) := fun _ _ hk => noHdr hk
theorem overflowBufferFreed (engine : Nat) : Statement (.overflowBufferFreed engine) := fun _ _ hk => noHdr hk
theorem xtsSectorEncrypt : Statement (.xtsSectorEncrypt) := fun _ _ hk => noHdr hk
theorem dsAssembled : Statement (.dsAssembled) := fun _ _ hk => noHdr hk
theorem ivCeilingRefresh : Statement (.ivCeilingRefresh) := fun _ _ hk => noHdr hk
theorem ivCeilingWriteDone (ok0 : Bool) (ok1 : Bool) : Statement (.ivCeilingWriteDone ok0 ok1) := fun _ _ hk => noHdr hk
theorem speedRequestUpdate : Statement (.speedRequestUpdate) := fun _ _ hk => noHdr hk
theorem fsyncEdge (lowNs : Nat) (highNs : Nat) (periodUs : Nat) : Statement (.fsyncEdge lowNs highNs periodUs) := fun _ _ hk => noHdr hk
theorem fsyncTimeout : Statement (.fsyncTimeout) := fun _ _ hk => noHdr hk
theorem dsPositionBoundary (ready : Bool) : Statement (.dsPositionBoundary ready) := fun _ _ hk => noHdr hk
theorem verifyResult : Statement (.verifyResult) := fun _ _ hk => noHdr hk
theorem groupSpoolCommit : Statement (.groupSpoolCommit) := fun _ _ hk => noHdr hk
theorem crawlLimitExpiry : Statement (.crawlLimitExpiry) := fun _ _ hk => noHdr hk
theorem tensionedIdleTimeout : Statement (.tensionedIdleTimeout) := fun _ _ hk => noHdr hk
theorem playbackIdleTimeout : Statement (.playbackIdleTimeout) := fun _ _ hk => noHdr hk
theorem wrapTurnaround : Statement (.wrapTurnaround) := fun _ _ hk => noHdr hk
theorem tapeTailScan (lastSeparator : Option Nat) (headPosition : Nat) : Statement (.tapeTailScan lastSeparator headPosition) := fun _ _ hk => noHdr hk
theorem fifoWrite (n : Nat) (payload : Nat) (last : Bool) (count : Nat) : Statement (.fifoWrite n payload last count) := fun _ _ hk => noHdr hk
theorem fifoRead (n : Nat) : Statement (.fifoRead n) := fun _ _ hk => noHdr hk
theorem fifoAdvance : Statement (.fifoAdvance) := fun _ _ hk => noHdr hk
theorem fifoRewindMark : Statement (.fifoRewindMark) := fun _ _ hk => noHdr hk
theorem fifoRelease (k : Nat) : Statement (.fifoRelease k) := fun _ _ hk => noHdr hk
theorem fifoRewindRelease : Statement (.fifoRewindRelease) := fun _ _ hk => noHdr hk
theorem fifoPointerMismatch (n : Nat) : Statement (.fifoPointerMismatch n) := fun _ _ hk => noHdr hk
theorem fifoExtendedBodyError (n : Nat) : Statement (.fifoExtendedBodyError n) := fun _ _ hk => noHdr hk
theorem sfqRestart (w : Option Hdr) (n : Nat) : Statement (.sfqRestart w n) := fun hw _ hk => ofOpt (Operands.first hw) hk
theorem sfqStickyClear (w : Option Hdr) (n : Nat) (bits : Nat) : Statement (.sfqStickyClear w n bits) := fun hw _ hk => ofOpt (Operands.first (Operands.first hw)) hk
theorem engineGroupWake (g : Nat) : Statement (.engineGroupWake g) := fun _ _ hk => noHdr hk
theorem dsSeparatorDetected (lane : Nat) (samples : List Int) : Statement (.dsSeparatorDetected lane samples) := fun _ _ hk => noHdr hk
theorem syncWindowClose (lane : Nat) (slot : Nat) (samples : List Int) : Statement (.syncWindowClose lane slot samples) := fun _ _ hk => noHdr hk
theorem rowFramed (lane : Nat) (slot : Nat) (cand : Nat) (samples : List Int) (timeNs : Nat) (gain : Nat) (offset : Int) (asym : Int) : Statement (.rowFramed lane slot cand samples timeNs gain offset asym) := fun _ _ hk => noHdr hk
theorem lockLost (lane : Nat) (samples : List Int) : Statement (.lockLost lane samples) := fun _ _ hk => noHdr hk
theorem dropoutSpan (lane : Nat) (slot : Nat) (kind : Nat) (first : Nat) (last : Nat) (samples : List Int) : Statement (.dropoutSpan lane slot kind first last samples) := fun _ _ hk => noHdr hk
theorem servoFrame (lane : Nat) (mark : Nat) (timeNs : Nat) (a : Nat) (b : Nat) : Statement (.servoFrame lane mark timeNs a b) := fun _ _ hk => noHdr hk
theorem tapePositionWord (lane : Nat) (bits : Nat) : Statement (.tapePositionWord lane bits) := fun _ _ hk => noHdr hk
theorem speedMeasurement (reverse : Bool) (marks : List (Nat × Nat)) : Statement (.speedMeasurement reverse marks) := fun _ _ hk => noHdr hk
theorem servoFrameTimeout (lane : Nat) : Statement (.servoFrameTimeout lane) := fun _ _ hk => noHdr hk
theorem rowDecode (lane : Nat) (slot : Nat) : Statement (.rowDecode lane slot) := fun _ _ hk => noHdr hk
theorem captureComplete : Statement (.captureComplete) := fun _ _ hk => noHdr hk
theorem recordDecompressStart : Statement (.recordDecompressStart) := fun _ _ hk => noHdr hk
theorem recordCrcCheck : Statement (.recordCrcCheck) := fun _ _ hk => noHdr hk
theorem rereadPassStart (seq : Nat) : Statement (.rereadPassStart seq) := fun _ _ hk => noHdr hk
theorem retryTimeExpiry (seq : Nat) : Statement (.retryTimeExpiry seq) := fun _ _ hk => noHdr hk
theorem slotSampleInstant (slot : Nat) : Statement (.slotSampleInstant slot) := fun _ _ hk => noHdr hk
theorem limiterUpdate : Statement (.limiterUpdate) := fun _ _ hk => noHdr hk
theorem dwellEnd : Statement (.dwellEnd) := fun _ _ hk => noHdr hk
theorem supervisorFeedbackPeriod (slot : Nat) : Statement (.supervisorFeedbackPeriod slot) := fun _ _ hk => noHdr hk
theorem faultLineAsserted (link : Nat) : Statement (.faultLineAsserted link) := fun _ _ hk => noHdr hk
theorem substitutionEnd (slot : Nat) : Statement (.substitutionEnd slot) := fun _ _ hk => noHdr hk
theorem stopComplete : Statement (.stopComplete) := fun _ _ hk => noHdr hk
theorem ctlRearm (w : Option Hdr) (slot : Nat) : Statement (.ctlRearm w slot) := fun hw _ hk => ofOpt (Operands.first hw) hk
theorem trapezeAutoRearm : Statement (.trapezeAutoRearm) := fun _ _ hk => noHdr hk
theorem encoderEdge (reel : Nat) (a : Bool) (b : Bool) (index : Bool) (cycles : Nat) : Statement (.encoderEdge reel a b index cycles) := fun _ _ hk => noHdr hk
theorem shuttleCodeSample (raw : Nat) : Statement (.shuttleCodeSample raw) := fun _ _ hk => noHdr hk
theorem linkSampleFrame (link : Nat) : Statement (.linkSampleFrame link) := fun _ _ hk => noHdr hk
theorem linkStatusFrame (link : Nat) (frame : Nat) (late : Bool) : Statement (.linkStatusFrame link frame late) := fun _ _ hk => noHdr hk
theorem traceSample : Statement (.traceSample) := fun _ _ hk => noHdr hk
theorem traceFreeze : Statement (.traceFreeze) := fun _ _ hk => noHdr hk
theorem ctlTrcArm (w : Option Hdr) : Statement (.ctlTrcArm w) := fun hw _ hk => ofOpt hw hk
theorem ctlTrcSoftwareTrigger (w : Option Hdr) : Statement (.ctlTrcSoftwareTrigger w) := fun hw _ hk => ofOpt hw hk
theorem preampTransaction (m : Nat) (rd : Bool) (reg : Nat) (data : Nat) (replies : List Nat) : Statement (.preampTransaction m rd reg data replies) := fun _ _ hk => noHdr hk
theorem preampFault (m : Nat) (status : Nat) : Statement (.preampFault m status) := fun _ _ hk => noHdr hk
theorem tensionUp (pg10 : Bool) (pg11 : Bool) : Statement (.tensionUp pg10 pg11) := fun _ _ hk => noHdr hk
theorem radiusProbeDone (ok : Bool) (supplyUm : Nat) (takeupUm : Nat) : Statement (.radiusProbeDone ok supplyUm takeupUm) := fun _ _ hk => noHdr hk
theorem tensionSettled : Statement (.tensionSettled) := fun _ _ hk => noHdr hk
theorem tensionTimeout : Statement (.tensionTimeout) := fun _ _ hk => noHdr hk
theorem positionValid (tpn : Nat) (frame : Nat) (boundary : Nat) : Statement (.positionValid tpn frame boundary) := fun _ _ hk => noHdr hk
theorem findPositionFailed (cause : Nat) : Statement (.findPositionFailed cause) := fun _ _ hk => noHdr hk
theorem locateArrival : Statement (.locateArrival) := fun _ _ hk => noHdr hk
theorem locateTimeout : Statement (.locateTimeout) := fun _ _ hk => noHdr hk
theorem emergencyStop (cause : Nat) : Statement (.emergencyStop cause) := fun _ _ hk => noHdr hk
theorem emergencyBrakeApply : Statement (.emergencyBrakeApply) := fun _ _ hk => noHdr hk
theorem lidSwChange (opened : Bool) : Statement (.lidSwChange opened) := fun _ _ hk => noHdr hk
theorem kdsqtDoorbell (core : Nat) (sqb : Nat) (sqsz : Nat) (cqb : Nat) (cqsz : Nat) (tail : Nat) : Statement (.kdsqtDoorbell core sqb sqsz cqb cqsz tail) := fun _ _ hk => noHdr hk
theorem kdcqhWrite (core : Nat) (head : Nat) : Statement (.kdcqhWrite core head) := fun _ _ hk => noHdr hk
theorem klockRequest (core : Nat) : Statement (.klockRequest core) := fun _ _ hk => noHdr hk
theorem klockRelease (core : Nat) : Statement (.klockRelease core) := fun _ _ hk => noHdr hk
theorem invocationStart : Statement (.invocationStart) := fun _ _ hk => noHdr hk
theorem ecallExit (core : Nat) (a7 : Nat) (a0 : Nat) (a1 : Nat) (pc : Nat) : Statement (.ecallExit core a7 a0 a1 pc) := fun _ _ hk => noHdr hk
theorem wfiWait (core : Nat) (pc : Nat) : Statement (.wfiWait core pc) := fun _ _ hk => noHdr hk
theorem dmaDescriptorComplete (core : Nat) : Statement (.dmaDescriptorComplete core) := fun _ _ hk => noHdr hk
theorem windowViolation (core : Nat) (kind : Nat) (addr : Nat) : Statement (.windowViolation core kind addr) := fun _ _ hk => noHdr hk
theorem kernelTrap (core : Nat) (code : Nat) (pc : Nat) : Statement (.kernelTrap core code pc) := fun _ _ hk => noHdr hk
theorem invocationTimeLimit (core : Nat) : Statement (.invocationTimeLimit core) := fun _ _ hk => noHdr hk
theorem coreIdlePowerDown (core : Nat) : Statement (.coreIdlePowerDown core) := fun _ _ hk => noHdr hk
theorem cacheAccess (q : Nat) (wr : Bool) (addr : Nat) (data : Bytes) (err : Nat) : Statement (.cacheAccess q wr addr data err) := fun _ _ hk => noHdr hk
theorem cacheMissFillComplete (bank : Nat) : Statement (.cacheMissFillComplete bank) := fun _ _ hk => noHdr hk
theorem ccaRangeClean (w : Option Hdr) : Statement (.ccaRangeClean w) := fun hw _ hk => ofOpt hw hk
theorem ccaRangeCleanInvalidate (w : Option Hdr) : Statement (.ccaRangeCleanInvalidate w) := fun hw _ hk => ofOpt hw hk
theorem rangeOperationComplete : Statement (.rangeOperationComplete) := fun _ _ hk => noHdr hk
theorem ccaWayEnWrite (w : Option Hdr) (value : Nat) : Statement (.ccaWayEnWrite w value) := fun hw _ hk => ofOpt (Operands.first hw) hk
theorem ccaEnableWrite (w : Option Hdr) (value : Nat) : Statement (.ccaEnableWrite w value) := fun hw _ hk => ofOpt (Operands.first hw) hk
theorem cacheCleanComplete : Statement (.cacheCleanComplete) := fun _ _ hk => noHdr hk
theorem wayWakeComplete : Statement (.wayWakeComplete) := fun _ _ hk => noHdr hk
theorem hardwareWayDisable (way : Nat) : Statement (.hardwareWayDisable way) := fun _ _ hk => noHdr hk
theorem servicePoolRequest (requester : Nat) (w0 : Nat) (w1 : Nat) (w2 : Nat) (w3 : Nat) (data : Bytes) : Statement (.servicePoolRequest requester w0 w1 w2 w3 data) := fun _ _ hk => noHdr hk
theorem servicePoolUrgentRequest (requester : Nat) (w0 : Nat) (w1 : Nat) (w2 : Nat) (w3 : Nat) (data : Bytes) : Statement (.servicePoolUrgentRequest requester w0 w1 w2 w3 data) := fun _ _ hk => noHdr hk
theorem servicePoolMessageDone : Statement (.servicePoolMessageDone) := fun _ _ hk => noHdr hk
theorem cphLockTimeout : Statement (.cphLockTimeout) := fun _ _ hk => noHdr hk
theorem keySlotLoad (keyId : Nat) : Statement (.keySlotLoad keyId) := fun _ _ hk => noHdr hk
theorem challengeExpiry : Statement (.challengeExpiry) := fun _ _ hk => noHdr hk
theorem lockoutExpiry : Statement (.lockoutExpiry) := fun _ _ hk => noHdr hk
theorem sessionIdleTimeout : Statement (.sessionIdleTimeout) := fun _ _ hk => noHdr hk
theorem trngHealthFailure (repetition : Bool) (proportion : Bool) : Statement (.trngHealthFailure repetition proportion) := fun _ _ hk => noHdr hk
theorem trngRetest (pass : Bool) : Statement (.trngRetest pass) := fun _ _ hk => noHdr hk
theorem pageProgramStatus (unit : Nat) (pass : Bool) : Statement (.pageProgramStatus unit pass) := fun _ _ hk => noHdr hk
theorem dieOperationTimeout (die : Nat) : Statement (.dieOperationTimeout die) := fun _ _ hk => noHdr hk
theorem pageRead (die : Nat) (block : Nat) (page : Nat) (errors : List Nat) : Statement (.pageRead die block page errors) := fun _ _ hk => noHdr hk
theorem journalRecordPersisted : Statement (.journalRecordPersisted) := fun _ _ hk => noHdr hk
theorem checkpointWrite : Statement (.checkpointWrite) := fun _ _ hk => noHdr hk
theorem programSequenceCeiling (ok0 : Bool) (ok1 : Bool) : Statement (.programSequenceCeiling ok0 ok1) := fun _ _ hk => noHdr hk
theorem gcRun : Statement (.gcRun) := fun _ _ hk => noHdr hk
theorem fold (extent : Nat) : Statement (.fold extent) := fun _ _ hk => noHdr hk
theorem scrub : Statement (.scrub) := fun _ _ hk => noHdr hk
theorem ageClockStep : Statement (.ageClockStep) := fun _ _ hk => noHdr hk
theorem hmbMapLoadDone : Statement (.hmbMapLoadDone) := fun _ _ hk => noHdr hk
theorem linePresent (mv : Nat) : Statement (.linePresent mv) := fun _ _ hk => noHdr hk
theorem lineLoss : Statement (.lineLoss) := fun _ _ hk => noHdr hk
theorem lineOvervoltage : Statement (.lineOvervoltage) := fun _ _ hk => noHdr hk
theorem powerUpStep (pgood : Bool) : Statement (.powerUpStep pgood) := fun _ _ hk => noHdr hk
theorem pgoodTimeout (rail : Nat) : Statement (.pgoodTimeout rail) := fun _ _ hk => noHdr hk
theorem powerUpRetry : Statement (.powerUpRetry) := fun _ _ hk => noHdr hk
theorem referenceSettled : Statement (.referenceSettled) := fun _ _ hk => noHdr hk
theorem bootSequence (env : BootEnv) : Statement (.bootSequence env) := fun _ _ hk => noHdr hk
theorem pgoodLost (rail : Nat) : Statement (.pgoodLost rail) := fun _ _ hk => noHdr hk
theorem bankTestStart (mv : Nat) : Statement (.bankTestStart mv) := fun _ _ hk => noHdr hk
theorem pwrTestNow (w : Option Hdr) : Statement (.pwrTestNow w) := fun hw _ hk => ofOpt hw hk
theorem bankTestCharged (mv : Nat) : Statement (.bankTestCharged mv) := fun _ _ hk => noHdr hk
theorem bankTestChargeTimeout : Statement (.bankTestChargeTimeout) := fun _ _ hk => noHdr hk
theorem bankTestV1Sample (mv : Nat) : Statement (.bankTestV1Sample mv) := fun _ _ hk => noHdr hk
theorem bankTestEnd (mv : Nat) (us : Nat) : Statement (.bankTestEnd mv us) := fun _ _ hk => noHdr hk
theorem creditRecompute (mv : Nat) : Statement (.creditRecompute mv) := fun _ _ hk => noHdr hk
theorem drainComplete : Statement (.drainComplete) := fun _ _ hk => noHdr hk
theorem bankBelowMinimum : Statement (.bankBelowMinimum) := fun _ _ hk => noHdr hk
theorem bankBelowIslandMinimum : Statement (.bankBelowIslandMinimum) := fun _ _ hk => noHdr hk
theorem crystalStable : Statement (.crystalStable) := fun _ _ hk => noHdr hk
theorem temperatureSample (centi : Option Int) (humidity : Nat) (shocks : List Nat) : Statement (.temperatureSample centi humidity shocks) := fun _ _ hk => noHdr hk
theorem shockInterrupt (x : Int) (y : Int) (z : Int) : Statement (.shockInterrupt x y z) := fun _ _ hk => noHdr hk
theorem compositeTemperatureSample (deci : Int) : Statement (.compositeTemperatureSample deci) := fun _ _ hk => noHdr hk
theorem thermalTrip : Statement (.thermalTrip) := fun _ _ hk => noHdr hk
theorem bootImportCheck (w : Option Hdr) : Statement (.bootImportCheck w) := fun hw _ hk => ofOpt hw hk
theorem bootImportSeal (w : Option Hdr) : Statement (.bootImportSeal w) := fun hw _ hk => ofOpt hw hk
theorem bootImportRestart (w : Option Hdr) : Statement (.bootImportRestart w) := fun hw _ hk => ofOpt hw hk
theorem bootImportAcceptLoss (w : Option Hdr) : Statement (.bootImportAcceptLoss w) := fun hw _ hk => ofOpt hw hk
theorem norProgramComplete (area : Nat) (copy : Nat) (ok : Bool) : Statement (.norProgramComplete area copy ok) := fun _ _ hk => noHdr hk
theorem lockstepMismatch : Statement (.lockstepMismatch) := fun _ _ hk => noHdr hk
theorem bufferUncorrectableError (channel : Nat) : Statement (.bufferUncorrectableError channel) := fun _ _ hk => noHdr hk
theorem eventRecord (evt : Nat) (cause : Nat) (data : Bytes) : Statement (.eventRecord evt cause data) := fun _ _ hk => noHdr hk
theorem eventRateSecondEnd : Statement (.eventRateSecondEnd) := fun _ _ hk => noHdr hk
theorem eventJournalPersist : Statement (.eventJournalPersist) := fun _ _ hk => noHdr hk
theorem percentageUsedCompute : Statement (.percentageUsedCompute) := fun _ _ hk => noHdr hk
theorem healthRecordWrite : Statement (.healthRecordWrite) := fun _ _ hk => noHdr hk
theorem aonPorstNRise : Statement (.aonPorstNRise) := fun _ _ hk => noHdr hk
theorem hmcFltRelease (m : Nat) : Statement (.hmcFltRelease m) := fun _ _ hk => noHdr hk
theorem linkPowerStateChange (state : Nat) : Statement (.linkPowerStateChange state) := fun _ _ hk => noHdr hk
theorem uncorrectableAerError : Statement (.uncorrectableAerError) := fun _ _ hk => noHdr hk

end Sys2Proof.Laws.Operands
end

