-- ==== Sys2Proof/Machine/Domains.lean ====
section
/-! DEFINITION. Power domains and their sleep (R17). Whether a domain is powered follows from the rest of the state: no field repeats it. A request
that reaches a domain at rest is itself what powers it, and it is served once the wake time of its row has passed; the model keeps no clock
between commands, so the wake time orders nothing here (DESIGN CHOICE, log 72). -/

namespace Sys2Proof.Machine

/-- The domains of R17; engine group, core and cache bank by number. -/
inductive Domain where
  | aon | mgt | hif | ddr | pipe | wr | rcg (n : Nat) | svo | csl | cc (n : Nat) | cb (n : Nat)
  deriving DecidableEq, Repr

/-- Rails a domain sits on, by their PWR_EN bit (R17, R406); VDD_AON has none. -/
def Domain.rails : Domain → List Nat
  | .aon => []
  | .mgt | .hif | .pipe | .cc _ | .cb _ => [1]
  | .ddr => [7, 1]
  | .wr | .rcg _ => [1, 3]
  | .svo => [3]
  | .csl => [9, 1]

/-- Wake time, µs (R17); none where the table gives none or leaves it to PCI Express. -/
def Domain.wakeUs : Domain → Option Nat
  | .aon | .mgt | .hif => none
  | .ddr => some 40
  | .pipe | .wr => some 10
  | .rcg _ | .svo => some 20
  | .csl => some 5
  | .cc _ | .cb _ => some 50

/-- Ingest traffic: a host write moves, or a record or a payload waits for its data set. -/
def State.ingesting (s : State) : Bool := !s.nv.writes.isEmpty || !s.sp.recs.isEmpty || !s.sp.cur.payload.isEmpty || !s.sp.filled.isEmpty

/-- Playback traffic: a read or a window bind waits for data, or a pass fetches it. -/
def State.playing (s : State) : Bool := !s.wants.isEmpty || !s.rc.recs.isEmpty || s.rc.pass.isSome

/-- Core `n` holds a scheduled kernel instance; the idle core keeps its power until CORE_IDLE_POWER_DOWN. -/
def State.coreOn (s : State) (n : Nat) : Bool := (s.core n).powered

/-- Compute traffic. -/
def State.computing (s : State) : Bool := !s.comp.queue.isEmpty || s.comp.cores.any (fun e => e.2.run.isSome)

/-- A data set waits to be recorded, or its copy is under way or unresolved. -/
def State.dsToRecord (s : State) : Bool := !s.queued.isEmpty || !s.sp.started.isEmpty || s.sp.gen.isSome

/-- The domain is powered (R17). In DRAIN the host interface, the compute cores with their cache, the read channel and the write lanes are down;
the FIFO condition for engine groups is kept by `State.sleepGroups`. -/
def State.domainOn (s : State) : Domain → Bool
  | .aon => s.pw.aon
  | .mgt | .ddr | .csl => s.mag.st.alive
  | .hif => s.mag.st.alive && s.mag.st != .drain && s.nv.linkPower != 4
  | .pipe => s.mag.st.alive && (s.ingesting || s.playing || s.computing)
  | .wr => s.mag.st = .spooling || (s.mag.st = .crawl && s.dsToRecord)
  | .rcg n => s.rc.awake.contains n
  | .svo => s.moves
  | .cc n => s.coreOn n
  | .cb _ => s.comp.cores.any (fun e => e.2.powered)

/-- Powered cache ways of bank `b`: the effective ones, once the bank is powered (R17, R395). -/
def State.bankWays (s : State) (b : Nat) : Nat := if s.domainOn (.cb b) then s.cache.ways else 0

/-- A domain that rests has handed over what it held: outside DRAIN its input FIFOs are empty. The engine groups are the ones whose FIFOs
`State.sleepGroups` tests; the cores of an instance rest only when no invocation runs on them (R17, R376). -/
def State.restsClean (s : State) : Bool :=
  (List.range 16).all (fun g => s.rc.awake.contains g || ((s.fifo (36 + g)).words.isEmpty && (s.fifo (36 + g)).held.isEmpty))
    && s.comp.cores.all (fun e => e.2.powered || e.2.run.isNone)

end Sys2Proof.Machine
end

