-- ==== Sys2Proof/Machine/Interface.lean ====
section
/-! DEFINITION. What the PCI Express function and the controller's constant registers show (R323, R324, R328, the values of the capability table).
The bit places of CAP are NVM Express 2.0's (PRESUMED, log 75). -/

namespace Sys2Proof.Machine

/-- Vendor, device, revision and class code of the function; the subsystem identifiers come from the profile (R324). -/
structure PciFunction where
  /-- Vendor ID. -/
  vendor : Nat
  /-- Device ID. -/
  device : Nat
  /-- Revision ID. -/
  revision : Nat
  /-- Class code. -/
  cls : Nat
  /-- Size of BAR0/BAR1 and of BAR2/BAR3, bytes; both 64-bit and not prefetchable. -/
  bars : Nat × Nat
  /-- Offset of the doorbells in BAR0 and their stride. -/
  doorbells : Nat × Nat
  /-- Offsets of the MSI-X table and of the pending bit array in BAR2. -/
  msix : Nat × Nat
  /-- MSI-X vectors. -/
  vectors : Nat
  /-- Largest payload and largest read request, bytes. -/
  sizes : Nat × Nat
  /-- Outstanding non-posted requests. -/
  requests : Nat
  deriving DecidableEq, Repr

/-- The function of R324. -/
def pciFunction : PciFunction :=
  { vendor := 0x1F4C, device := 0x7416, revision := 0xB0, cls := 0x010802, bars := (65536, 65536), doorbells := (0x1000, 4), msix := (0, 0x8000)
    vectors := 2048, sizes := (512, 4096), requests := 4096 }

/-- The features of R324 that the function does not have. -/
inductive PciAbsent where
  | msi | intx | l0s | l0p | srIov | ats | pri | pasid | tph | ide | dpc | resizableBar | ari | cmb | pmr
  deriving DecidableEq, Repr

/-- CAP: MQES, CQR, AMS, TO, DSTRD, NSSRS, CSS, MPSMIN, MPSMAX, and no BPS, CMBS or PMRS. -/
def capReg : Nat := 4095 + 2 ^ 16 * 1 + 2 ^ 17 * 1 + 2 ^ 24 * 240 + 2 ^ 37 * 0x41 + 2 ^ 52 * 4

/-- VS: NVM Express 2.0. -/
def vsReg : Nat := 0x00020000

/-- Offset in BAR0 of the tail doorbell of submission queue `q`, or of the head doorbell of completion queue `q`. -/
def doorbellAt (q : Nat) (head : Bool) : Nat := pciFunction.doorbells.1 + pciFunction.doorbells.2 * (2 * q + head.toNat)

/-- Usable payload rate of a trained link, MB/s: by lane about 3,625 at 32 GT/s, half of it at 16 and twice at 64 (R323). -/
def linkRate (rate width : Nat) : Nat :=
  match rate, width with
  | 6, 8 => 56000
  | 5, 8 => 29000
  | 5, 4 | 4, 8 => 14500
  | 4, 4 => 7200
  | _, _ => 0

end Sys2Proof.Machine
end

