-- ==== Sys2Proof/Machine/Pins.lean ====
section
/-! DEFINITION. Balls and pins (chapter 20): ball names (R488) and regions (R489), the head-module blocks (R490), the pins that show the block's state
(R492, R494), and what the converters and sensors at the pins deliver (R405, R502, R503), the line thresholds (R405) and JTAG (R507). -/

namespace Sys2Proof.Machine

/-! ### The package (R488 to R490) -/

/-- The 19 letters of the row names (R488). -/
def rowLetters : List String := ["A", "B", "C", "D", "E", "F", "G", "H", "J", "K", "L", "M", "N", "P", "T", "U", "V", "W", "Y"]

/-- Name of row `i`, 1 to 70: the letters bare, then with the prefixes A, B and C (R488). -/
def rowName (i : Nat) : String := ["", "A", "B", "C"].getD ((i - 1) / 19) "" ++ rowLetters.getD ((i - 1) % 19) ""

/-- Name of the ball in row `row`, column `col` (R488). -/
def ballName (row col : Nat) : String := rowName row ++ toString col

/-- Regions of the ball grid (R489). -/
inductive BallRegion where
  | tapeTop | tapeBottom | strip | memoryLeft | memoryRight | centreUpper | centreLower
  deriving DecidableEq, Repr

/-- Region of a grid position; none in the four 3 × 3 corners and the 16 × 16 centre, which carry no ball, and off the grid (R489). -/
def ballRegion (row col : Nat) : Option BallRegion :=
  if row = 0 || 70 < row || col = 0 || 70 < col then none
  else
    let edge := decide (col ≤ 3) || decide (68 ≤ col)
    if decide (row ≤ 23) || decide (48 ≤ row) then
      if edge then (if decide (row ≤ 3) || decide (68 ≤ row) then none else some .strip)
      else if row ≤ 23 then some .tapeTop
      else some .tapeBottom
    else if col ≤ 27 then some .memoryLeft
    else if 44 ≤ col then some .memoryRight
    else if row ≤ 27 then some .centreUpper
    else if 44 ≤ row then some .centreLower
    else none

/-- Ball at relative row `rho` and column `k` of head module `m`, as row and column (R490). -/
def moduleBall (m rho k : Nat) : Nat × Nat := (if m < 8 then rho + 1 else 70 - rho, 4 + 8 * (m % 8) + k)

/-- Balls of pair `j` of the read half (h = 0) or write half (h = 1) of module `m`: _P, then _N (R490). -/
def pairBalls (m h j : Nat) : (Nat × Nat) × (Nat × Nat) :=
  (moduleBall m (11 * h + j / 3) (3 * (j % 3)), moduleBall m (11 * h + j / 3) (3 * (j % 3) + 1))

/-- TRD of channel `c` (R490, R491). -/
def trdBalls (c : Nat) : (Nat × Nat) × (Nat × Nat) := pairBalls (c / 32) 0 (c % 32)

/-- TWD of channel `c` (R490, R491). -/
def twdBalls (c : Nat) : (Nat × Nat) × (Nat × Nat) := pairBalls (c / 32) 1 (c % 32)

/-- SVO of servo reader `i`: pair 32 of the read half of module i/2 for an even reader, of the write half for an odd one (R490, R491). -/
def svoBalls (i : Nat) : (Nat × Nat) × (Nat × Nat) := pairBalls (i / 2) (i % 2) 32

/-- HMCm_SCK, HMCm_DIO, HMCm_SEL and HMCm_FLT (n = 0 to 3) of module `m` (R490). -/
def hmcBall (m n : Nat) : Nat × Nat := moduleBall m 22 (2 * n)

/-! ### Output pins -/

/-- Levels of the outputs that the block's state sets: rail enables, reference, bank test load, reel brakes, short-circuit braking, wake (R492). -/
structure Pins where
  pwrEn : Nat
  refEn : Bool
  bankTest : Bool
  brkN : Bool
  mdrvScbN : Bool
  wakeN : Bool
  dbgStat : Option Bool
  deriving DecidableEq, Repr

/-- The output pins (R491, R492). BRK_N and MDRV_SCB_N are low while the brakes or the short-circuit braking are engaged, and fall to their pull-downs
while VDD_IO18 is absent (R494). DBG_STAT is high from BOOT step 1 to READY; in SAFE it toggles, which is none here; it is low before and after. -/
def State.pins (s : State) : Pins :=
  let io := Nat.testBit s.pw.en 0
  { pwrEn := if s.pw.aon then s.pw.en else 0
    refEn := s.pw.refEn
    bankTest := s.pw.testPin
    brkN := io && !s.ctl.brake
    mdrvScbN := io && !s.ctl.scb
    wakeN := !s.nv.wake
    dbgStat := if s.mag.st = .safe then none else some (s.mag.st = .boot && s.pw.mgt) }

/-! ### Input pins -/

/-- SHUTTLE_AIN at `uv` microvolts as its 12-bit code: floor(V·4,096/1.6 V), clipped to 4,095 (R502). -/
def shuttleAdc (uv : Nat) : Nat := min 4095 (uv * 4096 / 1600000)

/-- LINE_SNS or BANK_SNS: volts of the line or bank behind the 1/40 divider, in mV, from microvolts at the pin (R404, R502). -/
def dividerMv (uv : Nat) : Nat := uv * 40 / 1000

/-- The line is present: every one of the samples of 10 ms at 1,024 Hz, at least eleven, lies at or above 35.0 V (R405). -/
def lineIsPresent (mv : List Nat) : Bool := decide (11 ≤ mv.length) && mv.all (fun x => decide (35000 ≤ x))

/-- Line loss: below 34.0 V for 20 µs (R405). -/
def lineIsLost (mv forUs : Nat) : Bool := decide (mv < 34000) && decide (20 ≤ forUs)

/-- Overvoltage: above 60.0 V for 1 ms (R405). -/
def lineIsOver (mv forUs : Nat) : Bool := decide (60000 < mv) && decide (1000 ≤ forUs)

/-- A two's complement value of 16 bits, most significant byte first (R503). -/
def msb16 (hi lo : Nat) : Int := if hi % 256 < 128 then ((256 * (hi % 256) + lo % 256 : Nat) : Int) else ((256 * (hi % 256) + lo % 256 : Nat) : Int) - 65536

/-- The four bytes read from sensor 0x44: temperature in 1/100 °C, signed, and humidity in 1/100 %, each most significant byte first (R503). -/
def climateOf (bs : Bytes) : Option (Int × Nat) :=
  match bs with
  | [a, b, c, d] => some (msb16 a.toNat b.toNat, 256 * c.toNat + d.toNat)
  | _ => none

/-- The six bytes read from sensor 0x19: peaks of x, y and z in 0.1 g, signed (R503); their byte order is taken as that of the other sensor's values
(DESIGN CHOICE, log 78). -/
def shocksOf (bs : Bytes) : Option (Int × Int × Int) :=
  match bs with
  | [a, b, c, d, e, f] => some (msb16 a.toNat b.toNat, msb16 c.toNat d.toNat, msb16 e.toNat f.toNat)
  | _ => none

/-! ### JTAG (R507) -/

/-- Instructions of the JTAG port. -/
inductive Jtag where
  | bypass | idcode | samplePreload | extest | clamp | highz
  deriving DecidableEq, Repr

/-- IDCODE (R507). -/
def jtagId : Nat := 0x27416C8B

/-- The port accepts the instruction, with TEST_MODE as sampled at power-up (R507). -/
def Jtag.accepted (i : Jtag) (testMode : Nat) : Bool :=
  match i with
  | .bypass | .idcode | .samplePreload => true
  | .extest | .clamp | .highz => testMode != 0

end Sys2Proof.Machine
end

