-- ==== Sys2Proof/Machine/RomKernels.lean ====
section
/-! DEFINITION. What the four ROM kernels compute (R379): their output to window 1, their result window and their exit status, as functions of what
window 0 holds. The instructions by which a core does it are no command of the table (log 58). -/

namespace Sys2Proof.Machine

/-- What a ROM kernel leaves: bytes for window 1, units processed, DMA failures, class of the first failure, the final digest of kernel 3, and
the exit status. -/
structure RomResult where
  /-- Bytes written to window 1, from its first LBA. -/
  out : Bytes
  /-- Frames, records or blocks processed. -/
  units : Nat
  /-- Descriptors that failed. -/
  fails : Nat
  /-- Class of the first failure. -/
  cls : Nat
  /-- Final digest, kernel 3 only. -/
  digest : Bytes
  /-- Exit status: 0 success, 1 DMA failure, 2 window 1 too small, 3 invalid arguments. -/
  status : Nat
  deriving DecidableEq, Repr

/-- The 64 result bytes (R379). -/
def RomResult.result (r : RomResult) : Bytes :=
  leBytes 4 r.units ++ leBytes 4 r.fails ++ leBytes 1 r.cls ++ zeroBytes 23 ++ fitBytes 32 r.digest

/-- Invalid arguments. -/
def romInvalid : RomResult := { out := [], units := 0, fails := 0, cls := 0, digest := [], status := 3 }

/-- Bytes padded with zeros to whole LBAs. -/
def padLba (b : Bytes) : Bytes := fitBytes ((b.length + 4095) / 4096 * 4096) b

/-- Cut the output to window 1 of `room` bytes: status 2 when it does not fit. -/
def RomResult.fit (r : RomResult) (room : Nat) : RomResult :=
  if r.out.length ≤ room then { r with status := if r.fails = 0 then 0 else 1 } else { r with out := r.out.take room, status := 2 }

/-! ### Frames (R230) -/

/-- Stream offset of byte `i` of a window that starts at LBA `lba`: from the take's first zone, or from the zone's start with ALIGN 1. -/
def Geom.streamAt (g : Geom) (lba firstZone i : Nat) : Nat :=
  let l := lba + i / 4096
  if g.align then l % 65536 * 4096 + i % 4096 else (l / 65536 - firstZone) * 268435456 + l % 65536 * 4096 + i % 4096

/-- A frame lies wholly in the window from its byte `i` on. -/
def Geom.frameAt (g : Geom) (lba firstZone len i : Nat) : Bool :=
  let t := g.streamAt lba firstZone i
  decide (g.origin ≤ t) && (t - g.origin) % g.f = 0 && decide (i + g.f ≤ len) && (!g.align || decide (t + g.f ≤ 268435456))

/-- The whole frames of a window, in order. -/
def Geom.frames (g : Geom) (lba firstZone : Nat) (data : Bytes) : List Bytes :=
  ((List.range data.length).filter (g.frameAt lba firstZone data.length)).map (fun i => slice data i g.f)

/-- Sample (x, y) of a frame. -/
def Geom.sample (g : Geom) (frame : Bytes) (x y : Nat) : Nat :=
  (g.samples (slice frame (g.frameHdr + y * (g.lb + g.linePad) + x / g.g * g.gb) g.gb)).getD (x % g.g) 0

/-! ### Kernel 0: proxy decimation -/

/-- The values of one colour in the square of f × f mosaic periods at (X, Y). -/
def Geom.square (g : Geom) (frame : Bytes) (f x y c : Nat) : List Nat :=
  (List.range (g.perY * f)).flatMap (fun j => (List.range (g.perX * f)).filterMap (fun i =>
    let u := x * g.perX * f + i
    let v := y * g.perY * f + j
    if g.colour u v = c then some (g.sample frame u v) else none))

/-- A mean rounded half up. -/
def meanUp (l : List Nat) : Nat := if l.isEmpty then 0 else (2 * l.sum + l.length) / (2 * l.length)

/-- One frame decimated: C values of 16 bits a pixel, shifted left by 16 − N, padded to a whole LBA. -/
def Geom.proxy (g : Geom) (f : Nat) (frame : Bytes) : Bytes :=
  padLba ((List.range (g.height / (g.perY * f))).flatMap (fun y => (List.range (g.width / (g.perX * f))).flatMap (fun x =>
    (List.range g.colours).flatMap (fun c => leBytes 2 (meanUp (g.square frame f x y c) * 2 ^ (16 - g.n))))))

/-! ### Kernel 1: histogram and clip map -/

/-- The samples of one colour of a frame. -/
def Geom.ofColour (g : Geom) (frame : Bytes) (c : Nat) : List Nat :=
  (List.range g.height).flatMap (fun y => (List.range g.width).filterMap (fun x => if g.colour x y = c then some (g.sample frame x y) else none))

/-- Histogram of a colour: 256 counts. -/
def Geom.histogram (g : Geom) (v : List Nat) : Bytes := (List.range 256).flatMap (fun b => leBytes 4 (v.countP (fun x => x / 2 ^ (g.n - 8) = b)))

/-- Counts at the top and at zero, the least and the greatest sample. -/
def Geom.extremes (g : Geom) (v : List Nat) : Bytes :=
  leBytes 4 (v.countP (fun x => x = 2 ^ g.n - 1)) ++ leBytes 4 (v.countP (fun x => x = 0)) ++ leBytes 4 (v.foldl min (2 ^ g.n - 1)) ++ leBytes 4 (v.foldl max 0)

/-- Column or row of a grid of `n` tiles over `size` samples: the remainder goes to the last. -/
def tileOf (n size x : Nat) : Nat := if size / n = 0 then n - 1 else min (n - 1) (x / (size / n))

/-- 24 rows of 32 counts of samples at 2^N − 1. -/
def Geom.clipMap (g : Geom) (frame : Bytes) : Bytes :=
  let hits := (List.range g.height).flatMap (fun y => (List.range g.width).filterMap (fun x =>
    if g.sample frame x y = 2 ^ g.n - 1 then some (tileOf 32 g.width x, tileOf 24 g.height y) else none))
  (List.range 24).flatMap (fun r => (List.range 32).flatMap (fun c => leBytes 2 (hits.count (c, r) % 65536)))

/-- The 8,192 bytes of a frame. -/
def Geom.frameStats (g : Geom) (frame : Bytes) : Bytes :=
  let cs := List.range g.colours
  fitBytes 8192 (fitBytes 4096 (cs.flatMap (fun c => g.histogram (g.ofColour frame c)))
    ++ fitBytes 1024 (cs.flatMap (fun c => g.extremes (g.ofColour frame c))) ++ g.clipMap frame)

/-! ### Kernels 2 and 3 -/

/-- A clip index entry from a 64-byte record header (R33, R379); its fields are little-endian, the timecode as recorded. -/
def clipEntry (h : Bytes) : Bytes :=
  leBytes 4 (beAt h 0x18 4) ++ leBytes 4 (beAt h 0x08 4) ++ leBytes 8 (beAt h 0x10 8) ++ leBytes 4 (beAt h 0x0C 4) ++ slice h 0x34 8
    ++ leBytes 4 (beAt h 0x30 4)

/-- Cut into blocks of `n` bytes, the last one as long as it is. -/
def cutBlocks (n : Nat) : Nat → Bytes → List Bytes
  | 0, _ => []
  | k + 1, b => if b.isEmpty then [] else b.take n :: cutBlocks n k (b.drop n)

/-- SHA-256 of each block, then of the digests. -/
def blockSums (size : Nat) (data : Bytes) : List Bytes × Bytes :=
  let ds := (cutBlocks (4096 * size) data.length data).map sha256
  (ds, sha256 ds.flatten)

/-! ### The kernels -/

/-- What ROM kernel `number` leaves when its DMA succeeds: `geom` are the descriptors of CMP_GEOM, `lba` and `data` the first LBA and the bytes of
window 0, `headers` the record headers of window 0, `room` the bytes of window 1. -/
def romRun (number : Nat) (geom : Nat → Geom) (args : Bytes) (lba : Nat) (data : Bytes) (headers : List Bytes) (room : Nat) : RomResult :=
  let d := leAt args 0 1
  let f := leAt args 1 1
  let g := geom d
  let frames (one : Bytes → Bytes) : RomResult :=
    let fs := g.frames lba (leAt args 4 4) data
    ({ out := fs.flatMap one, units := fs.length, fails := 0, cls := 0, digest := [], status := 0 } : RomResult).fit room
  match number with
  | 0 => if 64 ≤ d || !g.valid || !g.ok || !(f = 2 || f = 4 || f = 8 || f = 16) then romInvalid else frames (g.proxy f)
  | 1 => if 64 ≤ d || !g.valid || !g.ok then romInvalid else frames g.frameStats
  | 2 => ({ out := padLba (headers.flatMap clipEntry), units := headers.length, fails := 0, cls := 0, digest := [], status := 0 } : RomResult).fit room
  | _ =>
    let size := leAt args 0 4
    if !pow2 (size : Int) || 65536 < size then romInvalid
    else
      let (ds, all) := blockSums size data
      ({ out := padLba (ds.flatten ++ all), units := ds.length, fails := 0, cls := 0, digest := all, status := 0 } : RomResult).fit room

end Sys2Proof.Machine
end

