-- ==== Sys2Proof/Tests/Slice0.lean ====
section
/-! SUPPORT. The author's own tests. First the ill-formed commands that WellFormed refuses, then states that meet the hypotheses of each
statement (one theorem per statement, one or more states per clause), then results taken from the manual's own tables and examples. -/

namespace Sys2Proof.Tests

set_option Elab.async false

open Sys2Proof Sys2Proof.Machine

/-! ### States that the tests start from -/

/-- Header of the first admin command. -/
def hA : Hdr := ⟨0, 0⟩

/-- Header of the first command of I/O queue 1. -/
def hI : Hdr := ⟨1, 0⟩

/-- A submission queue of eight entries with one command in it. -/
def sqOne (i : Nat) : Sq := { size := 8, cq := i, cls := i, head := 0, tail := 1, frozen := false }

/-- An empty completion queue of eight entries. -/
def cqOne : Cq := { size := 8, head := 0, tail := 0, vector := 0, ien := false, entries := [] }

/-- READY in camera context with the line present, the rails up, an owner session, the controller ready with the zoned command set, one command
in the admin queue and one in I/O queue 1. -/
def base : State :=
  (((State.reset.modMag (fun g => { g with st := .ready, ctx := .camera })).modNv (fun n =>
    { n with en := true, rdy := true, css := 6, sqs := [(0, sqOne 0), (1, sqOne 1)], cqs := [(0, cqOne), (1, cqOne)] })).modPw (fun p =>
    { p with aon := true, mgt := true, line := true })).modKeys (fun k => { k with session := true })

/-- The same in another magazine state. -/
def inSt (st : MagState) : State := base.modMag (fun g => { g with st })

/-- What taking the admin command leaves. -/
def adm (s : State) : State := (s.begin hA).elim s Prod.snd

/-- Its fetch number. -/
def admQ (s : State) : Nat := (s.begin hA).elim 0 Prod.fst

/-- What taking the I/O command leaves. -/
def io (s : State) : State := (s.begin hI).elim s Prod.snd

/-- Its fetch number. -/
def ioQ (s : State) : Nat := (s.begin hI).elim 0 Prod.fst

theorem begin_admin {s : State} (h : (s.begin hA).isSome = true) : s.begin hA = some (admQ s, adm s) := by
  unfold admQ adm
  cases e : s.begin hA with
  | none => simp [e] at h
  | some x => rfl

theorem begin_io {s : State} (h : (s.begin hI).isSome = true) : s.begin hI = some (ioQ s, io s) := by
  unfold ioQ io
  cases e : s.begin hI with
  | none => simp [e] at h
  | some x => rfl

theorem admin_of {s : State} (h : (s.begin hA).isSome = true) : s.Admin hA (admQ s) (adm s) := ⟨begin_admin h, rfl⟩

theorem adminRuns_of {s : State} (h : (s.begin hA).isSome = true ∧ (adm s).mag.st ≠ .safe) : s.AdminRuns hA (admQ s) (adm s) :=
  ⟨admin_of h.1, h.2⟩

theorem ioRuns_of {s : State} (h : (s.begin hI).isSome = true ∧ (io s).mag.st ≠ .safe
    ∧ (io s).nv.held.any (fun x => x.wait = .deleteSq hI.sq) = false) : s.IoRuns hI (ioQ s) (io s) :=
  ⟨begin_io h.1, by decide, h.2.1, h.2.2⟩

theorem takeRuns_of {s : State} (h : (s.begin hI).isSome = true ∧ (io s).mag.st ≠ .safe
    ∧ (io s).nv.held.any (fun x => x.wait = .deleteSq hI.sq) = false ∧ (io s).nv.css ≠ 0) : s.TakeRuns hI (ioQ s) (io s) :=
  ⟨ioRuns_of ⟨h.1, h.2.1, h.2.2.1⟩, h.2.2.2⟩

theorem some_of {α : Type} {o : Option α} {p : α → Bool} (h : o.any p = true) : ∃ a, o = some a ∧ p a = true := by
  cases o with
  | none => simp at h
  | some a => exact ⟨a, rfl, by simpa using h⟩

/-! ### Commands that are not well formed -/

/-- None of them is well formed. -/
def allRefused (l : List Instr) : Bool := l.all (fun i => !i.wf)

/-- createIoSubmissionQueue to identify: for each check an operand just beyond it. -/
theorem test_wf_refuses_1 : allRefused [
    .createIoSubmissionQueue ⟨65536, 0⟩ 0 0 0 0 false,
    .createIoSubmissionQueue ⟨0, 65536⟩ 0 0 0 0 false,
    .createIoSubmissionQueue ⟨0, 0⟩ 65536 0 0 0 false,
    .createIoSubmissionQueue ⟨0, 0⟩ 0 65536 0 0 false,
    .createIoSubmissionQueue ⟨0, 0⟩ 0 0 4 0 false,
    .createIoSubmissionQueue ⟨0, 0⟩ 0 0 0 65536 false,
    .createIoCompletionQueue ⟨65536, 0⟩ 0 0 0 false false,
    .createIoCompletionQueue ⟨0, 65536⟩ 0 0 0 false false,
    .createIoCompletionQueue ⟨0, 0⟩ 65536 0 0 false false,
    .createIoCompletionQueue ⟨0, 0⟩ 0 65536 0 false false,
    .createIoCompletionQueue ⟨0, 0⟩ 0 0 65536 false false,
    .deleteIoSubmissionQueue ⟨65536, 0⟩ 0,
    .deleteIoSubmissionQueue ⟨0, 65536⟩ 0,
    .deleteIoSubmissionQueue ⟨0, 0⟩ 65536,
    .deleteIoCompletionQueue ⟨65536, 0⟩ 0,
    .deleteIoCompletionQueue ⟨0, 65536⟩ 0,
    .deleteIoCompletionQueue ⟨0, 0⟩ 65536,
    .getLogPage ⟨65536, 0⟩ 0 0 0 false,
    .getLogPage ⟨0, 65536⟩ 0 0 0 false,
    .getLogPage ⟨0, 0⟩ 256 0 0 false,
    .getLogPage ⟨0, 0⟩ 0 (2 ^ 64) 0 false,
    .getLogPage ⟨0, 0⟩ 0 0 (2 ^ 32) false,
    .identify ⟨65536, 0⟩ 0 0 0,
    .identify ⟨0, 65536⟩ 0 0 0] = true := by decide +kernel

/-- identify to setSpeedPolicy: for each check an operand just beyond it. -/
theorem test_wf_refuses_2 : allRefused [
    .identify ⟨0, 0⟩ 256 0 0,
    .identify ⟨0, 0⟩ 0 (2 ^ 32) 0,
    .identify ⟨0, 0⟩ 0 0 256,
    .abort ⟨65536, 0⟩ 0 0,
    .abort ⟨0, 65536⟩ 0 0,
    .abort ⟨0, 0⟩ 65536 0,
    .abort ⟨0, 0⟩ 0 65536,
    .setFeatures ⟨65536, 0⟩ 0 false 0 0 [],
    .setFeatures ⟨0, 65536⟩ 0 false 0 0 [],
    .setFeatures ⟨0, 0⟩ 256 false 0 0 [],
    .setFeatures ⟨0, 0⟩ 0 false (2 ^ 32) 0 [],
    .setFeatures ⟨0, 0⟩ 0 false 0 (2 ^ 32) [],
    .setVolatileWriteCache ⟨65536, 0⟩ false 0,
    .setVolatileWriteCache ⟨0, 65536⟩ false 0,
    .setVolatileWriteCache ⟨0, 0⟩ false (2 ^ 32),
    .setHostMemoryBuffer ⟨65536, 0⟩ false 0 0,
    .setHostMemoryBuffer ⟨0, 65536⟩ false 0 0,
    .setHostMemoryBuffer ⟨0, 0⟩ false (2 ^ 32) 0,
    .setHostMemoryBuffer ⟨0, 0⟩ false 0 (2 ^ 32),
    .setTimestamp ⟨65536, 0⟩ false 0,
    .setTimestamp ⟨0, 65536⟩ false 0,
    .setTimestamp ⟨0, 0⟩ false (2 ^ 48),
    .setSpeedPolicy ⟨65536, 0⟩ false [],
    .setSpeedPolicy ⟨0, 65536⟩ false []] = true := by decide +kernel

/-- setAcknowledgeCreditPolicy to firmwareImageDownload: for each check an operand just beyond it. -/
theorem test_wf_refuses_3 : allRefused [
    .setAcknowledgeCreditPolicy ⟨65536, 0⟩ false 0,
    .setAcknowledgeCreditPolicy ⟨0, 65536⟩ false 0,
    .setAcknowledgeCreditPolicy ⟨0, 0⟩ false (2 ^ 32),
    .setCompressionPolicy ⟨65536, 0⟩ false 0,
    .setCompressionPolicy ⟨0, 65536⟩ false 0,
    .setCompressionPolicy ⟨0, 0⟩ false (2 ^ 32),
    .setOperatingContext ⟨65536, 0⟩ false 0,
    .setOperatingContext ⟨0, 65536⟩ false 0,
    .setOperatingContext ⟨0, 0⟩ false (2 ^ 32),
    .setRewritePolicy ⟨65536, 0⟩ false [],
    .setRewritePolicy ⟨0, 65536⟩ false [],
    .setComputePolicy ⟨65536, 0⟩ false 0,
    .setComputePolicy ⟨0, 65536⟩ false 0,
    .setComputePolicy ⟨0, 0⟩ false (2 ^ 32),
    .getFeatures ⟨65536, 0⟩ 0 0 0,
    .getFeatures ⟨0, 65536⟩ 0 0 0,
    .getFeatures ⟨0, 0⟩ 256 0 0,
    .getFeatures ⟨0, 0⟩ 0 8 0,
    .getFeatures ⟨0, 0⟩ 0 0 (2 ^ 32),
    .asynchronousEventRequest ⟨65536, 0⟩,
    .asynchronousEventRequest ⟨0, 65536⟩,
    .firmwareImageDownload ⟨65536, 0⟩ 0 [],
    .firmwareImageDownload ⟨0, 65536⟩ 0 [],
    .firmwareImageDownload ⟨0, 0⟩ (2 ^ 32) []] = true := by decide +kernel

/-- firmwareCommitStore to parameterRead: for each check an operand just beyond it. -/
theorem test_wf_refuses_4 : allRefused [
    .firmwareCommitStore ⟨65536, 0⟩ 0,
    .firmwareCommitStore ⟨0, 65536⟩ 0,
    .firmwareCommitStore ⟨0, 0⟩ 8,
    .firmwareCommitStoreAndMark ⟨65536, 0⟩ 0,
    .firmwareCommitStoreAndMark ⟨0, 65536⟩ 0,
    .firmwareCommitStoreAndMark ⟨0, 0⟩ 8,
    .firmwareCommitMark ⟨65536, 0⟩ 0,
    .firmwareCommitMark ⟨0, 65536⟩ 0,
    .firmwareCommitMark ⟨0, 0⟩ 8,
    .firmwareCommitActivate ⟨65536, 0⟩ 0,
    .firmwareCommitActivate ⟨0, 65536⟩ 0,
    .firmwareCommitActivate ⟨0, 0⟩ 8,
    .formatNvm ⟨65536, 0⟩ 0 0 0,
    .formatNvm ⟨0, 65536⟩ 0 0 0,
    .formatNvm ⟨0, 0⟩ (2 ^ 32) 0 0,
    .formatNvm ⟨0, 0⟩ 0 8 0,
    .formatNvm ⟨0, 0⟩ 0 0 64,
    .formatSecureEraseTake ⟨65536, 0⟩ 0 0,
    .formatSecureEraseTake ⟨0, 65536⟩ 0 0,
    .formatSecureEraseTake ⟨0, 0⟩ (2 ^ 32) 0,
    .formatSecureEraseTake ⟨0, 0⟩ 0 64,
    .parameterRead ⟨65536, 0⟩ 0 0 0,
    .parameterRead ⟨0, 65536⟩ 0 0 0,
    .parameterRead ⟨0, 0⟩ (2 ^ 32) 0 0] = true := by decide +kernel

/-- parameterRead to keyDepositRecoverAndAdopt: for each check an operand just beyond it. -/
theorem test_wf_refuses_5 : allRefused [
    .parameterRead ⟨0, 0⟩ 0 (2 ^ 32) 0,
    .parameterRead ⟨0, 0⟩ 0 0 (2 ^ 32),
    .parameterWrite ⟨65536, 0⟩ 0 0 0 [],
    .parameterWrite ⟨0, 65536⟩ 0 0 0 [],
    .parameterWrite ⟨0, 0⟩ (2 ^ 32) 0 0 [],
    .parameterWrite ⟨0, 0⟩ 0 (2 ^ 32) 0 [],
    .parameterWrite ⟨0, 0⟩ 0 0 (2 ^ 32) [],
    .parameterCommit ⟨65536, 0⟩ 0,
    .parameterCommit ⟨0, 65536⟩ 0,
    .parameterCommit ⟨0, 0⟩ (2 ^ 32),
    .parameterDiscard ⟨65536, 0⟩,
    .parameterDiscard ⟨0, 65536⟩,
    .keyDepositClaim ⟨65536, 0⟩ [],
    .keyDepositClaim ⟨0, 65536⟩ [],
    .keyDepositReplaceOwnerKey ⟨65536, 0⟩ [],
    .keyDepositReplaceOwnerKey ⟨0, 65536⟩ [],
    .keyDepositEscrowKey ⟨65536, 0⟩ [],
    .keyDepositEscrowKey ⟨0, 65536⟩ [],
    .keyDepositRemoveEscrowKey ⟨65536, 0⟩ [],
    .keyDepositRemoveEscrowKey ⟨0, 65536⟩ [],
    .keyDepositEraseTake ⟨65536, 0⟩ [],
    .keyDepositEraseTake ⟨0, 65536⟩ [],
    .keyDepositRecoverAndAdopt ⟨65536, 0⟩ [],
    .keyDepositRecoverAndAdopt ⟨0, 65536⟩ []] = true := by decide +kernel

/-- ownerChallenge to transportTensionOff: for each check an operand just beyond it. -/
theorem test_wf_refuses_6 : allRefused [
    .ownerChallenge ⟨65536, 0⟩,
    .ownerChallenge ⟨0, 65536⟩,
    .ownerChallengeQuery ⟨65536, 0⟩,
    .ownerChallengeQuery ⟨0, 65536⟩,
    .ownerResponse ⟨65536, 0⟩ [],
    .ownerResponse ⟨0, 65536⟩ [],
    .kernelLoad ⟨65536, 0⟩ 0 [],
    .kernelLoad ⟨0, 65536⟩ 0 [],
    .kernelLoad ⟨0, 0⟩ (2 ^ 32) [],
    .kernelLoadRom ⟨65536, 0⟩ 0,
    .kernelLoadRom ⟨0, 65536⟩ 0,
    .kernelLoadRom ⟨0, 0⟩ 256,
    .kernelUnload ⟨65536, 0⟩ 0,
    .kernelUnload ⟨0, 65536⟩ 0,
    .kernelUnload ⟨0, 0⟩ 256,
    .traceRead ⟨65536, 0⟩ 0 0 0,
    .traceRead ⟨0, 65536⟩ 0 0 0,
    .traceRead ⟨0, 0⟩ (2 ^ 32) 0 0,
    .traceRead ⟨0, 0⟩ 0 (2 ^ 32) 0,
    .traceRead ⟨0, 0⟩ 0 0 (2 ^ 32),
    .transportTensionOn ⟨65536, 0⟩,
    .transportTensionOn ⟨0, 65536⟩,
    .transportTensionOff ⟨65536, 0⟩,
    .transportTensionOff ⟨0, 65536⟩] = true := by decide +kernel

/-- transportPark to unsupportedCommand: for each check an operand just beyond it. -/
theorem test_wf_refuses_7 : allRefused [
    .transportPark ⟨65536, 0⟩ 0,
    .transportPark ⟨0, 65536⟩ 0,
    .transportPark ⟨0, 0⟩ (2 ^ 24),
    .transportLocate ⟨65536, 0⟩ 0 0,
    .transportLocate ⟨0, 65536⟩ 0 0,
    .transportLocate ⟨0, 0⟩ (2 ^ 32) 0,
    .transportLocate ⟨0, 0⟩ 0 (2 ^ 32),
    .transportShuttle ⟨65536, 0⟩,
    .transportShuttle ⟨0, 65536⟩,
    .transportCalibrate ⟨65536, 0⟩ 0,
    .transportCalibrate ⟨0, 65536⟩ 0,
    .transportCalibrate ⟨0, 0⟩ (2 ^ 24),
    .transportEjectPrepare ⟨65536, 0⟩ 0,
    .transportEjectPrepare ⟨0, 65536⟩ 0,
    .transportEjectPrepare ⟨0, 0⟩ (2 ^ 24),
    .transportServiceUnload ⟨65536, 0⟩,
    .transportServiceUnload ⟨0, 65536⟩,
    .transportServiceLoad ⟨65536, 0⟩,
    .transportServiceLoad ⟨0, 65536⟩,
    .transportResumeWriting ⟨65536, 0⟩ 0,
    .transportResumeWriting ⟨0, 65536⟩ 0,
    .transportResumeWriting ⟨0, 0⟩ (2 ^ 24),
    .unsupportedCommand ⟨65536, 0⟩ 0 0 0,
    .unsupportedCommand ⟨0, 65536⟩ 0 0 0] = true := by decide +kernel

/-- unsupportedCommand to read: for each check an operand just beyond it. -/
theorem test_wf_refuses_8 : allRefused [
    .unsupportedCommand ⟨0, 0⟩ 256 0 0,
    .unsupportedCommand ⟨0, 0⟩ 0 (2 ^ 32) 0,
    .unsupportedCommand ⟨0, 0⟩ 0 0 (2 ^ 32),
    .flush ⟨65536, 0⟩ 0,
    .flush ⟨0, 65536⟩ 0,
    .flush ⟨0, 0⟩ (2 ^ 32),
    .write ⟨65536, 0⟩ 0 0 0 false 0 0 none,
    .write ⟨0, 65536⟩ 0 0 0 false 0 0 none,
    .write ⟨0, 0⟩ (2 ^ 32) 0 0 false 0 0 none,
    .write ⟨0, 0⟩ 0 (2 ^ 64) 0 false 0 0 none,
    .write ⟨0, 0⟩ 0 0 65536 false 0 0 none,
    .write ⟨0, 0⟩ 0 0 0 false (2 ^ 32) 0 none,
    .write ⟨0, 0⟩ 0 0 0 false 0 (2 ^ 32) none,
    .write ⟨0, 0⟩ 0 0 0 false 0 0 (some []),
    .zoneAppend ⟨65536, 0⟩ 0 0 0 false 0 0 none,
    .zoneAppend ⟨0, 65536⟩ 0 0 0 false 0 0 none,
    .zoneAppend ⟨0, 0⟩ (2 ^ 32) 0 0 false 0 0 none,
    .zoneAppend ⟨0, 0⟩ 0 (2 ^ 64) 0 false 0 0 none,
    .zoneAppend ⟨0, 0⟩ 0 0 65536 false 0 0 none,
    .zoneAppend ⟨0, 0⟩ 0 0 0 false (2 ^ 32) 0 none,
    .zoneAppend ⟨0, 0⟩ 0 0 0 false 0 (2 ^ 32) none,
    .zoneAppend ⟨0, 0⟩ 0 0 0 false 0 0 (some []),
    .read ⟨65536, 0⟩ 0 0 0 false,
    .read ⟨0, 65536⟩ 0 0 0 false] = true := by decide +kernel

/-- read to zoneFinish: for each check an operand just beyond it. -/
theorem test_wf_refuses_9 : allRefused [
    .read ⟨0, 0⟩ (2 ^ 32) 0 0 false,
    .read ⟨0, 0⟩ 0 (2 ^ 64) 0 false,
    .read ⟨0, 0⟩ 0 0 65536 false,
    .writeZeroes ⟨65536, 0⟩ 0 0 0,
    .writeZeroes ⟨0, 65536⟩ 0 0 0,
    .writeZeroes ⟨0, 0⟩ (2 ^ 32) 0 0,
    .writeZeroes ⟨0, 0⟩ 0 (2 ^ 64) 0,
    .writeZeroes ⟨0, 0⟩ 0 0 65536,
    .datasetManagement ⟨65536, 0⟩ 0 false [],
    .datasetManagement ⟨0, 65536⟩ 0 false [],
    .datasetManagement ⟨0, 0⟩ (2 ^ 32) false [],
    .datasetManagement ⟨0, 0⟩ 0 false (List.replicate 257 (0, 0)),
    .zoneOpen ⟨65536, 0⟩ 0 0 false,
    .zoneOpen ⟨0, 65536⟩ 0 0 false,
    .zoneOpen ⟨0, 0⟩ (2 ^ 32) 0 false,
    .zoneOpen ⟨0, 0⟩ 0 (2 ^ 64) false,
    .zoneClose ⟨65536, 0⟩ 0 0 false,
    .zoneClose ⟨0, 65536⟩ 0 0 false,
    .zoneClose ⟨0, 0⟩ (2 ^ 32) 0 false,
    .zoneClose ⟨0, 0⟩ 0 (2 ^ 64) false,
    .zoneFinish ⟨65536, 0⟩ 0 0 false,
    .zoneFinish ⟨0, 65536⟩ 0 0 false,
    .zoneFinish ⟨0, 0⟩ (2 ^ 32) 0 false,
    .zoneFinish ⟨0, 0⟩ 0 (2 ^ 64) false] = true := by decide +kernel

/-- zoneReset to spoolCommit: for each check an operand just beyond it. -/
theorem test_wf_refuses_10 : allRefused [
    .zoneReset ⟨65536, 0⟩ 0 0,
    .zoneReset ⟨0, 65536⟩ 0 0,
    .zoneReset ⟨0, 0⟩ (2 ^ 32) 0,
    .zoneReset ⟨0, 0⟩ 0 (2 ^ 64),
    .zoneResetAll ⟨65536, 0⟩ 0,
    .zoneResetAll ⟨0, 65536⟩ 0,
    .zoneResetAll ⟨0, 0⟩ (2 ^ 32),
    .zoneOffline ⟨65536, 0⟩ 0 0,
    .zoneOffline ⟨0, 65536⟩ 0 0,
    .zoneOffline ⟨0, 0⟩ (2 ^ 32) 0,
    .zoneOffline ⟨0, 0⟩ 0 (2 ^ 64),
    .zoneManagementReceive ⟨65536, 0⟩ 0 0 0 0 0 false,
    .zoneManagementReceive ⟨0, 65536⟩ 0 0 0 0 0 false,
    .zoneManagementReceive ⟨0, 0⟩ (2 ^ 32) 0 0 0 0 false,
    .zoneManagementReceive ⟨0, 0⟩ 0 (2 ^ 64) 0 0 0 false,
    .zoneManagementReceive ⟨0, 0⟩ 0 0 (2 ^ 32) 0 0 false,
    .zoneManagementReceive ⟨0, 0⟩ 0 0 0 256 0 false,
    .zoneManagementReceive ⟨0, 0⟩ 0 0 0 0 256 false,
    .kernelInvoke ⟨65536, 0⟩ 0 0 [],
    .kernelInvoke ⟨0, 65536⟩ 0 0 [],
    .kernelInvoke ⟨0, 0⟩ (2 ^ 32) 0 [],
    .kernelInvoke ⟨0, 0⟩ 0 (2 ^ 32) [],
    .spoolCommit ⟨65536, 0⟩ 0,
    .spoolCommit ⟨0, 65536⟩ 0] = true := by decide +kernel

/-- spoolCommit to tapeTailScan: for each check an operand just beyond it. -/
theorem test_wf_refuses_11 : allRefused [
    .spoolCommit ⟨0, 0⟩ (2 ^ 32),
    .takeMark ⟨65536, 0⟩ 0,
    .takeMark ⟨0, 65536⟩ 0,
    .takeMark ⟨0, 0⟩ (2 ^ 32),
    .ccEnSet 8 0 0 0,
    .ccEnSet 0 8 0 0,
    .ccEnSet 0 0 4096 0,
    .ccEnSet 0 0 0 4096,
    .sqTailDoorbell 65536 0,
    .sqTailDoorbell 0 65536,
    .cqHeadDoorbell 65536 0,
    .cqHeadDoorbell 0 65536,
    .linkTrained 8 0 false,
    .linkTrained 0 64 false,
    .writeDataTransfer 65536 0 none,
    .writeDataTransfer 0 65536 none,
    .writeDataTransfer 0 0 (some [0]),
    .recordIdleTimeout (2 ^ 22),
    .compressionBlockCode 8,
    .overflowBufferFreed 8,
    .fsyncEdge (2 ^ 32) 0 0,
    .fsyncEdge 0 (2 ^ 32) 0,
    .fsyncEdge 0 0 (2 ^ 32),
    .tapeTailScan none (2 ^ 20)] = true := by decide +kernel

/-- fifoWrite to rowFramed: for each check an operand just beyond it. -/
theorem test_wf_refuses_12 : allRefused [
    .fifoWrite 96 0 false 0,
    .fifoWrite 0 (2 ^ 256) false 0,
    .fifoWrite 0 0 false 32,
    .fifoRead 96,
    .fifoRelease 65536,
    .fifoPointerMismatch 96,
    .fifoExtendedBodyError 96,
    .sfqRestart (some ⟨65536, 0⟩) 0,
    .sfqRestart none 96,
    .sfqStickyClear (some ⟨65536, 0⟩) 0 0,
    .sfqStickyClear none 96 0,
    .sfqStickyClear none 0 16,
    .engineGroupWake 16,
    .dsSeparatorDetected 512 [],
    .syncWindowClose 512 0 [],
    .syncWindowClose 0 8 [],
    .rowFramed 512 0 0 [] 0 0 0 0,
    .rowFramed 0 8 0 [] 0 0 0 0,
    .rowFramed 0 0 2 [] 0 0 0 0,
    .rowFramed 0 0 0 [] (2 ^ 64) 0 0 0,
    .rowFramed 0 0 0 [] 0 64 0 0,
    .rowFramed 0 0 0 [] 0 0 (-129) 0,
    .rowFramed 0 0 0 [] 0 0 128 0,
    .rowFramed 0 0 0 [] 0 0 0 (-65)] = true := by decide +kernel

/-- rowFramed to ctlRearm: for each check an operand just beyond it. -/
theorem test_wf_refuses_13 : allRefused [
    .rowFramed 0 0 0 [] 0 0 0 64,
    .lockLost 512 [],
    .dropoutSpan 512 0 1 0 0 [],
    .dropoutSpan 0 8 1 0 0 [],
    .dropoutSpan 0 0 0 0 0 [],
    .dropoutSpan 0 0 4 0 0 [],
    .dropoutSpan 0 0 1 1 0 [],
    .servoFrame 32 0 0 0 0,
    .servoFrame 0 16 0 0 0,
    .servoFrame 0 0 (2 ^ 64) 0 0,
    .servoFrame 0 0 0 65536 0,
    .servoFrame 0 0 0 0 65536,
    .tapePositionWord 32 0,
    .tapePositionWord 0 (2 ^ 79),
    .servoFrameTimeout 32,
    .rowDecode 512 0,
    .rowDecode 0 8,
    .rereadPassStart (2 ^ 34),
    .retryTimeExpiry (2 ^ 34),
    .slotSampleInstant 8,
    .supervisorFeedbackPeriod 8,
    .faultLineAsserted 4,
    .substitutionEnd 8,
    .ctlRearm (some ⟨65536, 0⟩) 0] = true := by decide +kernel

/-- ctlRearm to kdsqtDoorbell: for each check an operand just beyond it. -/
theorem test_wf_refuses_14 : allRefused [
    .ctlRearm none 8,
    .encoderEdge 2 false false false 0,
    .encoderEdge 0 false false false (2 ^ 32),
    .shuttleCodeSample 4096,
    .linkSampleFrame 4,
    .linkStatusFrame 4 0 false,
    .linkStatusFrame 0 (2 ^ 64) false,
    .ctlTrcArm (some ⟨65536, 0⟩),
    .ctlTrcSoftwareTrigger (some ⟨65536, 0⟩),
    .preampTransaction 16 false 0 0 [],
    .preampTransaction 0 false 128 0 [],
    .preampTransaction 0 false 0 256 [],
    .preampTransaction 0 false 0 0 (List.replicate 4 0),
    .preampFault 16 0,
    .preampFault 0 256,
    .radiusProbeDone false 65536 0,
    .radiusProbeDone false 0 65536,
    .positionValid (2 ^ 20) 0 0,
    .positionValid 0 80 0,
    .positionValid 0 0 32,
    .findPositionFailed 256,
    .emergencyStop 256,
    .kdsqtDoorbell 16 0 0 0 0 0,
    .kdsqtDoorbell 0 (2 ^ 64) 0 0 0 0] = true := by decide +kernel

/-- kdsqtDoorbell to coreIdlePowerDown: for each check an operand just beyond it. -/
theorem test_wf_refuses_15 : allRefused [
    .kdsqtDoorbell 0 0 65536 0 0 0,
    .kdsqtDoorbell 0 0 0 (2 ^ 64) 0 0,
    .kdsqtDoorbell 0 0 0 0 65536 0,
    .kdsqtDoorbell 0 0 0 0 0 65536,
    .kdcqhWrite 16 0,
    .kdcqhWrite 0 65536,
    .klockRequest 16,
    .klockRelease 16,
    .ecallExit 16 0 0 0 0,
    .ecallExit 0 (2 ^ 64) 0 0 0,
    .ecallExit 0 0 (2 ^ 64) 0 0,
    .ecallExit 0 0 0 (2 ^ 64) 0,
    .ecallExit 0 0 0 0 (2 ^ 64),
    .wfiWait 16 0,
    .wfiWait 0 (2 ^ 64),
    .dmaDescriptorComplete 16,
    .windowViolation 16 0 0,
    .windowViolation 0 256 0,
    .windowViolation 0 0 (2 ^ 64),
    .kernelTrap 16 0 0,
    .kernelTrap 0 256 0,
    .kernelTrap 0 0 (2 ^ 64),
    .invocationTimeLimit 16,
    .coreIdlePowerDown 16] = true := by decide +kernel

/-- cacheAccess to pageProgramStatus: for each check an operand just beyond it. -/
theorem test_wf_refuses_16 : allRefused [
    .cacheAccess 18 false 0 [] 0,
    .cacheAccess 0 false (2 ^ 36) [] 0,
    .cacheAccess 0 false 0 (List.replicate 65 0) 0,
    .cacheAccess 0 false 0 [] 4,
    .cacheMissFillComplete 8,
    .ccaRangeClean (some ⟨65536, 0⟩),
    .ccaRangeCleanInvalidate (some ⟨65536, 0⟩),
    .ccaWayEnWrite (some ⟨65536, 0⟩) 0,
    .ccaWayEnWrite none (2 ^ 32),
    .ccaEnableWrite (some ⟨65536, 0⟩) 0,
    .ccaEnableWrite none (2 ^ 32),
    .hardwareWayDisable 16,
    .servicePoolRequest 65536 0 0 0 0 [],
    .servicePoolRequest 0 (2 ^ 64) 0 0 0 [],
    .servicePoolRequest 0 0 (2 ^ 64) 0 0 [],
    .servicePoolRequest 0 0 0 (2 ^ 64) 0 [],
    .servicePoolRequest 0 0 0 0 (2 ^ 64) [],
    .servicePoolUrgentRequest 65536 0 0 0 0 [],
    .servicePoolUrgentRequest 0 (2 ^ 64) 0 0 0 [],
    .servicePoolUrgentRequest 0 0 (2 ^ 64) 0 0 [],
    .servicePoolUrgentRequest 0 0 0 (2 ^ 64) 0 [],
    .servicePoolUrgentRequest 0 0 0 0 (2 ^ 64) [],
    .keySlotLoad 65536,
    .pageProgramStatus (2 ^ 64) false] = true := by decide +kernel

/-- dieOperationTimeout to eventRecord: for each check an operand just beyond it. -/
theorem test_wf_refuses_17 : allRefused [
    .dieOperationTimeout 384,
    .pageRead 384 0 0 [],
    .pageRead 0 65536 0 [],
    .pageRead 0 0 65536 [],
    .fold (2 ^ 40),
    .linePresent 65536,
    .pgoodTimeout 12,
    .pgoodLost 12,
    .bankTestStart 65536,
    .pwrTestNow (some ⟨65536, 0⟩),
    .bankTestCharged 65536,
    .bankTestV1Sample 65536,
    .bankTestEnd 65536 0,
    .bankTestEnd 0 (2 ^ 32),
    .creditRecompute 65536,
    .temperatureSample none (2 ^ 16) [],
    .bootImportCheck (some ⟨65536, 0⟩),
    .bootImportSeal (some ⟨65536, 0⟩),
    .bootImportRestart (some ⟨65536, 0⟩),
    .bootImportAcceptLoss (some ⟨65536, 0⟩),
    .norProgramComplete 6 0 false,
    .norProgramComplete 0 2 false,
    .bufferUncorrectableError 4,
    .eventRecord 2048 0 []] = true := by decide +kernel

/-- eventRecord to linkPowerStateChange: for each check an operand just beyond it. -/
theorem test_wf_refuses_18 : allRefused [
    .eventRecord 0 256 [],
    .eventRecord 0 0 (List.replicate 13 0),
    .hmcFltRelease 16,
    .linkPowerStateChange 5] = true := by decide +kernel

/-- The same commands with operands that fit. -/
theorem test_wf_accepts_1 : ([
    .createIoSubmissionQueue ⟨0, 0⟩ 0 0 0 0 false,
    .createIoCompletionQueue ⟨0, 0⟩ 0 0 0 false false,
    .deleteIoSubmissionQueue ⟨0, 0⟩ 0,
    .deleteIoCompletionQueue ⟨0, 0⟩ 0,
    .getLogPage ⟨0, 0⟩ 0 0 0 false,
    .identify ⟨0, 0⟩ 0 0 0,
    .abort ⟨0, 0⟩ 0 0,
    .setFeatures ⟨0, 0⟩ 0 false 0 0 [],
    .setVolatileWriteCache ⟨0, 0⟩ false 0,
    .setHostMemoryBuffer ⟨0, 0⟩ false 0 0,
    .setTimestamp ⟨0, 0⟩ false 0,
    .setSpeedPolicy ⟨0, 0⟩ false [],
    .setAcknowledgeCreditPolicy ⟨0, 0⟩ false 0,
    .setCompressionPolicy ⟨0, 0⟩ false 0,
    .setOperatingContext ⟨0, 0⟩ false 0,
    .setRewritePolicy ⟨0, 0⟩ false [],
    .setComputePolicy ⟨0, 0⟩ false 0,
    .getFeatures ⟨0, 0⟩ 0 0 0,
    .asynchronousEventRequest ⟨0, 0⟩,
    .firmwareImageDownload ⟨0, 0⟩ 0 [],
    .firmwareCommitStore ⟨0, 0⟩ 0,
    .firmwareCommitStoreAndMark ⟨0, 0⟩ 0,
    .firmwareCommitMark ⟨0, 0⟩ 0,
    .firmwareCommitActivate ⟨0, 0⟩ 0,
    .formatNvm ⟨0, 0⟩ 0 0 0,
    .formatSecureEraseTake ⟨0, 0⟩ 0 0,
    .parameterRead ⟨0, 0⟩ 0 0 0,
    .parameterWrite ⟨0, 0⟩ 0 0 0 [],
    .parameterCommit ⟨0, 0⟩ 0,
    .parameterDiscard ⟨0, 0⟩,
    .keyDepositClaim ⟨0, 0⟩ [],
    .keyDepositReplaceOwnerKey ⟨0, 0⟩ [],
    .keyDepositEscrowKey ⟨0, 0⟩ [],
    .keyDepositRemoveEscrowKey ⟨0, 0⟩ [],
    .keyDepositEraseTake ⟨0, 0⟩ [],
    .keyDepositRecoverAndAdopt ⟨0, 0⟩ [],
    .ownerChallenge ⟨0, 0⟩,
    .ownerChallengeQuery ⟨0, 0⟩,
    .ownerResponse ⟨0, 0⟩ [],
    .kernelLoad ⟨0, 0⟩ 0 [],
    .kernelLoadRom ⟨0, 0⟩ 0,
    .kernelUnload ⟨0, 0⟩ 0,
    .traceRead ⟨0, 0⟩ 0 0 0,
    .transportTensionOn ⟨0, 0⟩,
    .transportTensionOff ⟨0, 0⟩,
    .transportPark ⟨0, 0⟩ 0,
    .transportLocate ⟨0, 0⟩ 0 0,
    .transportShuttle ⟨0, 0⟩,
    .transportCalibrate ⟨0, 0⟩ 0,
    .transportEjectPrepare ⟨0, 0⟩ 0,
    .transportServiceUnload ⟨0, 0⟩,
    .transportServiceLoad ⟨0, 0⟩,
    .transportResumeWriting ⟨0, 0⟩ 0,
    .unsupportedCommand ⟨0, 0⟩ 0 0 0,
    .flush ⟨0, 0⟩ 0,
    .write ⟨0, 0⟩ 0 0 0 false 0 0 none,
    .zoneAppend ⟨0, 0⟩ 0 0 0 false 0 0 none,
    .read ⟨0, 0⟩ 0 0 0 false,
    .writeZeroes ⟨0, 0⟩ 0 0 0,
    .datasetManagement ⟨0, 0⟩ 0 false []] : List Instr).all Instr.wf = true := by decide +kernel

/-- The same commands with operands that fit. -/
theorem test_wf_accepts_2 : ([
    .zoneOpen ⟨0, 0⟩ 0 0 false,
    .zoneClose ⟨0, 0⟩ 0 0 false,
    .zoneFinish ⟨0, 0⟩ 0 0 false,
    .zoneReset ⟨0, 0⟩ 0 0,
    .zoneResetAll ⟨0, 0⟩ 0,
    .zoneOffline ⟨0, 0⟩ 0 0,
    .zoneManagementReceive ⟨0, 0⟩ 0 0 0 0 0 false,
    .kernelInvoke ⟨0, 0⟩ 0 0 [],
    .spoolCommit ⟨0, 0⟩ 0,
    .takeMark ⟨0, 0⟩ 0,
    .ccEnSet 0 0 0 0,
    .ccEnClear,
    .shutdownNormal,
    .shutdownAbrupt,
    .sqTailDoorbell 0 0,
    .cqHeadDoorbell 0 0,
    .perstNAssert,
    .functionLevelReset,
    .linkTrained 0 0 false,
    .linkDown false,
    .commandFetch,
    .writeDataTransfer 0 0 none,
    .writeCreditGrant,
    .creditWaitTimeout,
    .recordIdleTimeout 0,
    .compressionBlockCode 0,
    .overflowBufferFreed 0,
    .xtsSectorEncrypt,
    .dsAssembled,
    .ivCeilingRefresh,
    .ivCeilingWriteDone false false,
    .speedRequestUpdate,
    .fsyncEdge 0 0 0,
    .fsyncTimeout,
    .dsPositionBoundary false,
    .verifyResult,
    .groupSpoolCommit,
    .crawlLimitExpiry,
    .tensionedIdleTimeout,
    .playbackIdleTimeout,
    .wrapTurnaround,
    .tapeTailScan none 0,
    .fifoWrite 0 0 false 0,
    .fifoRead 0,
    .fifoAdvance,
    .fifoRewindMark,
    .fifoRelease 0,
    .fifoRewindRelease,
    .fifoPointerMismatch 0,
    .fifoExtendedBodyError 0,
    .sfqRestart none 0,
    .sfqStickyClear none 0 0,
    .engineGroupWake 0,
    .dsSeparatorDetected 0 [],
    .syncWindowClose 0 0 [],
    .rowFramed 0 0 0 [] 0 0 0 0,
    .lockLost 0 [],
    .dropoutSpan 0 0 1 0 0 [],
    .servoFrame 0 0 0 0 0,
    .tapePositionWord 0 0] : List Instr).all Instr.wf = true := by decide +kernel

/-- The same commands with operands that fit. -/
theorem test_wf_accepts_3 : ([
    .speedMeasurement false [],
    .servoFrameTimeout 0,
    .rowDecode 0 0,
    .captureComplete,
    .recordDecompressStart,
    .recordCrcCheck,
    .rereadPassStart 0,
    .retryTimeExpiry 0,
    .slotSampleInstant 0,
    .limiterUpdate,
    .dwellEnd,
    .supervisorFeedbackPeriod 0,
    .faultLineAsserted 0,
    .substitutionEnd 0,
    .stopComplete,
    .ctlRearm none 0,
    .trapezeAutoRearm,
    .encoderEdge 0 false false false 0,
    .shuttleCodeSample 0,
    .linkSampleFrame 0,
    .linkStatusFrame 0 0 false,
    .traceSample,
    .traceFreeze,
    .ctlTrcArm none,
    .ctlTrcSoftwareTrigger none,
    .preampTransaction 0 false 0 0 [],
    .preampFault 0 0,
    .tensionUp false false,
    .radiusProbeDone false 0 0,
    .tensionSettled,
    .tensionTimeout,
    .positionValid 0 0 0,
    .findPositionFailed 0,
    .locateArrival,
    .locateTimeout,
    .emergencyStop 0,
    .emergencyBrakeApply,
    .lidSwChange false,
    .kdsqtDoorbell 0 0 0 0 0 0,
    .kdcqhWrite 0 0,
    .klockRequest 0,
    .klockRelease 0,
    .invocationStart,
    .ecallExit 0 0 0 0 0,
    .wfiWait 0 0,
    .dmaDescriptorComplete 0,
    .windowViolation 0 0 0,
    .kernelTrap 0 0 0,
    .invocationTimeLimit 0,
    .coreIdlePowerDown 0,
    .cacheAccess 0 false 0 [] 0,
    .cacheMissFillComplete 0,
    .ccaRangeClean none,
    .ccaRangeCleanInvalidate none,
    .rangeOperationComplete,
    .ccaWayEnWrite none 0,
    .ccaEnableWrite none 0,
    .cacheCleanComplete,
    .wayWakeComplete,
    .hardwareWayDisable 0] : List Instr).all Instr.wf = true := by decide +kernel

/-- The same commands with operands that fit. -/
theorem test_wf_accepts_4 : ([
    .servicePoolRequest 0 0 0 0 0 [],
    .servicePoolUrgentRequest 0 0 0 0 0 [],
    .servicePoolMessageDone,
    .cphLockTimeout,
    .keySlotLoad 0,
    .challengeExpiry,
    .lockoutExpiry,
    .sessionIdleTimeout,
    .trngHealthFailure false false,
    .trngRetest false,
    .pageProgramStatus 0 false,
    .dieOperationTimeout 0,
    .pageRead 0 0 0 [],
    .journalRecordPersisted,
    .checkpointWrite,
    .programSequenceCeiling false false,
    .gcRun,
    .fold 0,
    .scrub,
    .ageClockStep,
    .hmbMapLoadDone,
    .linePresent 0,
    .lineLoss,
    .lineOvervoltage,
    .powerUpStep false,
    .pgoodTimeout 0,
    .powerUpRetry,
    .referenceSettled,
    .pgoodLost 0,
    .bankTestStart 0,
    .pwrTestNow none,
    .bankTestCharged 0,
    .bankTestChargeTimeout,
    .bankTestV1Sample 0,
    .bankTestEnd 0 0,
    .creditRecompute 0,
    .drainComplete,
    .bankBelowMinimum,
    .bankBelowIslandMinimum,
    .crystalStable,
    .temperatureSample none 0 [],
    .shockInterrupt 0 0 0,
    .compositeTemperatureSample 0,
    .thermalTrip,
    .bootImportCheck none,
    .bootImportSeal none,
    .bootImportRestart none,
    .bootImportAcceptLoss none,
    .norProgramComplete 0 0 false,
    .lockstepMismatch,
    .bufferUncorrectableError 0,
    .eventRecord 0 0 [],
    .eventRateSecondEnd,
    .eventJournalPersist,
    .percentageUsedCompute,
    .healthRecordWrite,
    .aonPorstNRise,
    .hmcFltRelease 0,
    .linkPowerStateChange 0,
    .uncorrectableAerError] : List Instr).all Instr.wf = true := by decide +kernel


/-- A queue with a command in front. -/
theorem wit_StepTakesFront : (({ base with pending := [.crystalStable] } : State).pending = .crystalStable :: []) := by decide +kernel

/-- An empty queue, with power and without. -/
theorem wit_IdleStepIsATick : (base.pending = [] ∧ base.keys.lockout ≠ 1 ∧ base.pw.aon = true ∧ State.reset.pending = []) := by decide +kernel

/-- A command of which exec answers a next state; so for FUSES_BLOWN_ONLY_AT_BOOT. -/
theorem wit_CommandsLeaveTheQueue : (∃ t, exec .crystalStable base = .next t) := ⟨_, rfl⟩

/-- A command other than BOOT_SEQUENCE. -/
theorem wit_FusesBlownOnlyAtBoot : (∀ env, (.perstNAssert : Instr) ≠ .bootSequence env)
    ∧ (∃ t, exec .perstNAssert base = .next t) := ⟨(fun _ h => nomatch h), ⟨_, rfl⟩⟩

/-- In every state a step on a queue with REFERENCE_SETTLED in front answers a next state. -/
theorem step_next (s : State) : ∃ t, step { s with pending := [.referenceSettled] } = .next t := ⟨_, rfl⟩


/-- A step that answers a next state. -/
theorem wit_FusesNeverFall : (∃ t, step { base with pending := [.referenceSettled] } = .next t) :=
  step_next base

/-- Every fuse blown that may be. -/
theorem wit_FusesStayLegal : (∃ t, step { base.modNor (fun n => { n with fuses := 32 }) with pending := [.referenceSettled] } = .next t)
    ∧ (base.modNor (fun n => { n with fuses := 32 })).FusesLegal := ⟨step_next _, Nat.le_refl 32⟩

/-- A word with an end mark. -/
def endWord : FWord := { payload := 7, last := true, count := 0 }

/-- FIFO 66 with three packets of one word, of which one is marked and two are read. -/
def kept : State := base.modFifo 66 (fun f => { f with words := [endWord, endWord, endWord], m := 1, p := 2 })


/-- A FIFO with its pointers apart. -/
theorem wit_FifoPointersStayInOrder : kept.FifosOrdered
    ∧ (∃ t, step { kept with pending := [.referenceSettled] } = .next t) := ⟨(by unfold State.FifosOrdered; decide +kernel), step_next _⟩

/-- A staged value and a line of the buffer. -/
theorem wit_CanonicalFormsAreKept : (({ base with staged := [(1, 2), (3, 4)] } : State).modCache (fun c => { c with mem := [(5, zeroBytes 63 ++ [1])] })).ParamsRising
    ∧ (({ base with staged := [(1, 2), (3, 4)] } : State).modCache (fun c => { c with mem := [(5, zeroBytes 63 ++ [1])] })).BufferCanonical
    ∧ (∃ t, step { (({ base with staged := [(1, 2), (3, 4)] } : State).modCache (fun c => { c with mem := [(5, zeroBytes 63 ++ [1])] })) with pending := [.referenceSettled] } = .next t) := ⟨(by unfold State.ParamsRising; decide +kernel), (by unfold State.BufferCanonical; decide +kernel), step_next _⟩

/-- A free queue identifier at its highest, an unused completion queue, an Abort with three waiting to be posted. -/
theorem wit_QueueCommandsComplete : base.AdminRuns hA (admQ base) (adm base)
    ∧ (NMap.find? (adm base).nv.cqs 1024 = none ∧ (adm base).pn pEVT_MSIX_VEC ≠ 2047)
    ∧ (NMap.find? (adm base).nv.sqs 1024 = none ∧ (NMap.find? (adm base).nv.cqs 1).isSome = true)
    ∧ ((NMap.find? (adm (base.modNv (fun n => { n with sqs := [(0, sqOne 0)] }))).nv.cqs 1).isSome = true)
    ∧ ((adm (base.modNv (fun n => { n with sqs := [(0, sqOne 0)] }))).nv.sqs.any (fun e => e.2.cq = 1) = false)
    ∧ ((NMap.find? (adm base).nv.sqs 1).isSome = true)
    ∧ ((adm base).nv.held.countP Held.isAborting < 4) := ⟨adminRuns_of (by decide +kernel), by decide +kernel, by decide +kernel, by decide +kernel, by decide +kernel, by decide +kernel, by decide +kernel⟩

/-- An event that waits, and none. -/
theorem wit_AsyncEventRequestCompletes : base.AdminRuns hA (admQ base) (adm base)
    ∧ (base.modNv (fun n => { n with asyncQ := [(7, 3, 0xC3)] })).AdminRuns hA (admQ (base.modNv (fun n => { n with asyncQ := [(7, 3, 0xC3)] }))) (adm (base.modNv (fun n => { n with asyncQ := [(7, 3, 0xC3)] })))
    ∧ ((adm (base.modNv (fun n => { n with asyncQ := [(7, 3, 0xC3)] }))).nv.asyncQ = (7, 3, 0xC3) :: [])
    ∧ ((adm base).nv.asyncQ = [] ∧ (adm base).nv.held.countP (fun x => x.wait = .aer) < 16) := ⟨adminRuns_of (by decide +kernel), adminRuns_of (by decide +kernel), by decide +kernel, by decide +kernel⟩

/-- What a controller reset with a cause leaves before the host's interface goes on. -/
def resetBy (cause : Nat) (t : State) : State := ((((((t.modNv (fun n =>
  { n with
    en := false
    ams := 0
    css := 0
    shn := 0
    shst := 0
    rdy := false
    pp := false
    sqs := []
    cqs := []
    held := []
    rr := []
    wrr := (1, 0)
    writes := []
    masked := []
    asyncQ := []
    fwBuf := [] })).closeOpenZones.dropInvocations).modCar (fun c => { c with hmb := 0 })).endSession).raise 0x601 cause []).dropTransport).dropUnwanted


/-- CC.EN at 0 and at 1, with CC.SHN 0. -/
theorem wit_ControllerRegistersAct : ((base.modNv (fun n => { n with en := false })).mag.st.alive = true)
    ∧ ((base.modNv (fun n => { n with en := false })).nv.en = false ∧ base.mag.st ≠ .drain)
    ∧ (base.mag.st.alive = true ∧ base.nv.en = true ∧ base.nv.shn = 0 ∧ base.nv.shst ≠ 2)
    ∧ ((resetBy 2 base).nv.fwMarked = false ∧ (resetBy 3 (base.modNv (fun n => { n with fwMarked := true }))).nv.fwMarked = true ∧ (resetBy 3 (base.modNv (fun n => { n with fwMarked := true }))).moves = false) := ⟨by decide +kernel, by decide +kernel, by decide +kernel, by decide +kernel⟩

/-- A link at 16 GT/s of four lanes. -/
def linked : State := base.modNv (fun n => { n with link := some (4, 4, false) })


/-- A link of four lanes at 16 GT/s, and less. -/
theorem wit_LinkCommandsAct : (linked.mag.st.alive = true ∧ 4 ≤ linked.pn pHIF_LINK_MAX ∧ 4 ≤ 4)
    ∧ (3 ≤ linked.pn pHIF_LINK_MAX ∧ (3 < 4 ∨ 4 < 4))
    ∧ (linked.nv.link.isSome = true ∧ 4 ≤ 4) := ⟨by decide +kernel, by decide +kernel, by decide +kernel⟩

/-- A completion queue with one entry posted. -/
def cqFull : Cq := { cqOne with tail := 1, entries := [{ sq := 1, cid := 0, sct := 0, sc := 0, dnr := false, dw0 := 0, dw1 := 0, data := [] }] }


/-- One entry waits in each queue, one completion is posted. -/
theorem wit_DoorbellsAndFetch : (∃ a : Nat × Nvme, base.arbitrate = some a ∧ ((NMap.find? a.2.sqs a.1).isSome) = true)
    ∧ (base.nv.rdy = true)
    ∧ (NMap.find? base.nv.sqs 1 = some (sqOne 1) ∧ 7 < (sqOne 1).size ∧ (sqOne 1).waiting + (7 + (sqOne 1).size - (sqOne 1).tail) % (sqOne 1).size < (sqOne 1).size)
    ∧ ((base.modNv (fun n => { n with cqs := [(0, cqOne), (1, cqFull)] })).nv.rdy = true)
    ∧ (NMap.find? (base.modNv (fun n => { n with cqs := [(0, cqOne), (1, cqFull)] })).nv.cqs 1 = some cqFull ∧ (1 + cqFull.size - cqFull.head) % cqFull.size ≤ cqFull.entries.length) := ⟨some_of (o := base.arbitrate) (p := fun (a : Nat × Nvme) => (NMap.find? a.2.sqs a.1).isSome) (by decide +kernel), by decide +kernel, by decide +kernel, by decide +kernel, by decide +kernel⟩

/-- The Carousel of C4 with a sidecar. -/
def sided : State :=
  ({ base with params := [(pkey pCSL_SC_PCT 0, 10), (pkey pCSL_CONFIG 0, 4)] } : State).modCar (fun c => { c with perChan := 1, blocksPerDie := 100, spares := 10, spares0 := 10 })


/-- A command of I/O queue 1 with the zoned command set. -/
theorem wit_ReadsAndWritesComplete : base.TakeRuns hI (ioQ base) (io base)
    ∧ sided.IoRuns hI (ioQ sided) (io sided)
    ∧ ((io base).readCheck 65535 (511 + 1) = none ∧ (io sided).pn pCSL_CONFIG ≠ 16 ∧ 511 < 512 ∧ 0 + (511 + 1) ≤ (io sided).sideLbas ∧ (io sided).car.readOnly = false)
    ∧ (((lbaList 7 (0 + 1)).map (io sided).sideLba).contains .unreadable = false)
    ∧ ((([(0, 1), (5, 0)] : List (Nat × Nat)).take 256).foldl (fun m r => if r.2 = 0 then m else max m (r.1 + r.2)) 0 ≤ (io sided).sideLbas) := ⟨takeRuns_of (by decide +kernel), ioRuns_of (by decide +kernel), by decide +kernel, by decide +kernel, by decide +kernel⟩

/-- Zone 0 open with 512 blocks left. -/
def nearEnd : State := base.modSp (fun p =>
  { p with
    zones := [(0, { st := .implicit, wp := 65024, take := 1, ctx := some 0, written := 65024, byTakeMark := false, lastWrite := 0 })]
    takes := [(1, { keyId := 1, closed := false, erased := false, firstZone := 0, zones := 1, start := 0, firstDs := none, lastDs := none, firstCut := false })]
    lastTake := 1
    current := some 1 })


/-- A write of one block to zone 1 that waits for its data. -/
def oneWrite : WriteCmd := { seq := 3, nsid := 1, slba := 65536, nlb := 1, fua := false, append := false, timecode := none, moved := false, app := 0 }

/-- It is held, and its zone is open. -/
def writing : State :=
  (base.modNv (fun n => { n with held := [{ seq := 3, sq := 1, cid := some 9, cls := 1, wait := .write }], writes := [oneWrite] })).modSp (fun p =>
    { p with zones := [(1, { st := .implicit, wp := 0, take := 1, ctx := some 0, written := 0, byTakeMark := false, lastWrite := 0 })] })


/-- A block that reaches the end of a zone, written and appended; a held write that may be moved. -/
theorem wit_TakeWriteIsAccepted : nearEnd.TakeRuns hI (ioQ nearEnd) (io nearEnd)
    ∧ ((io nearEnd).behindMark (ioQ nearEnd) (zoneOf 65024) = false ∧ (io nearEnd).takeCheck false 65024 (511 + 1) 0 0 = none)
    ∧ ((io nearEnd).behindMark (ioQ nearEnd) (zoneOf 0) = false ∧ (io nearEnd).takeCheck true 0 (511 + 1) 0 0 = none)
    ∧ (writing.mag.st.alive = true ∧ writing.mag.st ≠ .drain)
    ∧ ((writing.nv.held.find? (fun h => h.sq = 1 && h.cid = some 9 && h.wait = .write)) = some { seq := 3, sq := 1, cid := some 9, cls := 1, wait := .write })
    ∧ (writing.nv.writes.find? (fun w => w.seq = 3) = some oneWrite ∧ writing.mayMove oneWrite = true) := ⟨takeRuns_of (by decide +kernel), by decide +kernel, by decide +kernel, by decide +kernel, by decide +kernel, by decide +kernel⟩

/-- Zone 2 in a given state, with nothing written. -/
def zoned (st : ZState) : State :=
  base.modSp (fun p => { p with zones := [(2, { st, wp := 0, take := 1, ctx := none, written := 0, byTakeMark := false, lastWrite := 0 })], takes := [(1, { keyId := 1, closed := false, erased := false, firstZone := 2, zones := 1, start := 0, firstDs := none, lastDs := none, firstCut := false })], lastTake := 1, current := some 1 })


/-- Zone 2 closed, open and empty; the last state code that a report may name. -/
theorem wit_ZoneCommandsComplete : (zoned .closed).TakeRuns hI (ioQ (zoned .closed)) (io (zoned .closed))
    ∧ (zoned .explicit).TakeRuns hI (ioQ (zoned .explicit)) (io (zoned .explicit))
    ∧ (zoned .empty).TakeRuns hI (ioQ (zoned .empty)) (io (zoned .empty))
    ∧ ((io (zoned .closed)).takeProtected = false ∧ 131072 < (io (zoned .closed)).takeLbas ∧ 131072 % 65536 = 0)
    ∧ (((io (zoned .closed)).zone (zoneOf 131072)).st = .closed ∧ (io (zoned .closed)).openCheck (zoneOf 131072) = none)
    ∧ (((io (zoned .empty)).zone (zoneOf 131072)).st = .empty ∧ (io (zoned .empty)).openCheck (zoneOf 131072) = none)
    ∧ ((io (zoned .explicit)).takeProtected = false ∧ ((io (zoned .explicit)).zone (zoneOf 131072)).st.isOpen = true)
    ∧ (((io (zoned .explicit)).zone (zoneOf 131072)).st.isActive = true ∧ ((io (zoned .explicit)).zone (zoneOf 131072)).wp = 0)
    ∧ ((io (zoned .closed)).takeLbas - 1 < (io (zoned .closed)).takeLbas ∧ 7 ≤ 7) := ⟨takeRuns_of (by decide +kernel), takeRuns_of (by decide +kernel), takeRuns_of (by decide +kernel), by decide +kernel, by decide +kernel, by decide +kernel, by decide +kernel, by decide +kernel, by decide +kernel⟩

/-- A command of I/O queue 1 in camera context. -/
theorem wit_FlushCommandsWait : base.TakeRuns hI (ioQ base) (io base)
    ∧ ((io base).mag.ctx = .camera) := ⟨takeRuns_of (by decide +kernel), by decide +kernel⟩

/-- A frozen trace. -/
def frozenTrace : State := base.modCtl (fun c => { c with trace := { c.trace with st := 2 } })


/-- Identify Controller, log C2h at an allowed offset, a frozen trace read to its end. -/
theorem wit_ReportsComplete : frozenTrace.Admin hA (admQ frozenTrace) (adm frozenTrace)
    ∧ base.Admin hA (admQ base) (adm base)
    ∧ (∃ b, (adm base).identify 1 0 0 = .inl b)
    ∧ (∃ b, (adm base).logPage 0xC2 = some b)
    ∧ ((0xC2 : Nat) ≠ 2 ∧ 64 % 4 = 0 ∧ 64 % 32 = 0)
    ∧ ((adm frozenTrace).mag.st ≠ .safe ∧ (adm frozenTrace).keys.session = true ∧ (adm frozenTrace).ctl.trace.st = 2 ∧ (adm frozenTrace).flows 92 = true)
    ∧ ((524287 + 1) % 16 = 0 ∧ 524287 + 1 ≤ 524288 ∧ 256 % 256 = 0 ∧ 0 + (524287 + 1) / 16 ≤ 32768)
    ∧ ((adm base).nv.held.any (fun x => x.wait = .deleteSq hA.sq) = false)
    ∧ ((if hA.sq = 0 then adminOpcodes else ioOpcodes).contains (0xFF % 256) = false ∧ (if hA.sq = 0 then adminOpcodes else ioOpcodes).contains (0xC4 % 256) = true) := ⟨admin_of (by decide +kernel), admin_of (by decide +kernel), ⟨_, rfl⟩, ⟨_, rfl⟩, by decide +kernel, by decide +kernel, by decide +kernel, by decide +kernel, by decide +kernel⟩

/-- The last Dword of the image; slot 2 empty and filled; a still tape. -/
theorem wit_FirmwareCommandsComplete : base.Admin hA (admQ base) (adm base)
    ∧ (base.modNv (fun n => { n with fwSlot2 := some [] })).Admin hA (admQ (base.modNv (fun n => { n with fwSlot2 := some [] }))) (adm (base.modNv (fun n => { n with fwSlot2 := some [] })))
    ∧ ((4194300 : Nat) % 4 = 0 ∧ 4194300 + (zeroBytes 4).length ≤ 2 ^ 22)
    ∧ (commitSlot 0 = 2 ∧ (adm base).nor.dead = false)
    ∧ (commitSlot 2 = 2 ∧ (adm (base.modNv (fun n => { n with fwSlot2 := some [] }))).nv.fwSlot2.isSome = true ∧ (adm (base.modNv (fun n => { n with fwSlot2 := some [] }))).moves = false)
    ∧ ((commitSlot 1 = 2 → (adm base).nv.fwSlot2.isSome = true) ∧ (adm base).moves = false) := ⟨admin_of (by decide +kernel), admin_of (by decide +kernel), by decide +kernel, by decide +kernel, by decide +kernel, by decide +kernel⟩

/-- A sidecar that may be written; SERVICE with an active take namespace. -/
theorem wit_FormatsAct : base.AdminRuns hA (admQ base) (adm base)
    ∧ (inSt .service).AdminRuns hA (admQ (inSt .service)) (adm (inSt .service))
    ∧ ((adm base).car.readOnly = false)
    ∧ ((adm (inSt .service)).takeActive = true ∧ (adm (inSt .service)).mag.st = .service ∧ (adm (inSt .service)).noRotation = false) := ⟨adminRuns_of (by decide +kernel), adminRuns_of (by decide +kernel), by decide +kernel, by decide +kernel⟩

/-- TFM_CRAWL_ENTRY is staged at the highest value that TFM_CRAWL_EXIT (192) allows. -/
def staging : State := { base with staged := [(pkey pTFM_CRAWL_ENTRY 0, 191)] }


/-- The last element of an array, the staged view of an RW-S parameter, a Basic one. -/
theorem wit_ParameterReadReturnsElements : base.Admin hA (admQ base) (adm base)
    ∧ (∃ d : PDesc, pdesc? pCCA_WMASK = some d ∧ (d.level = 0 || (adm base).keys.session) = true)
    ∧ (∃ d : PDesc, pdesc? pCCA_WMASK = some d ∧ (!d.badRange (d.count - 1) 1) = true)
    ∧ (∃ d : PDesc, pdesc? pTFM_CRAWL_ENTRY = some d ∧ (d.access = .rws && !d.badRange 0 1) = true)
    ∧ (pTFM_CRAWL_ENTRY < 2 ^ 16 ∧ pCCA_WMASK < 2 ^ 16 ∧ (adm base).keys.session = true) := ⟨admin_of (by decide +kernel), some_of (o := pdesc? pCCA_WMASK) (p := fun (d : PDesc) => d.level = 0 || (adm base).keys.session) (by decide +kernel), some_of (o := pdesc? pCCA_WMASK) (p := fun (d : PDesc) => !d.badRange (d.count - 1) 1) (by decide +kernel), some_of (o := pdesc? pTFM_CRAWL_ENTRY) (p := fun (d : PDesc) => d.access = .rws && !d.badRange 0 1) (by decide +kernel), by decide +kernel⟩

/-- A candidate that passes; no session. -/
theorem wit_ParameterCommitActs : staging.AdminRuns hA (admQ staging) (adm staging)
    ∧ (staging.modKeys (fun k => { k with session := false })).AdminRuns hA (admQ (staging.modKeys (fun k => { k with session := false }))) (adm (staging.modKeys (fun k => { k with session := false })))
    ∧ ((adm staging).keys.session = true ∧ (adm staging).staged ≠ [] ∧ (adm staging).commitCheck (adm staging).staged = none)
    ∧ ((adm (staging.modKeys (fun k => { k with session := false }))).keys.session = false) := ⟨adminRuns_of (by decide +kernel), adminRuns_of (by decide +kernel), by decide +kernel, by decide +kernel⟩

/-- One element that passes, and one beyond the range. -/
theorem wit_ParameterWriteIsAllOrNothing : base.AdminRuns hA (admQ base) (adm base)
    ∧ (∃ d : PDesc, pdesc? pTFM_REWRITE_MAX = some d ∧ (pTFM_REWRITE_MAX < 2 ^ 16 && pTFM_REWRITE_MAX != pBOOT_IMP_CTL && (adm base).writeCheck pTFM_REWRITE_MAX 0 (elemsOf d.width 1 (leBytes 4 15)) = none) = true)
    ∧ (∃ d : PDesc, pdesc? pTFM_REWRITE_MAX = some d ∧ (((adm base).writeCheck pTFM_REWRITE_MAX 0 (elemsOf d.width 1 (leBytes 4 255))).isSome) = true) := ⟨adminRuns_of (by decide +kernel), some_of (o := pdesc? pTFM_REWRITE_MAX) (p := fun (d : PDesc) => pTFM_REWRITE_MAX < 2 ^ 16 && pTFM_REWRITE_MAX != pBOOT_IMP_CTL && (adm base).writeCheck pTFM_REWRITE_MAX 0 (elemsOf d.width 1 (leBytes 4 15)) = none) (by decide +kernel), some_of (o := pdesc? pTFM_REWRITE_MAX) (p := fun (d : PDesc) => ((adm base).writeCheck pTFM_REWRITE_MAX 0 (elemsOf d.width 1 (leBytes 4 255))).isSome) (by decide +kernel)⟩

/-- C16 with CSL_SC_PCT at its highest value. -/
def c16Full : State := { base with params := [(pkey pCSL_SC_PCT 0, 10), (pkey pCSL_CONFIG 0, 16)] }

/-- The values in force as the Dwords that a vendor feature writes back unchanged. -/
def written (s : State) (fid : Nat) : Nat := featureValue fid (fun p => s.elem p 0)


/-- Known features; a host memory buffer of the size preferred in C16; READY; vendor features written with the values in force. -/
theorem wit_SetFeaturesComplete : base.AdminRuns hA (admQ base) (adm base)
    ∧ c16Full.AdminRuns hA (admQ c16Full) (adm c16Full)
    ∧ (featureKnown 0x01 = true ∧ featureKnown 0xC5 = true ∧ (adm base).keys.session = true ∧ (adm base).mag.st = .ready)
    ∧ (1 % 2 = 1 ∧ (adm c16Full).car.hmb = 0 ∧ (adm c16Full).hmMin ≤ (adm c16Full).hmPre ∧ (adm c16Full).pn pCSL_CONFIG = 16)
    ∧ ((adm base).vendorFits 0xC0 256 (leAt (leBytes 32 (written base 0xC0)) 0 32) = true ∧ (adm base).vendorBusy 0xC0 (leAt (leBytes 32 (written base 0xC0)) 0 32) = false ∧ (adm base).commitCheck (vendorStaged 0xC0 (leAt (leBytes 32 (written base 0xC0)) 0 32)) = none)
    ∧ ((adm base).vendorFits 0xC4 128 (leAt (leBytes 16 (written base 0xC4)) 0 16) = true ∧ (adm base).vendorBusy 0xC4 (leAt (leBytes 16 (written base 0xC4)) 0 16) = false ∧ (adm base).commitCheck (vendorStaged 0xC4 (leAt (leBytes 16 (written base 0xC4)) 0 16)) = none)
    ∧ ([0xC1, 0xC2, 0xC5].all (fun f => (adm base).vendorFits f 32 (written base f) && !(adm base).vendorBusy f (written base f)) = true ∧ (adm base).commitCheck [] = none)
    ∧ ((adm base).getDword 0x09 2047 true ≠ none ∧ (adm base).getDword 0xC1 0 false ≠ none) := ⟨adminRuns_of (by decide +kernel), adminRuns_of (by decide +kernel), by decide +kernel, by decide +kernel, by decide +kernel, by decide +kernel, by decide +kernel, by decide +kernel⟩

/-- An open challenge of a claimed magazine whose owner key is in its slot. -/
def challenged : State := base.modKeys (fun k =>
  { k with
    challenge := some (List.replicate 32 5)
    challenges := 1
    slots := [(258, { key := List.replicate 32 9, id := 0, used := 0 })]
    krec := some { inst := 1, gen := 0, cur := [], prev := [], owner := [1], escrow := [], ceiling := 0, fails := 0, lockLen := 0, seq := 0 } })

/-- The owner's answer to that challenge. -/
def answer : Bytes := zeroBytes 32 ++ leBytes 4 1 ++ zeroBytes 4
  ++ cmac (List.replicate 32 9) (ownerMessage "UHOR" (List.replicate 32 5) (zeroBytes 32) 1 1)

theorem answer_mac : slice answer 0x28 16 = cmac (adm challenged).ownerKey (ownerMessage "UHOR" (List.replicate 32 5) (slice answer 0 32)
    (adm challenged).keys.challenges (adm challenged).instNo) := by
  have h1 : (adm challenged).ownerKey = List.replicate 32 9 := by decide +kernel
  have h2 : (adm challenged).keys.challenges = 1 ∧ (adm challenged).instNo = 1 := by decide +kernel
  have h3 : slice answer 0 32 = zeroBytes 32 := by decide +kernel
  have h4 : (cmac (List.replicate 32 9) (ownerMessage "UHOR" (List.replicate 32 5) (zeroBytes 32) 1 1)).length = 16 := by decide +kernel
  have h5 : (zeroBytes 32 ++ leBytes 4 1 ++ zeroBytes 4).length = 0x28 := by decide +kernel
  rw [h1, h2.1, h2.2, h3]
  unfold slice answer
  rw [List.drop_left' h5, List.take_of_length_le (by omega)]

/-- A lockout of three seconds. -/
def lockedOut : State := base.modKeys (fun k => { k with lockout := 3 * 32768 })


/-- No lockout and a lockout; no challenge, the right answer to an open one, and a wrong one. -/
theorem wit_OwnerAuthentication : base.Admin hA (admQ base) (adm base)
    ∧ lockedOut.Admin hA (admQ lockedOut) (adm lockedOut)
    ∧ challenged.Admin hA (admQ challenged) (adm challenged)
    ∧ (slice answer 0x28 16 = cmac (adm challenged).ownerKey (ownerMessage "UHOR" (List.replicate 32 5) (slice answer 0 32)
      (adm challenged).keys.challenges (adm challenged).instNo))
    ∧ ((adm base).keys.lockout = 0 ∧ (adm base).keys.trngOk = true ∧ (adm lockedOut).keys.lockout ≠ 0 ∧ (adm base).keys.challenge = none)
    ∧ ((adm challenged).keys.challenge = some (List.replicate 32 5) ∧ (adm challenged).krec.fails = 0 ∧ (adm challenged).keys.recDirty = false ∧ (adm challenged).claimed = true ∧ leAt answer 0x20 4 = (adm challenged).keys.challenges)
    ∧ (leAt (zeroBytes 56) 0x20 4 ≠ (adm challenged).keys.challenges) := ⟨admin_of (by decide +kernel), admin_of (by decide +kernel), admin_of (by decide +kernel), answer_mac, by decide +kernel, by decide +kernel, by decide +kernel⟩

/-- A media key that is in no slot and does not unwrap. -/
def oneMedia : State := base.modKeys (fun k => { k with medias := [(7, { take := 1, wrapped := [] })] })


/-- Its length kept in the key record, in READY. -/
def lockedLong : State := lockedOut.modKeys (fun k => { k with krec := some { k.krec.getD State.reset.krec with lockLen := 60 } })

/-- Take 1 with media key 7, which stands in slot 255. -/
def slotted : State := base.modKeys (fun k => { k with slots := [(255, { key := zeroBytes 64, id := 7, used := 0 })] })


/-- Lockouts with and without a length in the key record, a healthy TRNG, a media key in the last slot; one that is in none and does not unwrap. -/
theorem wit_AuthenticationTimersAndTrng : (lockedOut.keys.lockout ≠ 0 ∧ lockedOut.krec.lockLen = 0 ∧ lockedLong.keys.lockout ≠ 0 ∧ lockedLong.krec.lockLen ≠ 0 ∧ lockedLong.mag.st.alive = true ∧ lockedLong.mag.st ≠ .drain ∧ lockedLong.nor.dead = false)
    ∧ (base.keys.session = true ∧ base.keys.trngOk = true ∧ slotted.slotOf 7 = some 255)
    ∧ (oneMedia.slotOf 7 = none ∧ (NMap.find? oneMedia.keys.medias 7).isSome = true ∧ oneMedia.freeXts = some 0 ∧ oneMedia.mediaKey 7 = none) := ⟨by decide +kernel, by decide +kernel, by decide +kernel⟩

/-- SERVICE with a session, and take 1 closed. -/
def servicing : State :=
  ((inSt .service).modMag (fun g => { g with ctx := .service })).modSp (fun p =>
    { p with takes := [(1, { keyId := 1, closed := true, erased := false, firstZone := 0, zones := 1, start := 0, firstDs := none, lastDs := none, firstCut := false })] })


/-- A deposit for take 1 whose key field is the wrap of no bytes, which unwraps under every key. -/
def keyless : Bytes := zeroBytes 8 ++ leBytes 4 1 ++ zeroBytes 4 ++ List.replicate 8 0xA6


/-- An unclaimed magazine; SERVICE with a closed take 1 and a healthy TRNG; a zero and another key field. -/
theorem wit_KeyDepositsAct : base.Admin hA (admQ base) (adm base)
    ∧ servicing.AdminRuns hA (admQ servicing) (adm servicing)
    ∧ ((adm base).claimed = false ∧ (adm servicing).keys.session = true ∧ (adm servicing).mag.st = .service ∧ (adm servicing).mag.unloaded = false ∧ (adm servicing).noRotation = false)
    ∧ (((NMap.find? (adm servicing).sp.takes (leAt (zeroBytes 8 ++ leBytes 4 1 ++ zeroBytes 44) 0x08 4)).map (fun x => x.closed)) = some true)
    ∧ ((adm base).nor.dead = false ∧ (adm servicing).nor.dead = false ∧ kwUnwrap (adm servicing).ownerKey (depositKey keyless) = some [] ∧ kwUnwrap (adm servicing).ownerKey (depositKey []) = none ∧ (adm servicing).escrowFails (slice keyless 0 8) [] = 0 ∧ (adm servicing).escrowGen (slice keyless 0 8) [] = none)
    ∧ (allZero (depositKey keyless) = false ∧ ((NMap.find? (adm servicing).sp.takes (leAt keyless 0x08 4)).map (fun x => x.closed)) = some true)
    ∧ (allZero (depositKey (zeroBytes 8 ++ leBytes 4 1 ++ zeroBytes 44)) = true ∧ allZero (depositKey (zeroBytes 8 ++ leBytes 4 1 ++ zeroBytes 43 ++ [1])) = false) := ⟨admin_of (by decide +kernel), adminRuns_of (by decide +kernel), by decide +kernel, by decide +kernel, by decide +kernel, by decide +kernel, by decide +kernel⟩

/-- FIFO 61 halted. -/
def haltedOne : State := base.modFifo 61 (fun f => { f with halted := true })

/-- FIFO 80 of one word, in which no packet of two fits, with its overrun bit set. -/
def tooSmall : State := ({ base with params := [(pkey pSFQ_DEPTH 80, 1), (pkey pSFQ_EXT_SIZE 80, 0)] } : State).modFifo 80 (fun f => { f with sticky := 1 })

/-- FIFO 61 with one word. -/
def oneHeld : State := base.modFifo 61 (fun f => { f with words := [endWord] })


/-- An empty, a halted and a full FIFO, one with a word; FIFO 66 with a packet released, one marked and one read; an extended body in use. -/
theorem wit_FifoCommandsAct : base.AdminRuns hA (admQ base) (adm base)
    ∧ (61 < 96 ∧ (base.fifo 61).held = [] ∧ (base.fifo 61).dropping = false ∧ fifoStalls 61 (base.fifoDepth 61) (base.fifo 61) = false ∧ fifoFull 61 (base.fifoDepth 61) (base.fifo 61) = false ∧ fifoReadable 61 (base.fifo 61) = false)
    ∧ (fifoStalls 61 (haltedOne.fifoDepth 61) (haltedOne.fifo 61) = true ∧ (haltedOne.fifo 61).halted = true ∧ (haltedOne.fifo 61).held = [] ∧ haltedOne.mag.st ≠ .drain)
    ∧ (80 ≤ 80 ∧ (tooSmall.fifo 80).held = [] ∧ (tooSmall.fifo 80).dropping = false ∧ (tooSmall.fifo 80).halted = false ∧ (tooSmall.fifo 80).atStart = true ∧ fifoFull 80 (tooSmall.fifoDepth 80) (tooSmall.fifo 80) = true ∧ (tooSmall.fifo 80).sticky % 2 = 1)
    ∧ ((oneHeld.fifo 61).held = [] ∧ (oneHeld.fifo 61).halted = false ∧ fifoReadable 61 (oneHeld.fifo 61) = true ∧ (oneHeld.fifo 61).words.drop (oneHeld.fifo 61).p = endWord :: [])
    ∧ ((kept.fifo 66).held = [] ∧ (kept.fifo 66).halted = false ∧ fifoReadable 66 (kept.fifo 66) = true ∧ (kept.fifo 66).words.drop (kept.fifo 66).p = endWord :: [])
    ∧ ((kept.fifo 66).m ≠ (kept.fifo 66).p ∧ packetWords 1 (((kept.fifo 66).words.drop (kept.fifo 66).m).take ((kept.fifo 66).p - (kept.fifo 66).m)) = some 1 ∧ (base.fifo 66).held = [] ∧ (base.fifo 66).m = (base.fifo 66).p)
    ∧ (packetWords 1 ((kept.fifo 66).words.take (kept.fifo 66).m) = some 1 ∧ packetWords 2 ((kept.fifo 66).words.take (kept.fifo 66).m) = none ∧ 64 < 65)
    ∧ (base.mag.st.alive = true ∧ base.mag.st ≠ .drain ∧ (inSt .drain).mag.st = .drain ∧ (inSt .drain).mag.st.alive = true ∧ fifoExtended 66 = true ∧ base.pni pSFQ_EXT_SIZE 66 ≠ 0)
    ∧ ((adm base).writeCheck pSFQ_RESTART 61 [1] = none ∧ ((adm base).fifo 61).halted = false ∧ (adm base).writeCheck pSFQ_STICKY 61 [15] = none) := ⟨adminRuns_of (by decide +kernel), by decide +kernel, by decide +kernel, by decide +kernel, by decide +kernel, by decide +kernel, by decide +kernel, by decide +kernel, by decide +kernel, by decide +kernel⟩

/-- An empty FIFO. -/
theorem wit_FifoWriteThenRead : (fifoExists 61 = true ∧ (base.fifo 61).words = [] ∧ (base.fifo 61).p = 0 ∧ (base.fifo 61).headRead = 0 ∧ (base.fifo 61).halted = false ∧ (base.fifo 61).dropping = false)
    ∧ ((base.fifo 61).held = [] ∧ 61 ≠ 66 ∧ fifoFull 61 (base.fifoDepth 61) (base.fifo 61) = false) := ⟨by decide +kernel, by decide +kernel⟩

/-- A write that answers a next state. -/
theorem wit_FramesOfFifoCommands : (∃ t, exec (.fifoWrite 0 1 true 0) base = .next t) := ⟨_, rfl⟩

/-- An empty FIFO. -/
theorem wit_NotReadableReadChangesNothing : (fifoExists 0 = true ∧ (base.fifo 0).held = [] ∧ fifoReadable 0 (base.fifo 0) = false) := by decide +kernel

/-- One packet released, one marked, one read; the mark at the read pointer; release of more than there are. -/
theorem wit_RetentionOperationsActAsTheTableSays : ((kept.fifo 66).held = [] ∧ (kept.fifo 66).m ≤ 1 ∧ 1 < (kept.fifo 66).p ∧ (kept.fifo 66).p ≤ (kept.fifo 66).words.length)
    ∧ (((kept.fifo 66).words[1]?).map (fun w => w.last) = some true)
    ∧ (0 < (kept.fifo 66).m ∧ (kept.fifo 66).words[0]? = some endWord ∧ endWord.last = true ∧ ((kept.fifo 66).words.take (0 + 1)).countP (fun x => x.last) = 1)
    ∧ ((base.fifo 66).held = [] ∧ (base.fifo 66).m = (base.fifo 66).p)
    ∧ (((kept.fifo 66).words.take (kept.fifo 66).m).countP (fun x => x.last) < 2) := ⟨by decide +kernel, by decide +kernel, by decide +kernel, by decide +kernel, by decide +kernel⟩

/-- The last row of the last SDS, and the last channel of the last slot. -/
theorem wit_RowsArePlacedByABijection : (31 < 32 ∧ 127 < 128 ∧ 511 < 512 ∧ 7 < 8) := by decide +kernel

/-- A record of an open zone, its data complete, not compressed. -/
def oneRec : PackRec :=
  { zone := 0, start := 0, count := 1, take := 1, keyId := 1, ctx := 0, flags := 0, timecode := zeroBytes 8, recMax := 64, mode := 0, block := 64, engine := 0
    geom := [], t0 := 0, data := zeroBytes 64, closed := some 0, at_ := 0, arrived := some 0, carried := none, coded := [], crc := 0, sector0 := 0, body := [], done := false }

/-- The packer with one record. -/
def packing (r : PackRec) : State := base.modSp (fun p => { p with recs := [r] })

/-- A record that is wholly coded. -/
def coded : PackRec := { oneRec with at_ := 64, coded := zeroBytes 32 }

/-- The packer with one record whose media key stands in slot 0. -/
def keyed (r : PackRec) : State := (packing r).modKeys (fun k => { k with slots := [(0, { key := zeroBytes 64, id := r.keyId, used := 0 })] })

/-- A key record with its ceiling near, and the next ceiling being written. -/
def ceilings (busy : Option Nat) : State := base.modKeys (fun k =>
  { k with
    ceiling := some 70000
    iv := 70000 - 65536
    ceilingBusy := busy
    krec := some { inst := 1, gen := 0, cur := [], prev := [], owner := [], escrow := [], ceiling := 70000, fails := 0, lockLen := 0, seq := 0 } })


/-- An open record; a record in mode 0 with a block; the IV counter at the limit of a refresh; a write of a new ceiling going on; records whose turn it is, with their media key in a slot, with nothing and with a sector encrypted, and one whose media key is in none. -/
theorem wit_PackerCommandsAct : (∃ r : PackRec, (packing oneRec).sp.recs.find? (fun r => r.engine = 0 && decide (0 < r.nextBlock)) = some r ∧ (r.mode == 0) = true)
    ∧ (((packing { oneRec with closed := none }).openRec? 0).isSome = true)
    ∧ ((packing oneRec).engineFree 0 = true)
    ∧ ((ceilings none).keys.ceiling = some 70000 ∧ 70000 ≤ (ceilings none).keys.iv + 2 ^ 16 ∧ (ceilings none).keys.ceilingBusy = none ∧ (ceilings none).keys.ivDead = false)
    ∧ ((ceilings (some 90000)).keys.ceilingBusy = some 90000 ∧ (ceilings (some 90000)).keys.krec.isSome = true ∧ (ceilings (some 90000)).nor.ops.any (fun o => o.area = 1) = false ∧ (ceilings (some 90000)).mag.st.alive = true)
    ∧ ((packing coded).backedUp = false ∧ (packing coded).xtsNext = some coded ∧ ((packing coded).keySlotLoad coded.keyId).xtsKey coded.keyId = none)
    ∧ ((keyed coded).backedUp = false ∧ (keyed coded).xtsNext = some coded ∧ (((keyed coded).keySlotLoad coded.keyId).xtsKey coded.keyId).isSome = true ∧ coded.body = [])
    ∧ ((keyed { coded with body := zeroBytes 16 }).xtsNext = some { coded with body := zeroBytes 16 } ∧ (((keyed { coded with body := zeroBytes 16 }).keySlotLoad coded.keyId).xtsKey coded.keyId).isSome = true) := ⟨some_of (o := (packing oneRec).sp.recs.find? (fun r => r.engine = 0 && decide (0 < r.nextBlock))) (p := fun (r : PackRec) => r.mode == 0) (by decide +kernel), by decide +kernel, by decide +kernel, by decide +kernel, by decide +kernel, by decide +kernel, by decide +kernel, by decide +kernel⟩

/-- An instance with a scratch window 0 of four pages, an argument window 1, a result window 2 and a take window 3. -/
def oneKern : Kern :=
  { image := zeroBytes 512, rom := none, entry := 0x10100, sp := 0x20000, region := 8192, base := 2 ^ 33, slots := [], frozen := false, count := 0
    wins := [⟨1, 3, 4⟩, ⟨2, 1, 0⟩, ⟨3, 3, 0⟩, ⟨4, 1, 0⟩, ⟨0, 0, 0⟩, ⟨0, 0, 0⟩, ⟨0, 0, 0⟩, ⟨0, 0, 0⟩] }

/-- An argument block that binds window 3 to the first take LBA. -/
def oneBlock : Bytes := leBytes 4 0x4B494E56 ++ leBytes 2 1 ++ zeroBytes 10 ++ zeroBytes 48 ++ (leBytes 8 0 ++ leBytes 4 1 ++ leBytes 4 1) ++ zeroBytes 176

/-- An invocation of instance 0. -/
def oneInvoc : Invoc := { seq := 5, inst := 0, cls := 1, block := zeroBytes 256, wb := false, binds := [⟨3, 0, 1, 1⟩], base := 2 ^ 33 + 2 ^ 20 }

/-- Instance 0 loaded. -/
def loaded : State := ({ base with params := [(pkey pCCL_CORES 0, 1)] } : State).modComp (fun p => { p with kerns := [(0, oneKern)] })

/-- Its invocation queued. -/
def queued : State := loaded.modComp (fun p => { p with queue := [oneInvoc] })

/-- Its invocation running on core 0 with rings of 16 entries in window 0. -/
def ran : State := loaded.modComp (fun p =>
  { p with cores := [(0, { Core.zero with powered := true, run := some oneInvoc, sqb := 2 ^ 40, sqsz := 16, cqb := 2 ^ 40 + 4096, cqsz := 16 })] })

/-- The same with a descriptor that has its outcome. -/
def dmaDone : State := ran.modComp (fun p =>
  { p with cores := p.cores.map (fun (e : Nat × Core) => (e.1, { e.2 with dma := [{ op := 1, win := 3, count := 1, off := 0, addr := 2 ^ 40 + 8192, len := 0, tag := 9, words := [], app := 0, res := some (0, 0, 1, []) }] })) })


/-- The instance that a load of ROM kernel 3 makes. -/
def romKern : Kern :=
  { image := romImage 3, rom := some 3, wins := imageWins (romImage 3), entry := 0x10000 + leAt (romImage 3) 0x1C 4, sp := 0x10000 + imageRegion (romImage 3)
    region := imageRegion (romImage 3), base := 0, slots := [], frozen := false, count := 0 }


/-- An instance, loaded, frozen and absent; a block whose bindings fit. -/
theorem wit_KernelCommandsComplete : loaded.AdminRuns hA (admQ loaded) (adm loaded)
    ∧ loaded.IoRuns hI (ioQ loaded) (io loaded)
    ∧ base.IoRuns hI (ioQ base) (io base)
    ∧ (loaded.modComp (fun p => { p with kerns := [(0, { oneKern with frozen := true })] })).IoRuns hI (ioQ (loaded.modComp (fun p => { p with kerns := [(0, { oneKern with frozen := true })] }))) (io (loaded.modComp (fun p => { p with kerns := [(0, { oneKern with frozen := true })] })))
    ∧ (((adm loaded).imageCheck (fitBytes (4 * (0 + 1)) [])).isSome = true ∧ romKern.slots = (adm loaded).freeKernSlots.take 0)
    ∧ ((List.range 256).find? (fun i => (NMap.find? (adm loaded).comp.kerns i).isNone) = some 1 ∧ ((adm loaded).compAlloc romKern.bytes).isSome = true ∧ (adm loaded).comp.kerns.length < (adm loaded).pn pCCL_INST_MAX ∧ 0 ≤ (adm loaded).freeKernSlots.length)
    ∧ (3 ≤ 3 ∧ NMap.find? (adm loaded).comp.kerns 0 = some oneKern ∧ NMap.find? (io loaded).comp.kerns (65536 % 65536) = some oneKern ∧ oneKern.frozen = false)
    ∧ (256 ≤ oneBlock.length ∧ oneBlock.length ≤ 2097152 ∧ oneBlock.length % 4 = 0)
    ∧ (NMap.find? (io base).comp.kerns (0 % 65536) = none)
    ∧ (NMap.find? (io (loaded.modComp (fun p => { p with kerns := [(0, { oneKern with frozen := true })] }))).comp.kerns (0 % 65536) = some { oneKern with frozen := true })
    ∧ (((io loaded).bindings oneKern oneBlock).isSome = true ∧ (io loaded).keys.session = true ∧ (io loaded).car.readOnly = false ∧ (io loaded).pn pCCL_CORES ≠ 0)
    ∧ (((io loaded).compAlloc (2 * pageRound oneBlock.length)).isSome = true) := ⟨adminRuns_of (by decide +kernel), ioRuns_of (by decide +kernel), ioRuns_of (by decide +kernel), ioRuns_of (by decide +kernel), by decide +kernel, by decide +kernel, by decide +kernel, by decide +kernel, by decide +kernel, by decide +kernel, by decide +kernel, by decide +kernel⟩

/-- A queued invocation with a free core; a running one, with room for its result and without; an idle powered core. -/
theorem wit_InvocationsRun : (queued.mag.st.alive = true ∧ queued.mag.st ≠ .drain ∧ queued.pw.thermal = 0 ∧ queued.flows 76 = true ∧ queued.nextInvoc = some oneInvoc ∧ queued.nextCore = some 0 ∧ NMap.find? queued.comp.kerns oneInvoc.inst = some oneKern)
    ∧ (ran.executing 0 = some (oneInvoc, oneKern) ∧ (ran.core 0).exiting = none)
    ∧ (256 ≤ (if (oneKern.winOf 3).isSome then oneInvoc.block.length else 0))
    ∧ ((ran.core 0).dma = [] ∧ (ran.core 0).sqh = (ran.core 0).sqt ∧ oneInvoc.wb = false ∧ dmaDone.executing 0 = some (oneInvoc, oneKern) ∧ (dmaDone.core 0).exiting = none ∧ (dmaDone.core 0).dma ≠ [])
    ∧ ((if (oneKern.winOf 3).isSome then oneInvoc.block.length else 0) < 257)
    ∧ (violates oneKern oneInvoc 1 0 = true ∧ violates oneKern oneInvoc 2 (2 ^ 40) = false ∧ oneKern.frozen = false ∧ ran.runCore oneInvoc.inst = some 0)
    ∧ (((loaded.modCore 1 (fun _ => { Core.zero with powered := true })).core 1).powered = true ∧ ((loaded.modCore 1 (fun _ => { Core.zero with powered := true })).core 1).run = none ∧ ((loaded.modCore 1 (fun _ => { Core.zero with powered := true })).core 1).frozen = none) := ⟨by decide +kernel, by decide +kernel, by decide +kernel, by decide +kernel, by decide +kernel, by decide +kernel, by decide +kernel⟩

/-- The same core with FIFO 77 halted. -/
def haltedDma : State := ran.modFifo 77 (fun f => { f with halted := true })


/-- Legal and illegal rings, a tail at the size of the ring, a descriptor with its outcome, a free and a held lock. -/
theorem wit_ComputeDmaActs : (∃ d r, (dmaDone.core 0).dma = [d] ∧ dmaDone.dmaOutcome 0 oneInvoc oneKern d = (some r, dmaDone))
    ∧ (ran.executing 0 = some (oneInvoc, oneKern) ∧ (ran.core 0).exiting = none)
    ∧ (ringOk oneKern oneInvoc (2 ^ 40 + 1) 16 64 = false ∧ 16 ≤ 16)
    ∧ (ringOk oneKern oneInvoc (2 ^ 40) 16 64 = true ∧ 15 < 16 ∧ ringOk oneKern oneInvoc (2 ^ 40 + 4096) 16 32 = true)
    ∧ ((ran.executing 0).isSome = true ∧ 15 < (ran.core 0).cqsz)
    ∧ (dmaDone.running 0 = some (oneInvoc, oneKern) ∧ (dmaDone.core 0).cqsz ≠ 0 ∧ (dmaDone.core 0).cqFull = false ∧ dmaDone.flows 78 = true ∧ (dmaDone.core 0).exiting = none)
    ∧ ((oneKern.inWindow (some oneInvoc) ((dmaDone.core 0).cqb + 32 * (dmaDone.core 0).cqt) 32 2).isSome = true)
    ∧ (ran.keys.lock = 0 ∧ (ran.modKeys (fun k => { k with lock := instId 0 })).keys.lock = instId oneInvoc.inst ∧ ran.keys.msg = none ∧ ran.keys.suspended = none ∧ ran.keys.queue = [])
    ∧ ((ran.modKeys (fun k => { k with queue := [{ req := instId 0, w0 := 0, w1 := 0, w2 := 0, w3 := 0, data := [] }] })).keys.queue.any (fun m => m.req = instId oneInvoc.inst && !m.urgent) = true ∧ (ran.core 0).sqh = (ran.core 0).sqt ∧ 0 < 16 ∧ (haltedDma.flows 77) = false ∧ haltedDma.executing 0 = some (oneInvoc, oneKern)) := ⟨⟨_, _, rfl, rfl⟩, by decide +kernel, by decide +kernel, by decide +kernel, by decide +kernel, by decide +kernel, by decide +kernel, by decide +kernel, by decide +kernel⟩

/-- Way 3 holds a line of the region, the other ways nothing. -/
def cached : State := base.modCache (fun c => { c with sets := [(lineSet (2 ^ 27), { lines := [(3, { tag := lineTag (2 ^ 27), dirty := false, data := zeroBytes 64 })], order := 0 })] })

/-- A read of that line. -/
def oneReq : CReq := { q := 0, wr := false, addr := 2 ^ 33, data := [], err := 0 }

/-- No way is allowed to requester 0. -/
def noWays : State := base.modCache (fun c => { c with ways := 0 })


/-- A cache that is on or off, with these ways effective. -/
def cacheIn (on ways : Nat) : State := ({ base with params := if on = base.presetElem pCCA_ENABLE 0 then [] else [(pkey pCCA_ENABLE 0, on)] } : State).modCache (fun c => { c with ways })

/-- The queue of a bank after a request has come and gone. -/
def asked (s : State) (r : CReq) : State := (s.setQueue (lineBank r.line) [r]).setQueue (lineBank r.line) []

/-- A fill of that line that nothing waits for. -/
def filling : State := base.modCache (fun c => { c with ways := 0xFFFF, miss := [(lineBank (2 ^ 27), { line := 2 ^ 27, q := 0, pf := false, wait := [] })] })


/-- A line of the region that is held and one that is not; a fill; every way wanted and the two least; the cache on and off; a range operation and a clean with nothing outstanding; a host write that passes and one that does not; a way that fails with nine errors in the second. -/
theorem wit_CacheCommandsAct : base.AdminRuns hA (admQ base) (adm base)
    ∧ (cached.mag.st.alive = true ∧ cached.cache.clean = none ∧ cached.inRegion (2 ^ 33 / 64) = true ∧ cached.bankQueue (lineBank (2 ^ 33 / 64)) = [] ∧ (asked cached oneReq).lookup oneReq.line = .way 3 ∧ (NMap.find? ((asked cached oneReq).cset oneReq.line).lines 3).isSome = true)
    ∧ (base.cache.clean = none ∧ base.inRegion (2 ^ 33 / 64) = true ∧ base.bankQueue (lineBank (2 ^ 33 / 64)) = [] ∧ (asked base oneReq).lookup oneReq.line = .absent ∧ (asked base oneReq).missOf (lineBank oneReq.line) = none)
    ∧ ((filling.missOf (lineBank (2 ^ 27))).isSome = true ∧ (((filling.modCache (fun c => { c with miss := NMap.del c.miss (lineBank (2 ^ 27)) })).allocate 0 (2 ^ 27) { tag := lineTag (2 ^ 27), dirty := false, data := filling.bufLine (2 ^ 27) } true).elim false (fun u => u.bankQueue (lineBank (2 ^ 27)) = [])) = true)
    ∧ ((cacheIn 1 0xFFFF).cache.clean = none ∧ (cacheIn 1 0xFFFF).cache.range = none ∧ (cacheIn 1 0xFFFF).pn pCCA_ENABLE = 1 ∧ (cacheIn 0 0).pn pCCA_ENABLE = 0 ∧ 0xFFFF < 65536 ∧ 2 ≤ popCount 16 0xC000)
    ∧ (((cacheIn 1 0xFFFF).setElem pCCA_WAY_EN 0 0xFFFF).pn pCCA_ENABLE = 1 ∧ (wayList ((cacheIn 1 0xFFFF).setElem pCCA_WAY_EN 0 0xFFFF).cache.ways).filter (fun w => !(((cacheIn 1 0xFFFF).setElem pCCA_WAY_EN 0 0xFFFF).wantWays 0xFFFF).contains w) = [])
    ∧ ((wayList ((cacheIn 1 0xFFFF).setElem pCCA_WAY_EN 0 0xC000).cache.ways).filter (fun w => !(((cacheIn 1 0xFFFF).setElem pCCA_WAY_EN 0 0xC000).wantWays 0xC000).contains w) ≠ [])
    ∧ ((wayList ((cacheIn 0 0).setElem pCCA_ENABLE 0 1).cache.ways).filter (fun w => !(((cacheIn 0 0).setElem pCCA_ENABLE 0 1).wantWays (((cacheIn 0 0).setElem pCCA_ENABLE 0 1).pn pCCA_WAY_EN)).contains w) = [])
    ∧ ((adm base).cache.clean = none ∧ (adm base).cache.range = none ∧ ((adm base).writeCheck pCCA_ENABLE 0 [2]).isSome = true)
    ∧ (base.cache.miss = [] ∧ base.cache.due = [] ∧ base.cache.wait = [] ∧ (base.modCache (fun c => { c with range := some (2, 2 ^ 27, 64) })).cache.range = some (2, 2 ^ 27, 64) ∧ (base.modCache (fun c => { c with clean := some ([15], true) })).cache.clean = some ([15], true))
    ∧ ((adm base).writeCheck pCCA_RNG_OP 0 [1] = none ∧ (adm base).writeCheck pCCA_RNG_OP 0 [2] = none ∧ ((adm base).writeCheck pCCA_WAY_EN 0 [1]).isSome = true)
    ∧ (Nat.testBit base.cache.fail 15 = false)
    ∧ ((base.modCache (fun c => { c with ceAt := base.rtcSec, ceSec := [(15, 9)] })).cache.ceAt = (base.modCache (fun c => { c with ceAt := base.rtcSec, ceSec := [(15, 9)] })).rtcSec ∧ 9 ≤ NMap.get 0 (base.modCache (fun c => { c with ceAt := base.rtcSec, ceSec := [(15, 9)] })).cache.ceSec 15) := ⟨adminRuns_of (by decide +kernel), by decide +kernel, by decide +kernel, by decide +kernel, by decide +kernel, by decide +kernel, by decide +kernel, by decide +kernel, by decide +kernel, by decide +kernel, by decide +kernel, by decide +kernel, by decide +kernel⟩

/-- A free way, no free way, no allowed way, a hit. -/
theorem wit_AllocationTakesTheRuledWay : (0 ∈ base.allowedWays 0 ∧ NMap.find? (cached.cset (2 ^ 27)).lines 0 = none)
    ∧ ([0, 1].any (fun v => decide (v ∈ (base.modCache (fun c => { c with ways := 3 })).allowedWays 0) && ((base.modCache (fun c => { c with ways := 3 })).allowedWays 0).all (fun u => u = v || newerWay 0 u v)) = true)
    ∧ ((noWays.bumpPv pCCA_MISSES oneReq.q 1).allowedWays oneReq.q = [] ∧ oneReq.wr = false ∧ ({ oneReq with wr := true } : CReq).wr = true)
    ∧ (cached.lookup oneReq.line = .way 3 ∧ (NMap.find? (cached.cset oneReq.line).lines 3).isSome = true) := ⟨by decide +kernel, by decide +kernel, by decide +kernel, by decide +kernel⟩

/-- A pool message of Ringmaster. -/
def oneMsg (w0 : Nat) : PoolMsg := { req := 1, w0, w1 := 0, w2 := 0, w3 := 0, data := [] }

/-- The pool working on a message. -/
def pooled (m : PoolMsg) : State := base.modKeys (fun k => { k with msg := some m })

/-- The lock held by an instance whose message does not run. -/
def locked : State := (pooled (oneMsg 0)).modKeys (fun k => { k with lock := 0x100 })


/-- Instance 0 with key slot 287, which holds a key, and with the lock. -/
def lockedKern : State := (loaded.modComp (fun p => { p with kerns := [(0, { oneKern with slots := [287] })] })).modKeys (fun k =>
  { k with lock := 0x100, slots := [(287, { key := zeroBytes 32, id := 0, used := 0 })] })

/-- Its normal message for a CMAC of one byte, and one of Ringmaster that generates a key into slot 287. -/
def kernMsg : PoolMsg := { req := 0x100, w0 := 2 ^ 32 + 7 + 1024 * 287, w1 := 0, w2 := 0, w3 := 0, data := [1] }

/-- That message. -/
def genMsg : PoolMsg := { req := 3, w0 := 2 ^ 32 + 11, w1 := 0, w2 := 287, w3 := 0, data := [] }


/-- An idle pool, one with a normal and one with an urgent message; a kernel with the lock and as urgent requester; messages that are valid and not, without and with an IV to draw; a held lock. -/
theorem wit_ServicePoolActs : (base.mag.st.alive = true ∧ base.flows 74 = true ∧ base.flows 75 = true ∧ base.flows 63 = true ∧ base.keys.lock = 0 ∧ base.keys.msg = none ∧ base.keys.suspended = none)
    ∧ (3 < 4 ∧ (base.modKeys (fun k => { k with lock := 3, lockRelease := true })).poolValid genMsg = true ∧ (base.modKeys (fun k => { k with lock := 3, lockRelease := true })).poolValid { genMsg with w0 := 0 } = false)
    ∧ (((pooled (oneMsg 256)).modKeys (fun k => { k with lock := 3, lockRelease := true })).poolValid genMsg = true ∧ (pooled (oneMsg 256)).keys.lock = 0)
    ∧ ((NMap.find? lockedKern.comp.kerns (0x100 - 0x100)).elim false (fun k => k.slots.contains kernMsg.slot) = true ∧ poolReserved kernMsg.op = false ∧ lockedKern.keys.lock = 0x100 ∧ kernMsg.urgent = false ∧ lockedKern.poolValid kernMsg = true ∧ lockedKern.keys.msg = none ∧ lockedKern.poolValid { kernMsg with w0 := 7 + 1024 * 287 } = false)
    ∧ (base.poolValid (oneMsg 256) = false ∧ base.poolValid { genMsg with w0 := if Nat.testBit (2 ^ 32 + 11) 8 then 2 ^ 32 + 11 else 2 ^ 32 + 11 + 256 } = true)
    ∧ ((pooled (oneMsg 256)).keys.msg = some (oneMsg 256) ∧ (oneMsg 256).urgent = true ∧ (pooled (oneMsg 256)).poolValid { genMsg with w0 := 2 ^ 32 + 11 + 256 } = true)
    ∧ ((pooled (oneMsg 7)).keys.msg = some (oneMsg 7) ∧ (oneMsg 7).urgent = false ∧ (oneMsg 7).cont = false ∧ (oneMsg 7).op = 7 ∧ (oneMsg 1).op = 1 ∧ (pooled (oneMsg 7)).poolValid { genMsg with w0 := 2 ^ 32 + 11 + 256 } = true)
    ∧ (((pooled (oneMsg 5)).modKeys (fun k => { k with ivDead := true })).keys.msg = some (oneMsg 5) ∧ poolDraws (oneMsg 5) = true ∧ ((pooled (oneMsg 5)).modKeys (fun k => { k with ivDead := true })).takeIv = none ∧ ((pooled (oneMsg 5)).modKeys (fun k => { k with ivDead := true })).keys.ivDead = true)
    ∧ (locked.mag.st.alive = true ∧ locked.keys.suspended = none ∧ 0x100 ≤ locked.keys.lock ∧ locked.keys.msg = some (oneMsg 0) ∧ (oneMsg 0).req ≠ locked.keys.lock) := ⟨by decide +kernel, by decide +kernel, by decide +kernel, by decide +kernel, by decide +kernel, by decide +kernel, by decide +kernel, by decide +kernel, by decide +kernel⟩

/-- Edges at the limits of pulse and period; a feed-forward without a source; FSYNC valid. -/
theorem wit_FrameSyncActs : (base.mag.st.alive = true ∧ 1999 < 2000 ∧ 2000 ≤ 2000 ∧ (999 < 1000 ∨ 1000000 < 999) ∧ 1000 ≤ 1000 ∧ 1000000 ≤ 1000000)
    ∧ ((base.sp.ffRun || decide (base.pn pTFM_FF_FRAMES ≤ (((base.sp.latch, 1000000) :: base.sp.ffHist).take 15).length)) = false ∧ 15 ≤ ((base.modSp (fun p => { p with ffHist := List.replicate 15 (0, 40000) })).sp.ffHist).length)
    ∧ (((base.modSp (fun p => { p with ffHist := List.replicate 15 (0, 40000) })).sp.ffRun || decide ((base.modSp (fun p => { p with ffHist := List.replicate 15 (0, 40000) })).pn pTFM_FF_FRAMES ≤ (((0, 40000) :: List.replicate 15 (0, 40000)).take 15).length)) = true ∧ base.sp.ffRun = false ∧ base.sp.fsyncOk = false)
    ∧ ((base.modSp (fun p => { p with fsyncOk := true })).mag.st.alive = true ∧ (base.modSp (fun p => { p with fsyncOk := true })).sp.fsyncOk = true) := ⟨by decide +kernel, by decide +kernel, by decide +kernel, by decide +kernel⟩

/-- The tape moves in a magazine state. -/
def movingIn (st : MagState) : State := (inSt st).modCtl (fun c => { c with tsub := .moving })

/-- Recording data on wrap 0. -/
def spooling : State := movingIn .spooling

/-- A copy of data set 0 started, every row good, cut short by a stop or not. -/
def oneCopy (cut : Bool) : Started :=
  { copy := { kind := .data, seq := 0, m := 0 }, wrap := 0, pos := 0, rewrite := false, fresh := true, cut, zone := 0, good := (List.range 512).map (fun c => (c, 255)), c1Fail := []
    heads := [], result := none }

/-- That copy is the oldest whose result is outstanding. -/
def verifying (cut : Bool) : State := base.modSp (fun p => { p with started := [oneCopy cut] })

/-- A group of one data set, verified, persisted, with its three packets in FIFO 66. -/
def groupReady : State :=
  (base.modSp (fun p =>
    { p with
      ready := [0]
      groups := [(0, 1)]
      images := [(0, { bytes := [], group := some 0, persisted := true, committed := false, logOff := 0, lbas := [] })] })).modFifo 66 (fun f =>
    { f with words := [endWord, endWord, endWord], m := 3, p := 3 })

/-- The wrap has ended and nothing is outstanding. -/
def turning (wrap : Nat) (full due : Bool) : State :=
  (spooling.modSp (fun p => { p with wrapEnd := true, wrap, full, genDue := due })).modKeys (fun k =>
    { k with
      macCur := some 0
      ceiling := some 10
      krec := some { inst := 1, gen := 0, cur := [], prev := [], owner := [], escrow := [], ceiling := 10, fails := 0, lockLen := 0, seq := 0 }
      slots := [(257, { key := zeroBytes 32, id := 0, used := 0 }), (259, { key := zeroBytes 32, id := 0, used := 0 })] })

/-- A tail scan on its way. -/
def scanning (full : Bool) : State :=
  (spooling.modSp (fun p => { p with tailScan := true, full })).modCtl (fun c => { c with aim := some (.position 0 0) })


/-- SPOOLING at a high backlog: one copy waits in FIFO 66. -/
def copyWaits (s : State) : State := s.modFifo 66 (fun f => { f with words := (⟨.data, 0, 0⟩ : Copy).packet })

/-- CRAWL with its limit running. -/
def crawling : State := (inSt .crawl).modSp (fun p => { p with crawl := some 5 })

/-- What passes of a data set boundary before a copy begins. -/
def atEdge (s : State) : State := ((s.applyPend (fun p i => (groupOf p i).1 = pTFM_CRAWL_ENTRY)).zoneSelect).modCtl (fun c => { c with target := 0 })

/-- A generation of one index DS is being recorded. -/
def generating : State := spooling.modSp (fun p => { p with gen := some { num := 1, wrap := 0, ds := [[]], at_ := 0, pos := 7999 } })

/-- A read pass over index wrap 0 that continues on the next wrap. -/
def indexTurn : State := (spooling.modRc (fun r => { r with pass := some { kind := 2, group := 0, last := 7999, running := true } })).modCtl (fun c => { c with turn := true })


/-- SPOOLING with a copy that waits and with none, CRAWL; a boundary with and without a copy and while recording an index; a copy with an outstanding result; a group to commit; wraps of each kind at their end; a continuing pass; a tail scan. -/
theorem wit_SpoolingCommandsAct : ((copyWaits (inSt .spooling)).mag.st = .spooling ∧ (copyWaits (inSt .spooling)).queueEmpty = false)
    ∧ ((inSt .spooling).mag.st = .spooling ∧ (inSt .spooling).queueEmpty = true ∧ (inSt .spooling).backlog < 2 ^ 20 * (inSt .spooling).pn pTFM_CRAWL_ENTRY ∧ (inSt .spooling).pn pTFM_CRAWL_LIMIT ≠ 0)
    ∧ (crawling.mag.st = .crawl ∧ crawling.backlog ≤ 2 ^ 20 * crawling.pn pTFM_CRAWL_EXIT ∧ crawling.sp.crawl ≠ some 0 ∧ crawling.sp.crawl.isSome = true ∧ (copyWaits crawling).queueEmpty = false)
    ∧ (crawling.queueEmpty = true ∧ crawling.ctl.after = none ∧ crawling.sp.closing = false ∧ crawling.sp.gen = none ∧ (crawling.modSp (fun p => { p with crawl := some 0 })).closeDue = false)
    ∧ (spooling.recording = true ∧ spooling.ctl.tsub ≠ .dwell ∧ spooling.sp.started = [] ∧ (atEdge spooling).mag.st ≠ .crawl ∧ (atEdge spooling).ctl.tsub ≠ .stopping ∧ (atEdge spooling).sp.skip = 0 ∧ (atEdge spooling).sp.gen = none ∧ (atEdge spooling).sp.wrapEnd = false ∧ (atEdge spooling).sp.pos < wrapPositions ∧ (atEdge spooling).noRoom = false ∧ (atEdge spooling).queued = [])
    ∧ ((copyWaits spooling).recording = true ∧ (atEdge (copyWaits spooling)).noRoom = false ∧ (atEdge (copyWaits spooling)).queued = ⟨.data, 0, 0⟩ :: [] ∧ (atEdge (copyWaits spooling)).skipDue ⟨.data, 0, 0⟩ = false ∧ (atEdge (copyWaits spooling)).writeFlows = true)
    ∧ (generating.recording = true ∧ generating.ctl.tsub ≠ .dwell ∧ generating.sp.started = [] ∧ (atEdge generating).mag.st ≠ .crawl ∧ (atEdge generating).ctl.tsub ≠ .stopping ∧ (atEdge generating).sp.skip = 0)
    ∧ ((atEdge generating).sp.gen = some { num := 1, wrap := 0, ds := [[]], at_ := 0, pos := 7999 } ∧ (atEdge generating).nextIndex { num := 1, wrap := 0, ds := [[]], at_ := 0, pos := 7999 } < 1 ∧ 7999 < 8000 ∧ (atEdge generating).skipDue ⟨.index, 0, 0⟩ = false ∧ (atEdge generating).writeFlows = true)
    ∧ ((verifying false).sp.started.find? (fun x => x.result.isNone) = some (oneCopy false) ∧ ((verifying false).retireCheck (oneCopy false)).copyPasses (oneCopy false) = true ∧ (verifying false).noBoundary = true ∧ spooling.noBoundary = false)
    ∧ ((verifying true).sp.started.find? (fun x => x.result.isNone) = some (oneCopy true) ∧ ((verifying true).retireCheck (oneCopy true)).copyPasses (oneCopy true) = false)
    ∧ (groupReady.sp.ready = 0 :: [] ∧ NMap.get 0 groupReady.sp.groups 0 = 1 ∧ 1 + 2 ≤ 64 ∧ packetWords (1 + 2) ((groupReady.fifo 66).words.take (groupReady.fifo 66).m) = some 3 ∧ (groupReady.fifo 66).held = [] ∧ ((List.range 1).map (· + 0)).all (fun q => (NMap.find? groupReady.sp.images q).elim false (fun v => v.persisted)) = true)
    ∧ ([turning 0 false false, turning 1 false true, turning 0 true false].all (fun s => s.recording && s.sp.gen.isNone && s.sp.wrapEnd && s.sp.started.isEmpty && s.ctl.after.isNone && !s.ctl.turn && s.ctl.vlim == 0 && s.ctl.alim == 0) = true)
    ∧ ((((turning 0 true false).calUpdate (fun _ => true)).nextWrap).sp.full = true ∧ (((turning 0 false false).calUpdate (fun _ => true)).nextWrap).sp.full = false ∧ (turning 0 false false).sp.wrap % 2 = 0)
    ∧ ((((turning 1 false true).calUpdate (fun _ => true)).nextWrap).sp.full = false ∧ (turning 1 false true).sp.wrap % 2 = 1 ∧ (((turning 1 false true).calUpdate (fun _ => true)).nextWrap).sp.genDue = true ∧ (((turning 1 false true).calUpdate (fun _ => true)).nextWrap).buildGen.isSome = true)
    ∧ (indexTurn.ctl.turn = true ∧ indexTurn.ctl.tsub = .moving ∧ indexTurn.ctl.vlim = 0 ∧ indexTurn.ctl.alim = 0 ∧ indexTurn.rc.pass = some { kind := 2, group := 0, last := 7999, running := true })
    ∧ ((scanning false).sp.tailScan = true ∧ (scanning false).ctl.aim.isSome = true ∧ (scanning false).moves = true ∧ (scanning false).ctl.after = none ∧ max ((some 7).getD 0) 9 + 34 ≤ wrapPositions ∧ (scanning false).sp.full = false) := ⟨by decide +kernel, by decide +kernel, by decide +kernel, by decide +kernel, by decide +kernel, by decide +kernel, by decide +kernel, by decide +kernel, by decide +kernel, by decide +kernel, by decide +kernel, by decide +kernel, by decide +kernel, by decide +kernel, by decide +kernel, by decide +kernel⟩

/-- Rows of wrap 0 are decoded while it is recorded, and group 0 is awake. -/
def framing : State := (spooling.modRc (fun r => { r with awake := [0] })).modCtl (fun c => { c with dir := 1 })

/-- Lane 0 in a given state; hearing no samples leaves it so. -/
def laneAs (f : Lane → Lane) : State := framing.modLane 0 f

/-- A separator of the least length, and what follows it. -/
def sepBits : List Bool := (List.replicate (framing.pn pTRC_SEP_MIN) [true, false, false, false, false, false]).flatten ++ [true, false, false, false, true]

/-- Lane 0 inside a data set after `n` further bits 0, the window of slot `next` due. -/
def inDs (next n : Nat) : State := laneAs (fun l => { l with inDs := true, locked := true, next, bits := List.replicate n false })

/-- Lane 0 inside a data set with the sync pattern where it is expected and the row kept, of which `n` bits are there. -/
def kept0 (next n : Nat) : State := laneAs (fun l =>
  { l with inDs := true, locked := true, next, bits := List.replicate 120 false ++ patSync ++ List.replicate n false, cands := if next = 0 then [] else [(0, 0), (1, 1)]
           expects := if next = 0 then [] else List.replicate next 600, tag := some 0 })

/-- Lane 0 with a span that has ended. -/
def spanned (first last : Nat) (inside : Bool) : State := laneAs (fun l =>
  { l with inDs := inside, next := if inside then 1 else 0, cands := if inside then [(0, 0)] else [], par := { l.par with ext := 1, rowMax := 600 }
           sig := { l.sig with done := [⟨1, first, last, 0, false⟩] } })


/-- A sleeping group while no lane and while one is inside a data set; a lane that hears a separator of the least length; windows with and without a candidate and of a late lane; 257 unlocked bits, and too many missed sync patterns; spans within a row, across it and outside a data set; retired and faulty lanes. -/
theorem wit_ReadChannelCommandsAct : (framing.decoding = true ∧ framing.rc.awake.contains 1 = false ∧ framing.rc.lanes.all (fun e => !e.2.inDs) = true)
    ∧ ((inDs 7 0).decoding = true ∧ (inDs 7 0).rc.awake.contains 1 = false ∧ (List.find? (fun (e : Nat × Lane) => e.2.inDs && (inDs 7 0).rc.awake.contains (e.1 / 32)) (inDs 7 0).rc.lanes).isSome = true)
    ∧ ((laneAs (fun l => { l with bits := sepBits })).laneOn 0 = true ∧ ((((laneAs (fun l => { l with bits := sepBits }))).hear 0 []).lane 0).inDs = false ∧ separatorEnd (((((laneAs (fun l => { l with bits := sepBits }))).hear 0 []).lane 0).sepMin.getD ((((laneAs (fun l => { l with bits := sepBits }))).hear 0 []).pn pTRC_SEP_MIN)) ((((laneAs (fun l => { l with bits := sepBits }))).hear 0 []).lane 0).bits = some (6 * framing.pn pTRC_SEP_MIN))
    ∧ ((inDs 7 58400).laneOn 0 = true ∧ (((inDs 7 58400).hear 0 []).lane 0).inDs = true ∧ (((inDs 7 58400).hear 0 []).lane 0).next = 7 ∧ (((inDs 7 58400).hear 0 []).lane 0).expected 7 + 16 + 40 - 480 ≤ ((((inDs 7 58400).hear 0 []).lane 0).bits.length : Int) ∧ (((inDs 7 58400).hear 0 []).lane 0).late = false)
    ∧ ((rankCands (((kept0 0 100).hear 0 []).lane 0).par.sync (markCands patSync (((kept0 0 100).hear 0 []).lane 0).bits ((((kept0 0 100).hear 0 []).lane 0).expected 0) 16)).take 2 ≠ [] ∧ (((kept0 0 100).hear 0 []).lane 0).expected 0 + 16 + 40 - 480 ≤ ((((kept0 0 100).hear 0 []).lane 0).bits.length : Int))
    ∧ (((inDs 7 0).modRc (fun r => { r with hmcFlt := [0] })).groupOn 0 = true ∧ ((inDs 7 0).modRc (fun r => { r with hmcFlt := [0] })).laneDead 0 = some 7 ∧ ((inDs 7 0).modSp (fun p => { p with retired := [0] })).laneDead 0 = some 6)
    ∧ ((laneAs (fun l => { l with inDs := true, next := 7, unlocked := 257 })).laneOn 0 = true ∧ ((((laneAs (fun l => { l with inDs := true, next := 7, unlocked := 257 }))).hear 0 []).lane 0).lost = false ∧ ((((laneAs (fun l => { l with inDs := true, next := 7, unlocked := 257 }))).hear 0 []).lane 0).inDs = true ∧ 256 < ((((laneAs (fun l => { l with inDs := true, next := 7, unlocked := 257 }))).hear 0 []).lane 0).unlocked ∧ ((((laneAs (fun l => { l with inDs := true, next := 7, unlocked := 257 }))).hear 0 []).lane 0).cands = [])
    ∧ ((laneAs (fun l => { l with missRun := 8 })).laneOn 0 = true ∧ ((laneAs (fun l => { l with missRun := 8 })).lane 0).inDs = false ∧ ((laneAs (fun l => { l with missRun := 8 })).lane 0).par.loss ≤ 8)
    ∧ ((spanned 2000 2180 true).laneOn 0 = true ∧ (((spanned 2000 2180 true).hear 0 []).lane 0).sig.done = ⟨1, 2000, 2180, 0, false⟩ :: [] ∧ (((spanned 2000 2180 true).hear 0 []).lane 0).cands ≠ [] ∧ (((((spanned 2000 2180 true).hear 0 []).lane 0).spanPtrs 0 ⟨1, 2000, 2180, 0, false⟩).any (fun p => p.whole)) = false)
    ∧ ((((((spanned 1000 8000 true).hear 0 []).lane 0).spanPtrs 0 ⟨1, 1000, 8000, 0, false⟩).any (fun p => p.whole)) = true)
    ∧ ((((spanned 9 10 false).hear 0 []).lane 0).cands = [] ∧ (((spanned 9 10 false).hear 0 []).lane 0).inDs = false ∧ (((spanned 9 10 false).hear 0 []).lane 0).sig.done = ⟨1, 9, 10, 0, false⟩ :: []) := ⟨by decide +kernel, by decide +kernel, by decide +kernel, by decide +kernel, by decide +kernel, by decide +kernel, by decide +kernel, by decide +kernel, by decide +kernel, by decide +kernel, by decide +kernel⟩

/-- A row of lane 0, slot 7, of data set 0 at position 0 of wrap 0, with a header of slot `k`. -/
def oneRow (k : Nat) : RowPkt :=
  { two := true, tag := 0, bytes := scramble (rowSeed 0 0 7) (rowHeader 0 (rowAt 0 k).1 (rowAt 0 k).2 false 0 0 0x11) ++ zeroBytes 960, offset := 0, dist := 0, resync := 0
    rsOff := 0, zone := 0, retired := false, erased := false, variant := 0, time := 0 }

/-- A row of the last slot waits to be decoded, with no calibration, in a state. -/
def waiting (s : State) (r : RowPkt) : State := { s.modRc (fun c => { c with rows := [(rowKey 0 7 0, r)] }) with params := [(pkey pTRC_CAL_EN 0, 0)] }

/-- Recording, with that copy started; and reading at position 0 of wrap 0. -/
def recordingNow : State := framing.modSp (fun p => { p with started := [oneCopy false] })

/-- Reading at position `pos` of wrap 0. -/
def readingAt (pos : Nat) : State := ((movingIn .playback).modRc (fun r =>
  { r with awake := [0], pos, pass := some { kind := 0, group := 0, last := 9, running := true } })).modCtl (fun c => { c with dir := 1 })

/-- What ROW_FRAMED leaves once the packet of the candidate is in the data FIFO, for a row without pointers. -/
def rowGone (s : State) (cand : Nat) : State :=
  let u := if cand = 0 then s.tellRow 0 else s
  let l := s.lane 0
  let rs := resyncOf l.par.resync l.bits (l.expect + (l.cands.getD cand (0, 0)).1)
  let pkt : RowPkt :=
    { two := decide (1 < l.cands.length), tag := l.tag.getD 0, bytes := frameRow l.bits (l.expect + (l.cands.getD cand (0, 0)).1) rs
      offset := (l.cands.getD cand (0, 0)).1, dist := (l.cands.getD cand (0, 0)).2
      resync := (match rs with | some r => if r.1 = 0 then 0 else 1 | none => 2), rsOff := (rs.map (fun r => r.1)).getD 0
      zone := l.zone.getD 0, retired := s.sp.retired.contains 0, erased := false, variant := s.variantNow, time := 0 }
  (u.feed 36 (pkt.packet 0 0 cand)).1.modLane 0 (fun m => { m with framed := cand + 1 })


/-- The first and the last of two kept candidates of slot 0; a slot with no row; rows of another copy and of an earlier position; a row with a right header while recording and while reading, one with the header of another slot, and one with none. -/
theorem wit_RowsAreFramedAndDecoded : (∃ a : Align, chooseAlign 0 7 ((((waiting recordingNow (oneRow 7))).intake 0).align 0 7 ((((waiting recordingNow (oneRow 7))).intake 0).expectSeq 0) 0) ((((waiting recordingNow (oneRow 7))).intake 0).align 0 7 ((((waiting recordingNow (oneRow 7))).intake 0).expectSeq 0) 1) = some a ∧ (headerFits a.head 0 7 && (fmtKind a.head.fmt).isSome && a.head.wrap == 0 / 2 ^ 20) = true)
    ∧ (∃ a : Align, chooseAlign 0 7 ((((waiting (readingAt 0) (oneRow 7))).intake 0).align 0 7 ((((waiting (readingAt 0) (oneRow 7))).intake 0).expectSeq 0) 0) ((((waiting (readingAt 0) (oneRow 7))).intake 0).align 0 7 ((((waiting (readingAt 0) (oneRow 7))).intake 0).expectSeq 0) 1) = some a ∧ (headerFits a.head 0 7 && (fmtKind a.head.fmt).isSome && a.head.wrap == 0 / 2 ^ 20) = true)
    ∧ (∃ a : Align, chooseAlign 0 7 ((((waiting recordingNow (oneRow 6))).intake 0).align 0 7 ((((waiting recordingNow (oneRow 6))).intake 0).expectSeq 0) 0) ((((waiting recordingNow (oneRow 6))).intake 0).align 0 7 ((((waiting recordingNow (oneRow 6))).intake 0).expectSeq 0) 1) = some a ∧ (!headerFits a.head 0 7) = true)
    ∧ ((kept0 1 8300).laneOn 0 = true ∧ (((kept0 1 8300).hear 0 []).lane 0).inDs = true ∧ (((kept0 1 8300).hear 0 []).lane 0).next = 0 + 1 ∧ 1 < (((kept0 1 8300).hear 0 []).lane 0).cands.length ∧ (((kept0 1 8300).hear 0 []).lane 0).framed = 0 ∧ (((kept0 1 8300).hear 0 []).lane 0).expect + ((((kept0 1 8300).hear 0 []).lane 0).cands.getD 1 (0, 0)).1 - 120 + 8203 - 480 ≤ ((((kept0 1 8300).hear 0 []).lane 0).bits.length : Int) ∧ tooMany (ptrBytes ((((kept0 1 8300).hear 0 []).tellRow 0).lane 0).ptrs) = false)
    ∧ (1 + 1 = (((kept0 1 8300).hear 0 []).lane 0).cands.length ∧ (((rowGone ((kept0 1 8300).hear 0 []) 1).lane 0).adapt 0 0 0).2 = false ∧ 100 * ((rowGone ((kept0 1 8300).hear 0 []) 1).lane 0).sig.clipped ≤ ((rowGone ((kept0 1 8300).hear 0 []) 1).lane 0).sig.samples)
    ∧ (framing.flows 79 = true ∧ framing.flows (36 + 0 / 32) = true ∧ ((framing).intake 0).rowTag 0 7 = none)
    ∧ (((waiting framing (oneRow 7)).intake 0).rowTag 0 7 = some 0 ∧ ((waiting framing (oneRow 7)).intake 0).recording = true ∧ ((waiting framing (oneRow 7)).intake 0).copyOf 0 = none ∧ ((waiting (readingAt 1) (oneRow 7)).intake 0).recording = false ∧ ((waiting (readingAt 1) (oneRow 7)).intake 0).rowTag 0 7 = some 0 ∧ 0 < readTag ((waiting (readingAt 1) (oneRow 7)).intake 0).rc.wrap ((waiting (readingAt 1) (oneRow 7)).intake 0).rc.pos)
    ∧ ((waiting recordingNow (oneRow 7)).flows 79 = true ∧ (waiting recordingNow (oneRow 7)).flows 36 = true ∧ (((waiting recordingNow (oneRow 7))).intake 0).rowTag 0 7 = some 0 ∧ (((waiting recordingNow (oneRow 7))).intake 0).recording = true ∧ ((((waiting recordingNow (oneRow 7))).intake 0).copyOf 0).isSome = true ∧ (((waiting recordingNow (oneRow 7))).intake 0).retiredThen 0 = false ∧ (((waiting recordingNow (oneRow 7))).intake 0).pn pTRC_CAL_EN = 0)
    ∧ ((((waiting (readingAt 0) (oneRow 7))).intake 0).rowTag 0 7 = some 0 ∧ (((waiting (readingAt 0) (oneRow 7))).intake 0).recording = false ∧ 0 = readTag (((waiting (readingAt 0) (oneRow 7))).intake 0).rc.wrap (((waiting (readingAt 0) (oneRow 7))).intake 0).rc.pos ∧ (((waiting (readingAt 0) (oneRow 7))).intake 0).retiredThen 0 = false ∧ (((waiting (readingAt 0) (oneRow 7))).intake 0).calibrating = false ∧ (((waiting (readingAt 0) (oneRow 7))).intake 0).pn pTRC_CAL_EN = 0)
    ∧ ((((waiting recordingNow { oneRow 7 with bytes := List.replicate 972 0xFF }).intake 0).align 0 7 (((waiting recordingNow { oneRow 7 with bytes := List.replicate 972 0xFF }).intake 0).expectSeq 0) 0).isNone = true ∧ (((waiting recordingNow { oneRow 7 with bytes := List.replicate 972 0xFF }).intake 0).align 0 7 (((waiting recordingNow { oneRow 7 with bytes := List.replicate 972 0xFF }).intake 0).expectSeq 0) 1).isNone = true ∧ (((waiting recordingNow { oneRow 7 with bytes := List.replicate 972 0xFF }).intake 0).chooseFailed 0 7).isSome = true) := ⟨some_of (o := chooseAlign 0 7 ((((waiting recordingNow (oneRow 7))).intake 0).align 0 7 ((((waiting recordingNow (oneRow 7))).intake 0).expectSeq 0) 0) ((((waiting recordingNow (oneRow 7))).intake 0).align 0 7 ((((waiting recordingNow (oneRow 7))).intake 0).expectSeq 0) 1)) (p := fun (a : Align) => headerFits a.head 0 7 && (fmtKind a.head.fmt).isSome && a.head.wrap == 0 / 2 ^ 20) (by decide +kernel), some_of (o := chooseAlign 0 7 ((((waiting (readingAt 0) (oneRow 7))).intake 0).align 0 7 ((((waiting (readingAt 0) (oneRow 7))).intake 0).expectSeq 0) 0) ((((waiting (readingAt 0) (oneRow 7))).intake 0).align 0 7 ((((waiting (readingAt 0) (oneRow 7))).intake 0).expectSeq 0) 1)) (p := fun (a : Align) => headerFits a.head 0 7 && (fmtKind a.head.fmt).isSome && a.head.wrap == 0 / 2 ^ 20) (by decide +kernel), some_of (o := chooseAlign 0 7 ((((waiting recordingNow (oneRow 6))).intake 0).align 0 7 ((((waiting recordingNow (oneRow 6))).intake 0).expectSeq 0) 0) ((((waiting recordingNow (oneRow 6))).intake 0).align 0 7 ((((waiting recordingNow (oneRow 6))).intake 0).expectSeq 0) 1)) (p := fun (a : Align) => !headerFits a.head 0 7) (by decide +kernel), by decide +kernel, by decide +kernel, by decide +kernel, by decide +kernel, by decide +kernel, by decide +kernel, by decide +kernel⟩

/-- A tape position word. -/
def oneWord : Nat := 5 * 2 ^ 16 + crc16Bits (msbBits 63 5)

/-- A right reply of a preamplifier to a write of 7 to register 5. -/
def oneReply : Nat := 7 * 256 + crc8 [5, 7]


/-- What a frame of servo lane 0 with equal signals leaves before the mean is taken. -/
def servoed (s : State) : State := (s.modServo 0 (fun _ =>
  { ((s.servo 0).advance (decide (0 < s.tapeDir)) (1 = 2)) with
    k := (lateralOf ((s.servo 0).advance (decide (0 < s.tapeDir)) (1 = 2)).k 50 50).2
    err := some ((lateralOf ((s.servo 0).advance (decide (0 < s.tapeDir)) (1 = 2)).k 50 50).1
      - s.lateralTarget (lateralOf ((s.servo 0).advance (decide (0 < s.tapeDir)) (1 = 2)).k 50 50).2)
    time := 7
    amps := ((50 + 50) :: ((s.servo 0).advance (decide (0 < s.tapeDir)) (1 = 2)).amps).take 256 })).lateralSample

/-- Probing in the forward direction. -/
def probingFwd : State := base.modCtl (fun c => { c with tsub := .probing, dir := 1 })


/-- A moving tape; a right position word, in a probe too, and wrong ones; marks for a speed; right and wrong replies; servo frames that are and are not usable. -/
theorem wit_ServoCommandsAct : (spooling.moves = true ∧ wordOk oneWord = true ∧ spooling.ctl.tsub ≠ .probing ∧ wordOk (oneWord + 1) = false ∧ ((base.modServo 0 (fun x => { x with crcRun := 2 })).servo 0).crcRun = 2 ∧ (base.servo 0).crcRun < 2)
    ∧ (((probingFwd.modServo 0 (fun x => { x with tpn := some (wordTpn oneWord), frame := if 0 < probingFwd.tapeDir then 79 else 0, crcRun := 0 })).reportPos).ctl.tsub = .probing ∧ ((probingFwd.modServo 0 (fun x => { x with tpn := some (wordTpn oneWord), frame := if 0 < probingFwd.tapeDir then 79 else 0, crcRun := 0 })).reportPos).ctl.probeTpn = false ∧ 0 < ((probingFwd.modServo 0 (fun x => { x with tpn := some (wordTpn oneWord), frame := if 0 < probingFwd.tapeDir then 79 else 0, crcRun := 0 })).reportPos).ctl.dir ∧ 8 * wordTpn oneWord + 1000 ≤ 772728)
    ∧ (([(1, 5), (9, 5)] : List (Nat × Nat)).filterMap laneSpeed = [] ∧ ([(2, 1000000), (8, 1)] : List (Nat × Nat)).filterMap laneSpeed ≠ [] ∧ median (([(2, 1000000), (8, 1)] : List (Nat × Nat)).filterMap laneSpeed) ≠ 0 ∧ spooling.ctl.tsub ≠ .dynamic)
    ∧ (base.rc.hmcFlt.contains 15 = false ∧ ([oneReply + 1, oneReply + 1, oneReply].take 3).find? (replyOk false 5 7) = some oneReply ∧ 5 ≠ 0)
    ∧ ((([oneReply + 1, oneReply + 1, oneReply + 1] : List Nat).find? (replyOk true 5 7)) = none)
    ∧ (([7 * 256 + crc8 [0, 7]].take 3).find? (replyOk false 0 7) = some (7 * 256 + crc8 [0, 7]) ∧ (([7 * 256 + crc8 [0x40, 7], 7 * 256 + crc8 [0xC0, 7]].take 3).find? (replyOk true 0x40 7)).isSome = true)
    ∧ (3 ≤ 3 ∧ 1 < 3 ∧ 0 < 50 + 50 ∧ spooling.pn pTRC_SVO_AMIN * (spooling.servo 0).amps.sum ≤ 100 * (50 + 50) * (spooling.servo 0).amps.length ∧ (servoed spooling).lateralErrs.any (fun e => e.1 = 0 && decide (spooling.pn pTRC_SVO_OUTL < (e.2 - median ((servoed spooling).lateralErrs.map Prod.snd)).natAbs)) = false) := ⟨by decide +kernel, by decide +kernel, by decide +kernel, by decide +kernel, by decide +kernel, by decide +kernel, by decide +kernel⟩

/-- A pass of a kind over positions up to 5 of wrap 0, with its next position. -/
def passing (kind pos : Nat) : State :=
  ((movingIn .playback).modRc (fun r => { r with pass := some { kind, group := 0, last := 5, running := true }, pos })).modCtl (fun c => { c with dir := 1 })

/-- A ladder of data set 0 after its first pass. -/
def oneLadder (inPass : Bool) : Ladder := { passes := 0, max := 3, first := true, expired := false, inPass, limited := false }

/-- Its read waits first on a tape that stands under tension; data set 0 lies at position 40 of wrap 0. -/
def laddered (inPass : Bool) : State :=
  (((inSt .playback).modRc (fun r => { r with ladders := [(0, oneLadder inPass)] })).modCtl (fun c => { c with tsub := .held, tasks := [.read 0] })).modSp (fun p =>
    { p with locs := [{ seq := 0, count := 1, wrap := 0, kind := 0, pos := 40, group := 0 }] })

/-- A record of one block on its way to a reader. -/
def readRec (decoded ok : Bool) : ReadRec :=
  { header := zeroBytes 12 ++ beBytes 4 1 ++ zeroBytes 32 ++ beBytes 4 (crc32c [1, 2, 3] + if ok then 0 else 1), body := [], ds := 0, wrap := 0, engine := 0
    parts := 1, span := 1, out := if decoded then some [1, 2, 3] else none, decoded }

/-- It is the only one. -/
def delivering (r : ReadRec) : State := base.modRc (fun c => { c with recs := [r] })


/-- Passes of every kind before and at their last position; a ladder in and out of a pass; a record to decompress, and records whose CRC fits and does not and one with a structural error. -/
theorem wit_ReadPassesAct : ([passing 0 4, passing 0 5, passing 1 4, passing 3 4].all (fun s => s.rc.pass.any (fun p => p.last == 5) && s.decoding && !s.recording) = true)
    ∧ (((passing 0 4).noteTaken.capture.modRc (fun r => { r with cap := [], failedHdr := [], pos := r.pos + 1 })).rc.pos ≤ 5 ∧ 5 < ((passing 0 5).noteTaken.capture.modRc (fun r => { r with cap := [], failedHdr := [], pos := r.pos + 1 })).rc.pos)
    ∧ (((passing 1 4).capture.modRc (fun r => { r with cap := [], failedHdr := [], pos := r.pos + 1 })).rc.pos ≤ 5 ∧ (passing 3 4).rc.pos + 1 ≤ 5)
    ∧ (NMap.find? (laddered false).rc.ladders 0 = some (oneLadder false) ∧ (oneLadder false).ready = true ∧ (laddered false).rc.pass = none ∧ (laddered false).ctl.after = none ∧ (laddered false).lateralOkToMove = true)
    ∧ ((laddered false).ctl.tsub ≠ .braked ∧ (laddered false).ctl.tasks = .read 0 :: [] ∧ ((laddered false).readSpan 0).isSome = true)
    ∧ ((oneLadder false).first = true ∧ (oneLadder true).inPass = true ∧ NMap.find? (laddered true).rc.ladders 0 = some (oneLadder true))
    ∧ ((delivering (readRec false true)).rc.recs.find? (fun r => !r.decoded) = some (readRec false true) ∧ (delivering (readRec false true)).flows 52 = true ∧ (delivering (readRec false true)).flows (53 + 0) = true ∧ (delivering (readRec false true)).holdUsed + 4096 * beAt (readRec false true).header 0x0C 4 ≤ 2 ^ 20 * (delivering (readRec false true)).pn pTRC_HOLD_MIB)
    ∧ ((delivering (readRec true true)).flows 61 = true ∧ (delivering (readRec true true)).rc.recs.find? (fun r => r.decoded && r.whole) = some (readRec true true) ∧ (readRec true true).out = some [1, 2, 3] ∧ crc32c [1, 2, 3] = beAt (readRec true true).header 0x30 4)
    ∧ ((delivering (readRec true false)).rc.recs.find? (fun r => r.decoded && r.whole) = some (readRec true false) ∧ (readRec true false).out = some [1, 2, 3] ∧ crc32c [1, 2, 3] ≠ beAt (readRec true false).header 0x30 4)
    ∧ ((delivering { readRec true true with out := none }).rc.recs.find? (fun r => r.decoded && r.whole) = some { readRec true true with out := none }) := ⟨by decide +kernel, by decide +kernel, by decide +kernel, by decide +kernel, by decide +kernel, by decide +kernel, by decide +kernel, by decide +kernel, by decide +kernel, by decide +kernel⟩

/-- Slot `n` in a state. -/
def slotIn (n : Nat) (st : SlotSt) : State := (movingIn .spooling).modSlot n (fun z => { z with st })

/-- A reversal within one step of rest. -/
def reversed : State := (movingIn .locating).modCtl (fun c => { c with vlim := 1, lastDir := 1, target := -500 })

/-- What a sample instant of slot `n` has done before the slot acts. -/
def sampled (n : Nat) (s : State) : State := ((((s.applyPend (s.sampleGroup n)).rearmLook n).agePeriod n).latchAndTest n).clockUpdate n

/-- What a super-frame has done. -/
def framed (s : State) : State :=
  (((((((s.applyPend (fun p i => (groupOf p i).1 = pCTL_RAD_MIN)).radiusUpdate).tensionStep).sweepStep).rampStep).probeStep).limiter).wrapStep

/-- Both reel drive links with their fault lines asserted, under tension. -/
def bothFaulty : State := (spooling.modLink 0 (fun l => { l with fault := true })).modLink 1 (fun l => { l with fault := true })

/-- Both reel slots in hold. -/
def bothHeld : State := (slotIn 0 .hold).modSlot 1 (fun z => { z with st := .hold })

/-- DRAIN with the tape moving and an empty bank. -/
def emptyBank : State := { movingIn .drain with params := [(pkey pPWR_BANK_MIN 0, 1)] }

/-- Reels braked dynamically at a measured speed since time 0. -/
def dynamicAt (speed : Int) (rtc : Nat) : State := ((base.modCtl (fun c => { c with tsub := .dynamic, brake := false, emAt := some 0 })).modRc (fun r =>
  { r with speed, speedOk := true })).modPw (fun p => { p with rtc })


/-- Slot 5 off, in hold and armed; a limiter with and without a reversal at rest; a dwell; a substituted slot; a host re-arm that passes; each cause of an emergency stop and none; the brake due and not. -/
theorem wit_ControlLoopCommandsAct : base.AdminRuns hA (admQ base) (adm base)
    ∧ (((sampled 5 (slotIn 5 .off)).slot 5).st = .off ∧ ((sampled 5 (slotIn 5 .hold)).slot 5).st = .hold ∧ ((sampled 2 (slotIn 2 .armed)).slot 2).st = .armed ∧ (sampled 5 (slotIn 5 .hold)).ctl.tsub ≠ .releasing ∧ (2 : Nat) ≠ 4)
    ∧ ((framed base).ctl.reversing = false ∧ (framed base).ctl.tsub ≠ .probing ∧ (framed base).ctl.rel = none)
    ∧ ((framed reversed).ctl.reversing = true ∧ (framed reversed).ctl.vlim = 0 ∧ (framed reversed).ctl.alim = 0 ∧ (framed reversed).ctl.dwell = false ∧ (framed reversed).ctl.tsub ≠ .probing ∧ (framed reversed).ctl.rel = none)
    ∧ ((base.modCtl (fun c => { c with dwell := true })).ctl.dwell = true ∧ ((base.modSlot 0 (fun z => { z with subst := true })).slot 0).subst = true)
    ∧ ((adm base).writeCheck pCTL_REARM 5 [1] = none)
    ∧ (bothFaulty.ctl.tsub.tense = true ∧ (bothFaulty.link 0).fault = true ∧ (bothFaulty.link 1).fault = true)
    ∧ (bothHeld.ctl.tsub.tense = true ∧ (List.range 2).all (fun n => (bothHeld.slot n).st = .hold && (bothHeld.estimate n).isNone) = true)
    ∧ (emptyBank.ctl.tsub.tense = true ∧ emptyBank.moves = true ∧ emptyBank.mag.st = .drain ∧ emptyBank.pw.bankMv < emptyBank.pn pPWR_BANK_MIN)
    ∧ ((base.link 0).fault = false ∧ (base.slot 0).st ≠ .hold ∧ base.mag.st ≠ .drain)
    ∧ ((dynamicAt 49999 0).ctl.tsub = .dynamic ∧ (dynamicAt 49999 0).ctl.brake = false ∧ (dynamicAt 49999 0).tapeSpeed < 50000 ∧ (dynamicAt 50000 65536).ctl.emAt = some 0 ∧ 0 + 65536 ≤ (dynamicAt 50000 65536).pw.rtc)
    ∧ ((dynamicAt 50000 65535).ctl.tsub = .dynamic ∧ 50000 ≤ (dynamicAt 50000 65535).tapeSpeed ∧ (dynamicAt 50000 65535).ctl.emAt = some 0 ∧ (dynamicAt 50000 65535).pw.rtc < 0 + 65536) := ⟨adminRuns_of (by decide +kernel), by decide +kernel, by decide +kernel, by decide +kernel, by decide +kernel, by decide +kernel, by decide +kernel, by decide +kernel, by decide +kernel, by decide +kernel, by decide +kernel, by decide +kernel⟩

/-- A slot that has been tested; slot 2 with a fresh frame; slot 3 with two invalid periods behind it. -/
theorem wit_FeedbackIsSupervised : (((spooling.modSlot 5 (fun z => { z with tested := true })).slot 5).tested = true ∧ (spooling.slot 2).tested = false)
    ∧ (((spooling.modLink 2 (fun l => { l with fresh := true })).sampleValid 2) = true ∧ (spooling.modLink 2 (fun l => { l with fresh := true })).excited 2 = false ∧ (spooling.modLink 2 (fun l => { l with fresh := true })).estimate 2 = none ∧ 2 ≤ 5)
    ∧ (((slotIn 3 .armed).modSlot 3 (fun z => { z with loss := 2 })).sampleValid 3 = false ∧ (((slotIn 3 .armed).modSlot 3 (fun z => { z with loss := 2 })).slot 3).tested = false ∧ (((slotIn 3 .armed).modSlot 3 (fun z => { z with loss := 2 })).slot 3).loss = 2 ∧ (((slotIn 3 .armed).modSlot 3 (fun z => { z with loss := 2 })).slot 3).st = .armed ∧ (((slotIn 3 .armed).modSlot 3 (fun z => { z with loss := 2 })).slot 3).subst = false) := ⟨by decide +kernel, by decide +kernel, by decide +kernel⟩

/-- Payload of a status frame with sequence number 0. -/
def oneFrame : Nat := 8 * 2 ^ 76

/-- Link 0 is on and has asked with sequence number 0. -/
def asking : State := base.modLink 0 (fun l => { l with on := true, asked := true })

/-- An armed trace with so many samples left after its trigger. -/
def tracing (left : Option Nat) : State := base.modCtl (fun c => { c with trace := { c.trace with st := 1, left } })


/-- An encoder at the start of an edge; links and frames right and wrong; the trace in its states, and ordered by a host. -/
theorem wit_LinkAndTraceCommandsAct : base.AdminRuns hA (admQ base) (adm base)
    ∧ (tracing none).AdminRuns hA (admQ (tracing none)) (adm (tracing none))
    ∧ (((base.modEnc 1 (fun e => { e with i := true })).encoder 1).a = false ∧ ((base.modEnc 1 (fun e => { e with i := true })).encoder 1).b = false ∧ ((base.modEnc 1 (fun e => { e with i := true })).encoder 1).i = true ∧ 100 ≤ 100 ∧ base.withinSecond (base.encoder 1).evtAt = false)
    ∧ ((asking.link 0).on = true ∧ (asking.link 0).seq = 0 ∧ (asking.link 0).asked = true ∧ asking.withinSecond (asking.link 0).evtAt = false ∧ (((asking.modLink 0 (fun l => { l with fault := true })).declare (slotOfLink 0) 4).link 1).fault = false)
    ∧ ((asking.modLink 0 (fun l => { l with evtAt := some asking.pw.rtc })).withinSecond (some asking.pw.rtc) = true ∧ (base.slot (slotOfLink 2)).st ≠ .armed ∧ (base.link 0).fault = false ∧ 2 ≤ 2)
    ∧ (crc8Bits (msbBits 80 ((256 * oneFrame + crc8Bits (msbBits 80 oneFrame) + 1) / 256)) ≠ (256 * oneFrame + crc8Bits (msbBits 80 oneFrame) + 1) % 256)
    ∧ (crc8Bits (msbBits 80 ((256 * oneFrame + crc8Bits (msbBits 80 oneFrame)) / 256)) = (256 * oneFrame + crc8Bits (msbBits 80 oneFrame)) % 256 ∧ bitsOf (256 * oneFrame + crc8Bits (msbBits 80 oneFrame)) 87 84 = 8 ∧ bitsOf (256 * oneFrame + crc8Bits (msbBits 80 oneFrame)) 83 80 = 0 ∧ Nat.testBit (256 * oneFrame + crc8Bits (msbBits 80 oneFrame)) 25 = false)
    ∧ (base.ctl.trace.st ≠ 1 ∧ (tracing none).ctl.trace.st = 1 ∧ (tracing none).ctl.trace.left ≠ some 0 ∧ (tracing (some 0)).ctl.trace.left = some 0)
    ∧ ((adm base).writeCheck pCTL_TRC_ARM 0 [1] = none ∧ (adm (tracing none)).writeCheck pCTL_TRC_ARM 0 [2] = none) := ⟨adminRuns_of (by decide +kernel), adminRuns_of (by decide +kernel), by decide +kernel, by decide +kernel, by decide +kernel, by decide +kernel, by decide +kernel, by decide +kernel, by decide +kernel⟩

/-- READY and SERVICE with an empty spool queue, dock context, the last position and the last TPN, the lid open, a suspension. -/
theorem wit_TransportCommandsAreQueued : base.AdminRuns hA (admQ base) (adm base)
    ∧ (inSt .safe |>.modMag (fun g => { g with st := .spooling })).AdminRuns hA (admQ (inSt .safe |>.modMag (fun g => { g with st := .spooling }))) (adm (inSt .safe |>.modMag (fun g => { g with st := .spooling })))
    ∧ (inSt .service).AdminRuns hA (admQ (inSt .service)) (adm (inSt .service))
    ∧ ((adm base).mag.st ∈ stillStates ∧ (adm base).readWaits = false ∧ (adm base).queueEmpty = true ∧ (adm base).queueBars = false ∧ (adm base).mag.st.working = true ∧ (adm base).mag.st ∈ locateStates)
    ∧ (47 % 256 ≤ 47 ∧ Nat.testBit 47 31 = false ∧ Nat.testBit (2 ^ 31 + 47) 31 = true ∧ (2 ^ 31 + 47) % 256 ≤ 47 ∧ 16 ≤ 96591)
    ∧ ((adm (base.modMag (fun g => { g with ctx := .dock }))).mag.ctx = .dock ∧ (adm (base.modMag (fun g => { g with ctx := .dock }))).queueBars = false ∧ (adm (base.modMag (fun g => { g with ctx := .dock }))).mag.st ∈ locateStates)
    ∧ ((adm servicing).mag.st = .service ∧ (adm servicing).keys.session = true ∧ (adm servicing).pw.lid = false ∧ (adm (servicing.modPw (fun p => { p with lid := true }))).pw.lid = true ∧ (adm (servicing.modPw (fun p => { p with lid := true }))).mag.st = .service)
    ∧ ((adm (servicing.modKeys (fun k => { k with session := false }))).keys.session = false ∧ (adm (servicing.modSp (fun p => { p with suspended := true }))).sp.suspended = true ∧ (adm (servicing.modSp (fun p => { p with suspended := true }))).mag.st = .service)
    ∧ ((adm ((inSt .boot))).mag.st.working = false) := ⟨adminRuns_of (by decide +kernel), adminRuns_of (by decide +kernel), adminRuns_of (by decide +kernel), by decide +kernel, by decide +kernel, by decide +kernel, by decide +kernel, by decide +kernel, by decide +kernel⟩

/-- READY with a tape read waiting. -/
def tapeWanted : State := base.modCtl (fun c => { c with tasks := [.read 0] })

/-- The transport in a sub-state. -/
def inSub (sub : TSub) : State := (inSt .tensioned).modCtl (fun c => { c with tsub := sub })

/-- What TENSION_UP reaches when the transport rails are up. -/
def railed (s : State) : State :=
  ((s.tapeState .tensioned).modCtl (fun c => { c with railsUp := true })).modPw (fun p => { p with en := p.en % 1024 + 3072, pgood := p.pgood % 1024 + 3072 })


/-- A braked tape that is wanted, with the transport rails down, with a slot in hold and with none; probing; tensioning with and without a kept position. -/
theorem wit_TensionSequenceActs : (tapeWanted.ctl.tsub = .braked ∧ tapeWanted.ctl.stage = 0 ∧ tapeWanted.ctl.after = none ∧ tapeWanted.nv.pp = false ∧ tapeWanted.tapeNeeded = true ∧ tapeWanted.mag.st = .ready)
    ∧ ((tapeWanted.tapeState .tensioned).ctl.railsUp = false ∧ (railed tapeWanted).rearmAll.1 = true)
    ∧ ((tapeWanted.modSlot 0 (fun z => { z with st := .hold })).ctl.tsub = .braked ∧ (tapeWanted.modSlot 0 (fun z => { z with st := .hold })).tapeNeeded = true ∧ (tapeWanted.modSlot 0 (fun z => { z with st := .hold })).mag.st = .ready ∧ (railed (tapeWanted.modSlot 0 (fun z => { z with st := .hold }))).rearmAll.1 = false)
    ∧ ((railed tapeWanted).rearmAll.2.linksOn.ctl.radiusOk = false ∧ (railed (tapeWanted.modCtl (fun c => { c with radiusOk := true }))).rearmAll.1 = true ∧ (railed (tapeWanted.modCtl (fun c => { c with radiusOk := true }))).rearmAll.2.linksOn.ctl.radiusOk = true)
    ∧ ((inSub .probing).ctl.tsub = .probing ∧ (inSub .tensioning).ctl.tsub = .tensioning)
    ∧ (([3, 4, 5].foldl State.armUnlessHeld (if ((((inSub .tensioning).modPw (fun p => { p with retPos := some (80000, 0, 0) }))).slot 2).st = .off then (((inSub .tensioning).modPw (fun p => { p with retPos := some (80000, 0, 0) }))).arm 2 else (((inSub .tensioning).modPw (fun p => { p with retPos := some (80000, 0, 0) }))))).positionKept.isSome = true ∧ ([3, 4, 5].foldl State.armUnlessHeld (if ((((inSub .tensioning).modPw (fun p => { p with retPos := some (80000, 0, 0) }))).slot 2).st = .off then (((inSub .tensioning).modPw (fun p => { p with retPos := some (80000, 0, 0) }))).arm 2 else (((inSub .tensioning).modPw (fun p => { p with retPos := some (80000, 0, 0) }))))).ctl.tasks = [] ∧ ((inSub .tensioning).positionKept).isNone = true) := ⟨by decide +kernel, by decide +kernel, by decide +kernel, by decide +kernel, by decide +kernel, by decide +kernel⟩

/-- A locate to position 9 of wrap 0 that has arrived. -/
def arriving : State := (movingIn .locating).modCtl (fun c => { c with aim := some (.position 0 9), tasks := [.locate none (.position 0 9)] }) |>.modRc (fun r => { r with pos10 := (base.aimNm (.position 0 9) / 100000).toNat })

/-- Idle times of one second. -/
def idleSet (s : State) : State := s.modCtl (fun c => { c with idleTens := 1, idlePb := 1 })

/-- A stop at rest, to be followed by `a`. -/
def stopped (a : AfterStop) : State := (inSub .stopping).modCtl (fun c => { c with after := some a })


/-- Finding, locating, every kind of stop at rest, a held tape whose lateral slots are in hold, idle TENSIONED and PLAYBACK, the lid opened while spooling. -/
theorem wit_PositionAndStopActs : ((inSub .finding).ctl.tsub = .finding ∧ (inSub .finding).ctl.tasks = [])
    ∧ (arriving.arrived = true ∧ arriving.ctl.aim.isSome = true ∧ arriving.moves = true ∧ arriving.settle.ctl.tasks = .locate none (.position 0 9) :: [])
    ∧ ([AfterStop.hold, .park, .drain, .lid].all (fun a => (stopped a).ctl.tsub = .stopping && (stopped a).ctl.vlim = 0 && (stopped a).ctl.alim = 0 && (stopped a).ctl.after = some a) = true)
    ∧ ((((stopped .hold).resumePoint.endSubstitutions).modCtl (fun c => { c with after := none })).settle.stillState.ctl.tasks = [])
    ∧ (((inSub .held).modSlot 5 (fun z => { z with st := .hold })).ctl.tsub = .held ∧ ((inSub .held).modSlot 5 (fun z => { z with st := .hold })).lateralOkToMove = false ∧ (((inSub .held).modSlot 5 (fun z => { z with st := .hold })).slot 4).st ≠ .hold ∧ (((inSub .held).modSlot 5 (fun z => { z with st := .hold })).slot 5).st = .hold)
    ∧ ((((inSub .held).modMag (fun g => { g with ticks := 10000000 })).modSlot 5 (fun z => { z with st := .hold, hist := List.replicate 16 true })).ctl.tsub = .held ∧ (((inSub .held).modMag (fun g => { g with ticks := 10000000 })).modSlot 5 (fun z => { z with st := .hold, hist := List.replicate 16 true })).lateralOkToMove = false ∧ ((((inSub .held).modMag (fun g => { g with ticks := 10000000 })).modSlot 5 (fun z => { z with st := .hold, hist := List.replicate 16 true })).slot 4).st ≠ .hold ∧ ((((inSub .held).modMag (fun g => { g with ticks := 10000000 })).modSlot 5 (fun z => { z with st := .hold, hist := List.replicate 16 true })).slot 5).st = .hold ∧ ((((inSub .held).modMag (fun g => { g with ticks := 10000000 })).modSlot 5 (fun z => { z with st := .hold, hist := List.replicate 16 true })).rearm 5 false).1 = true)
    ∧ ((idleSet (inSub .held)).mag.st = .tensioned ∧ (idleSet (inSub .held)).ctl.tsub = .held ∧ (idleSet (inSub .held)).ctl.tasks = [] ∧ (idleSet (inSub .held)).ctl.idleTens ≠ 0)
    ∧ ((idleSet ((inSt .playback).modCtl (fun c => { c with tsub := .held }))).mag.st = .playback ∧ (idleSet ((inSt .playback).modCtl (fun c => { c with tsub := .held }))).readWaits = false ∧ (idleSet ((inSt .playback).modCtl (fun c => { c with tsub := .held }))).ctl.idlePb ≠ 0 ∧ (((idleSet ((inSt .playback).modCtl (fun c => { c with tsub := .held }))).enter .tensioned).modRc (fun r => { r with pass := none })).moves = false)
    ∧ ((((idleSet (movingIn .playback)).enter .tensioned).modRc (fun r => { r with pass := none })).moves = true ∧ (movingIn .playback).readWaits = false)
    ∧ (((((movingIn .spooling).modPw (fun p => { p with lid := true })).ringAdd 4 (leBytes 10 ((movingIn .spooling).free 5))).drawn 1).ctl.tasks = [] ∧ ((((movingIn .spooling).modPw (fun p => { p with lid := true })).ringAdd 4 (leBytes 10 ((movingIn .spooling).free 5))).drawn 1).mag.st = .spooling ∧ ((((movingIn .spooling).modPw (fun p => { p with lid := true })).ringAdd 4 (leBytes 10 ((movingIn .spooling).free 5))).drawn 1).ctl.after = none ∧ ((((movingIn .spooling).modPw (fun p => { p with lid := true })).ringAdd 4 (leBytes 10 ((movingIn .spooling).free 5))).drawn 1).moves = true) := ⟨by decide +kernel, by decide +kernel, by decide +kernel, by decide +kernel, by decide +kernel, by decide +kernel, by decide +kernel, by decide +kernel, by decide +kernel, by decide +kernel⟩

/-- The Carousel with one large unit on its way, one page short of its end. -/
def oneUnit : CUnit :=
  { kind := .large, laddr := 0, die := 0, block := 0, page := 0, seq := 0, left := 1, data := [], persisted := false, journalled := false, mapped := false, lbas := [], bad := [], stamp := (0, 0, 0) }

/-- 16 dies with room, program sequences up to 100, and that unit. -/
def storing : State :=
  ({ base with params := [(pkey pCSL_CONFIG 0, 16), (pkey pCSL_PLANES 0, 1), (pkey pCSL_FOLD_S 0, 0)] } : State).modCar (fun c =>
    { c with perChan := 1, blocksPerDie := 100, spares := 10, spares0 := 10, pceil := some 100, units := [(3, oneUnit)], nextUnit := 4 })

/-- Extent 2 with 48 blocks of zeros in flash. -/
def foldable : State :=
  storing.modCar (fun c => { c with exts := [(2, .fine ((List.range 48).map (fun i => (i, { unit := some 3, inLarge := false, zero := 255, unread := 0 }))) 0)] })


/-- Block 7 of die 0 full, with no unit in it. -/
def written7 : State := storing.modBlock 0 7 (fun b => { b with use := 2 })

/-- The unit has persisted. -/
def persisted7 : State := storing.modCar (fun c => { c with units := [(3, { oneUnit with persisted := true })] })


/-- A unit with its last program due, a die in place, a commit that is next, a checkpoint that is due, sequences used up, a block to empty, a host memory buffer loading, an extent to fold. -/
theorem wit_CarouselCommandsAct : (∃ e : Ext, NMap.find? foldable.car.exts 2 = some e ∧ ((match e with | .fine m _ => decide (48 ≤ m.countP (fun (x : Nat × Fine) => x.2.unit.isSome)) | .large _ => false)) = true)
    ∧ (storing.mag.st.alive = true ∧ NMap.find? storing.car.units 3 = some oneUnit ∧ storing.statusDue oneUnit = true ∧ storing.flows 69 = true ∧ storing.flows 72 = true)
    ∧ (storing.dieThere 0 = true ∧ (storing.die 0).retired = false ∧ ((storing.applyPend (fun p _ => p = pCSL_RT_TAB)).unitAt 0 7 0).isNone = true ∧ (storing.applyPend (fun p _ => p = pCSL_RT_TAB)).pageErased 0 7 0 = true ∧ (written7.applyPend (fun p _ => p = pCSL_RT_TAB)).pageErased 0 7 0 = false ∧ ((written7.applyPend (fun p _ => p = pCSL_RT_TAB)).unitAt 0 7 0).isNone = true)
    ∧ (attemptsMade [] (storing.pn pCSL_RETRY_N) 0 = 1 ∧ (List.range 8).all (fun j => attemptBits [] 0 j ≤ 120) = true ∧ ((persisted7.applyPend (fun p _ => p = pCSL_RT_TAB)).unitAt 0 0 0) = some (3, { oneUnit with persisted := true }))
    ∧ ((List.range 8).countP (fun j => (List.range (attemptsMade (List.replicate 256 4096) (storing.pn pCSL_RETRY_N) 0)).all (fun k => storing.sectorRead false (attemptBits (List.replicate 256 4096) k j) = .uncorrectable)) ≠ 0)
    ∧ (storing.seqRoom = true ∧ (storing.modCar (fun c => { c with journal := [{ index := false, recs := [], after := [] }] })).nextCommit.isSome = true ∧ (storing.modCar (fun c => { c with journal := [{ index := false, recs := [], after := [] }] })).seqRoom = true)
    ∧ (storing.mag.st ≠ .drain ∧ storing.mag.st ≠ .safe ∧ storing.nor.dead = false ∧ storing.seqReady = true ∧ (storing.modCar (fun c => { c with sinceCkpt := 2 ^ 50 })).pn pCSL_CKPT_MIB * 2 ^ 20 ≤ (storing.modCar (fun c => { c with sinceCkpt := 2 ^ 50 })).car.sinceCkpt)
    ∧ ((storing.modCar (fun c => { c with pseq := 100 })).seqRoom = false)
    ∧ (storing.mag.st.working = true ∧ (storing.modCar (fun c => { c with scrub := [7] })).seqReady = true ∧ (storing.modCar (fun c => { c with scrub := [7] })).victim = some (7, true))
    ∧ (storing.pw.aon = true ∧ (storing.modCar (fun c => { c with hmb := 1 })).car.hmb = 1)
    ∧ (foldable.mag.st.working = true ∧ foldable.seqReady = true ∧ 0 + foldable.pn pCSL_FOLD_S ≤ foldable.rtcSec)
    ∧ (((List.range 256).map (fun k => foldable.sideRead (256 * 2 + k))).contains .unreadable = false) := ⟨some_of (o := NMap.find? foldable.car.exts 2) (p := fun (e : Ext) => (match e with | .fine m _ => decide (48 ≤ m.countP (fun (x : Nat × Fine) => x.2.unit.isSome)) | .large _ => false)) (by decide +kernel), by decide +kernel, by decide +kernel, by decide +kernel, by decide +kernel, by decide +kernel, by decide +kernel, by decide +kernel, by decide +kernel, by decide +kernel, by decide +kernel, by decide +kernel⟩

/-- Power-up waiting for the PGOOD of rail `n`. -/
def poweringUp (n : Nat) : State := ((inSt .boot).modPw (fun p => { p with mgt := false, en := 2 ^ n }))

/-- DRAIN with a braked tape, its journal sealed or not. -/
def draining (sealed : Bool) : State := (inSt .drain).modCar (fun c => { c with nv := { c.nv with sealed := if sealed then some (0, 0, 0) else none } })


/-- OFF and ISLAND with and without the line, every kind of rail, each step of power-up, DRAIN before and after the seal. -/
theorem wit_RailsCommandsAct : (State.reset.mag.st = .off ∧ State.reset.pw.aon = false)
    ∧ (base.pw.aon = true ∧ (State.reset.modPw (fun p => { p with aon := true })).pw.aon = true ∧ (State.reset.modPw (fun p => { p with aon := true })).pw.line = false ∧ (State.reset.modPw (fun p => { p with aon := true })).mag.st = .off)
    ∧ ((base.modPw (fun p => { p with line := false })).pw.line = false ∧ base.mag.st ≠ .off ∧ base.mag.st ≠ .island ∧ base.pw.line = true ∧ 35000 ≤ 35000 ∧ 64000 ≤ 64000 ∧ 64000 < 64001)
    ∧ ((((base.modPw (fun p => { p with line := false })).chvRaise 0x780 1 []).ringAdd 5 []).mag.st.working = true ∧ ((((poweringUp 9).modPw (fun p => { p with line := false })).chvRaise 0x780 1 []).ringAdd 5 []).mag.st = .boot ∧ (poweringUp 9).pw.line = true)
    ∧ ([0, 2, 3, 4, 7, 8, 9, 10, 11].all (fun rail => Nat.testBit (base.modPw (fun p => { p with en := 4095, pgood := 4095 })).pw.en rail && Nat.testBit (base.modPw (fun p => { p with en := 4095, pgood := 4095 })).pw.pgood rail) = true ∧ base.mag.st.working = true)
    ∧ ((poweringUp 8).awaited = some 8 ∧ (poweringUp 9).awaited = some 9)
    ∧ (((inSt .boot).modPw (fun p => { p with retry := true })).mag.st = .boot ∧ ((inSt .boot).modPw (fun p => { p with retry := true })).pw.retry = true ∧ ((inSt .boot).modPw (fun p => { p with retry := true })).pw.line = true)
    ∧ (((poweringUp 9).modPw (fun p => { p with refEn := true })).mag.st = .boot ∧ ((poweringUp 9).modPw (fun p => { p with refEn := true })).pw.refEn = true ∧ ((poweringUp 9).modPw (fun p => { p with refEn := true })).pw.mgt = false)
    ∧ ((draining true).drainSealed = true ∧ (draining true).ctl.tsub = .braked ∧ (draining false).mag.st = .drain ∧ (draining false).ctl.tsub = .braked ∧ (draining false).drainSealed = false)
    ∧ ((inSt .island).mag.st = .island) := ⟨by decide +kernel, by decide +kernel, by decide +kernel, by decide +kernel, by decide +kernel, by decide +kernel, by decide +kernel, by decide +kernel, by decide +kernel, by decide +kernel⟩

/-- A bank test under way. -/
def testing (x : BankTest) : State := ({ base with params := [(pkey pPWR_RTEST 0, 1000)] } : State).modPw (fun p => { p with test := x })


/-- No test; a charged bank; a sample that has fallen by 2 V, and by less; an end within limits; temperatures at the limits of their ranges. -/
theorem wit_BankTestAndTemperatureAct : base.AdminRuns hA (admQ base) (adm base)
    ∧ (base.awake = true ∧ base.pw.test = .idle ∧ Nat.testBit base.mag.why 0 = false ∧ (adm base).writeCheck pPWR_TEST_NOW 0 [1] = none)
    ∧ ((testing .charging).pw.test = .charging ∧ (testing .charging).pn pPWR_BANK_FULL ≤ (testing .charging).pn pPWR_BANK_FULL - 1000 + 1000)
    ∧ ((testing (.loaded 50000)).pw.test = .loaded 50000 ∧ 48000 + 2000 ≤ 50000 ∧ 50000 < 48001 + 2000)
    ∧ ((testing (.sampled 50000 50000)).pw.test = .sampled 50000 50000 ∧ (100000 ≤ 100000 ∨ 49900 + 2000 ≤ 50000) ∧ 49900 < 50000 ∧ (testing (.sampled 50000 50000)).pn pPWR_RTEST ≠ 0)
    ∧ ((testing (.sampled 50000 50000)).pn pPWR_C_MIN * (capOf 50000 49900 ((testing (.sampled 50000 50000)).pn pPWR_RTEST) 100000).2 ≤ (capOf 50000 49900 ((testing (.sampled 50000 50000)).pn pPWR_RTEST) 100000).1)
    ∧ ((esrOf 50000 50000 ((testing (.sampled 50000 50000)).pn pPWR_RTEST)).1 ≤ (testing (.sampled 50000 50000)).pn pPWR_ESR_MAX * 1000 * (esrOf 50000 50000 ((testing (.sampled 50000 50000)).pn pPWR_RTEST)).2)
    ∧ (base.pw.aon = true ∧ (-4000 : Int) ≤ -4000 ∧ (12500 : Int) ≤ 12500 ∧ base.pw.mgt = true ∧ base.mag.st.alive = true ∧ base.pw.thermal = 0 ∧ base.mag.st ≠ .drain) := ⟨adminRuns_of (by decide +kernel), by decide +kernel, by decide +kernel, by decide +kernel, by decide +kernel, by decide +kernel, by decide +kernel, by decide +kernel⟩

/-- What a BOOT finds outside: a self-test that passes or fails, and a NOR that does not answer. -/
def oneEnv (selfTest : Bool) : BootEnv :=
  { selfTest, norOk := false, ddrOk := true, journalsOk := true, mirrorLost := [], onfiFail := [], diesAnswer := 0, testMode := 0, tempDeci := -200 }

/-- BOOT with the rails up. -/
def booting : State := (State.reset.modMag (fun g => { g with st := .boot })).modPw (fun p => { p with aon := true, mgt := true, line := true })

/-- READY after a lockstep mismatch. -/
def mismatched : State := base.modMag (fun g => { g with mismatch := some 0 })


/-- BOOT with a self-test that passes and one that fails, at the lowest temperature; SERVICE with and without cause bit 3; a first and a second mismatch; the last buffer channel. -/
theorem wit_BootAndRestartAct : servicing.AdminRuns hA (admQ servicing) (adm servicing)
    ∧ (booting.mag.st = .boot ∧ booting.pw.mgt = true ∧ booting.mag.halted = false ∧ booting.bootWaits (oneEnv true) = false ∧ booting.bootWaits (oneEnv false) = false ∧ booting.mag.restart = 0)
    ∧ ((oneEnv false).selfTest = false ∧ (oneEnv true).selfTest = true ∧ (oneEnv true).testMode = 0 ∧ ((booting.bootStart (oneEnv true)).bootNor (oneEnv true)).nor.dead = true ∧ ((booting.bootStart (oneEnv true)).bootNor (oneEnv true)).hasCause = true)
    ∧ (servicing.nor.impBusy = 0 ∧ servicing.mag.st = .service ∧ [1, 2, 3].all (fun v => !servicing.impRefused v) = true ∧ (servicing.modMag (fun g => { g with why := 8 })).impRefused 4 = false ∧ (servicing.modMag (fun g => { g with why := 8 })).mag.st = .service)
    ∧ ((adm servicing).writeCheck pBOOT_IMP_CTL 0 [1] = none ∧ (adm servicing).impRefused 1 = false ∧ (adm servicing).writeCheck pBOOT_IMP_CTL 0 [4] = none ∧ (adm servicing).impRefused 4 = true)
    ∧ (booting.mag.st.alive = true ∧ booting.mag.mismatch = none ∧ (inSt .drain).mag.st = .drain ∧ (inSt .drain).pw.mgt = true ∧ (inSt .drain).mag.mismatch = none)
    ∧ (base.mag.st = .ready ∧ base.pw.mgt = true ∧ base.mag.mismatch.isSome = false ∧ mismatched.mag.st = .ready ∧ mismatched.pw.mgt = true ∧ mismatched.mag.mismatch.isSome = true)
    ∧ ((inSt .safe).mag.st = .safe ∧ (inSt .safe).pw.mgt = true ∧ 3 < 4) := ⟨adminRuns_of (by decide +kernel), by decide +kernel, by decide +kernel, by decide +kernel, by decide +kernel, by decide +kernel, by decide +kernel, by decide +kernel⟩

/-- An operation on NOR area 2 with the first copy to come, or with its result. -/
def norOp (r0 : Option Bool) : NorOp := { area := 2, data := [1], first := 0, r0, act := .plain }

/-- That operation under way. -/
def norBusy (r0 : Option Bool) : State := base.modNor (fun n => { n with ops := [norOp r0] })


/-- A head stack with nine tenths of its 15,000 hours. -/
def worn : State := base.modEv (fun v => { v with headTicks := 48600000 * 32768 })


/-- A running magazine; a health record that is due to the tick; an operation of NOR before its first and before its second copy. -/
theorem wit_EventsAndHealthAct : (base.mag.st.alive = true ∧ base.mag.st ≠ .drain ∧ base.ev.unsaved.filter (fun e => !base.eventsQueued.contains e.seq) = [])
    ∧ ((base.feed 86 (eventPacket (0x600 % 2048) (1 % 16) [])).2 = false ∧ (((base.feed 86 (eventPacket (0x600 % 2048) (1 % 16) [])).1.fifo 86).takePackets ((base.feed 86 (eventPacket (0x600 % 2048) (1 % 16) [])).1.pni pSFQ_CT_THRESH 86)).1.map (fun p => (eventOf p).1) = [0x600] ∧ base.evtCtl 0x600 = 0 ∧ base.evtCtl 0x700 = 1 ∧ (0x700 : Nat) ≠ 0x7F0 ∧ NMap.get 0 base.ev.inSec 0x700 < base.ev.rate)
    ∧ (((base.modFifo 86 (fun f => { f with halted := true })).feed 86 (eventPacket (0x600 % 2048) (1 % 16) [])).2 = false ∧ ((((base.modFifo 86 (fun f => { f with halted := true })).feed 86 (eventPacket (0x600 % 2048) (1 % 16) [])).1.fifo 86).takePackets 0).1 = [])
    ∧ (min 255 (100 * base.lifeMax.1.1 / base.lifeMax.1.2) < 90 ∧ min 255 (100 * worn.lifeMax.1.1 / worn.lifeMax.1.2) = 90 ∧ Nat.testBit worn.ev.lifeEvt 0 = false)
    ∧ ((base.modEv (fun v => { v with headTicks := 600 * 32768 })).mag.st.alive = true ∧ (base.modEv (fun v => { v with headTicks := 600 * 32768 })).ev.headSaved + 600 * 32768 ≤ (base.modEv (fun v => { v with headTicks := 600 * 32768 })).ev.headTicks)
    ∧ ((norBusy (some false)).nor.ops.find? (fun o => o.area = 2) = some (norOp (some false)) ∧ (norOp (some false)).r0 = some false ∧ (norBusy (some false)).mag.st.alive = true)
    ∧ ((norBusy none).nor.ops.find? (fun o => o.area = 2) = some (norOp none) ∧ (norOp none).r0 = none ∧ 2 ≠ 1) := ⟨by decide +kernel, by decide +kernel, by decide +kernel, by decide +kernel, by decide +kernel, by decide +kernel, by decide +kernel⟩

/-- Assembly of a filled data set is possible: a MAC key, IVs, and room in the Carousel. -/
def assembling : State := (({ storing with params := [(pkey pCSL_SC_PCT 0, 10), (pkey pCSL_CONFIG 0, 16), (pkey pCSL_PLANES 0, 1)] } : State).modSp (fun p =>
    { p with filled := [{ payload := [], dir := [], cont := 0, fill := some 0 }] })).modKeys (fun k =>
  { k with macCur := some 0, ceiling := some 10, slots := [(259, { key := zeroBytes 32, id := 0, used := 0 })] })

/-- Whether an image can be appended does not depend on its bytes. -/
theorem append_any {s : State} {q : Nat} {x : DsImage} (h : (s.appendImage q x).isSome = true) (y : DsImage) : ∃ t, s.appendImage q y = some t := by
  unfold State.appendImage at *
  simp only [Option.isSome_map] at h
  obtain ⟨t, e⟩ := Option.isSome_iff_exists.1 h
  exact ⟨_, congrArg (Option.map _) e⟩

/-- What taking the data set out of the queue leaves. -/
def taken3 (d : OpenDs) : State := (((assembling.modKeys (fun k => { k with iv := k.iv + 1 })).modSp (fun p =>
    { p with filled := [], nextSeq := assembling.sp.nextSeq + 1, stageFull := false })).modRc (fun r => { r with dirs := NMap.put r.dirs assembling.sp.nextSeq d.dir })).noteTakes
  assembling.sp.nextSeq


/-- A filled data set with a MAC key, an IV and room for its image. -/
theorem wit_PackerCommandsAct_assembly : (∀ img, ∃ t, (taken3 { payload := [], dir := [], cont := 0, fill := some 0 }).appendImage 0 img = some t)
    ∧ (assembling.sp.filled = { payload := [], dir := [], cont := 0, fill := some 0 } :: [] ∧ assembling.spoolStalled = false ∧ assembling.ingestFlows = true ∧ assembling.stageRoom dsInfo = true ∧ assembling.keys.macCur = some 0 ∧ (assembling.slotKey (259 + 0)).isSome = true ∧ assembling.ivReady = true) := ⟨append_any (x := { bytes := [], group := none, persisted := false, committed := false, logOff := 0, lbas := [] }) (by decide +kernel), by decide +kernel⟩


/-! ### Results taken from the manual -/

/-- Byte order (00, after R6): the number 0x0012_34AB in host memory and in a row header. -/
theorem test_byte_order : leBytes 4 0x001234AB = [0xAB, 0x34, 0x12, 0x00] ∧ beBytes 3 0x001234AB = [0x12, 0x34, 0xAB] := by decide

/-- Row 37 of SDS 13 lies in slot 3 on channel 265, and the inverse gives it back (01, 02). -/
theorem test_interleave : chanOf 13 37 = 265 ∧ 13 / 4 = 3 ∧ rowAt 265 3 = (13, 37) := by decide

/-- The information bytes of its row header (02). -/
theorem test_row_header : rowHeaderInfo 0x505679 13 37 false 7 265 0x11 = [0x50, 0x56, 0x79, 0x6B, 0x4A, 0x07, 0x84, 0x91] := by decide

/-- Its scrambler seed, and row byte 0 on tape (02). -/
theorem test_scrambler : scrSeed 1 1701 265 = 0x6D4B09 ∧ scramble (scrSeed 1 1701 265) [0x50] = [0xC6] := by decide +kernel

/-- Position of data DS 5,265,017 (02): wrap 7, position 240,017, slot 527,982 of a reverse wrap. -/
theorem test_position : idealPosition 5265017 = (7, 240017) ∧ slotOf 7 240017 = 527982 := by decide +kernel

/-- Track centre of channel 265 on wrap 7, 13.17955 mm, and the edge at which recording starts there, 533,655.41 mm (02). -/
theorem test_place : 50 * trackCentre 265 7 = 13179550 ∧ posNm 7 240017 / 10000 = 53365541 := by decide +kernel

/-- Format codes of the parity DS of a group of 30 (02). -/
theorem test_format_codes : fmtOf .parity0 30 = 0x5D ∧ fmtOf .parity1 30 = 0x7D := by decide

/-- Row bits 2,000 and 2,180 are row bytes 223 and 244 (05). -/
theorem test_dropout_bytes : byteFrom 2000 = some 223 ∧ byteUpTo 2180 = some 244 := by decide +kernel

/-- The pointer of that loss on slot 3 of channel 265, extended by one byte: row bytes 222 to 245, and the low 38 bits of its word (05). -/
theorem test_dropout_pointer :
    (spanPointer { Lane.zero.par with ext := 1, rowMax := 486 } 0 265 3 0 1 2000 2180).map (fun p => (p.first, p.last, p.whole, p.cause, p.word % 2 ^ 38))
      = some (222, 245, false, 1, 0x43D4DE709) := by decide +kernel

/-- What the word of a pointer stands for is the pointer. -/
theorem test_pointer_word : Pointer.ofWord (Pointer.word ⟨265, 3, 1, 222, 245, false, 1, 0xABCDEF⟩) = ⟨265, 3, 1, 222, 245, false, 1, 0xABCDEF⟩ := by decide +kernel

/-- Balls of channel 265, of servo reader 16 and of HMC8_FLT (20). -/
theorem test_balls : ballName (trdBalls 265).1.1 (trdBalls 265).1.2 = "CK4" ∧ ballName (trdBalls 265).2.1 (trdBalls 265).2.2 = "CK5"
    ∧ ballName (twdBalls 265).1.1 (twdBalls 265).1.2 = "BW4" ∧ ballName (twdBalls 265).2.1 (twdBalls 265).2.2 = "BW5"
    ∧ ballName (svoBalls 16).1.1 (svoBalls 16).1.2 = "CC10" ∧ ballName (svoBalls 16).2.1 (svoBalls 16).2.2 = "CC11"
    ∧ ballName (hmcBall 8 3).1 (hmcBall 8 3).2 = "BK10" := by decide +kernel

/-- SHUTTLE_AIN at 25 mV and at 1.575 V: codes 64 and 4,032 (20). -/
theorem test_shuttle_codes : shuttleAdc 25000 = 64 ∧ shuttleAdc 1575000 = 4032 := by decide

/-- Servo readers 16 and 17 lie in module 8 and read bands S8 and S9 (02). -/
theorem test_servo_readers : servoPlace 16 = (8, 8) ∧ servoPlace 17 = (8, 9) := by decide

/-- The first IV of instance 0x6E3A_91C4 with a ceiling of 0x0730_0000 (10). -/
theorem test_iv : (State.reset.modKeys (fun k => { k with krec := some { State.reset.krec with inst := 0x6E3A91C4 }, iv := 0x07300000 })).ivBytes
    = [0x6E, 0x3A, 0x91, 0xC4, 0, 0, 0, 0, 0x07, 0x30, 0, 0] := by decide +kernel

/-- The tweak input of stream context 0x002A and sector index 0x0001_3A05 (10). -/
theorem test_tweak_input : leBytes 16 (0x2A * 2 ^ 64 + 0x13A05) = [0x05, 0x3A, 0x01, 0, 0, 0, 0, 0, 0x2A, 0, 0, 0, 0, 0, 0, 0] := by decide

/-- The descriptor of the coding example (09). -/
def exGeom : Geom := Geom.of [0x61, 0x24001300, 0x5A800000, 0x904, 0]

/-- Lines 0 and 1 of the example, the newest sample first. -/
def exHist : Hist :=
  [((4, 1), 2058), ((3, 1), 905), ((2, 1), 2055), ((1, 1), 900), ((0, 1), 2040), ((3, 0), 2060), ((2, 0), 1210), ((1, 0), 2050), ((0, 0), 1200)]

/-- Its frame: G, GB, LB and F (09). -/
theorem test_geometry : (exGeom.g, exGeom.gb, exGeom.lb, exGeom.f, exGeom.ok) = (4, 7, 16128, 78446592, true) := by decide +kernel

/-- The group of line 2 takes 33 bits: 0xF9, 0x1F, 0x32, 0xFB and a 0 bit (09). -/
theorem test_group_bits :
    (staticBits (exGeom.groupToks 5 2 0 [1220, 2070, 1216, 2064] exHist).1).length = 33
      ∧ packBits (staticBits (exGeom.groupToks 5 2 0 [1220, 2070, 1216, 2064] exHist).1) = [0xF9, 0x1F, 0x32, 0xFB, 0x00] := by
  decide +kernel

/-- The header of a first block of 256 KiB begins 0x28, 0x03, 0xFF, 0xFF (09). -/
theorem test_block_header : (blockHeader 0 5 262144 0 0 0).take 4 = [0x28, 0x03, 0xFF, 0xFF] := by decide +kernel

/-- Age factors at 55 and at 25 degrees: 6.445 and 0.1286 (11). -/
theorem test_age_factor : 1000 * ageFactor 1100 55 / 2 ^ 32 = 6445 ∧ 10000 * ageFactor 1100 25 / 2 ^ 32 = 1286 := by decide +kernel

/-- An age of 4.40 days is class 2, and a shift of −15 degrees class 1 (11). -/
theorem test_read_class : ageClass (1055 * 360) = 2 ∧ tempClass (-150) = 1 := by decide

/-- C16 with CSL_SC_PCT at 10. -/
def c16 : State := { State.reset with params := [(pkey pCSL_SC_PCT 0, 10), (pkey pCSL_CONFIG 0, 16)] }

/-- The sidecar of C16: NSZE, HMPRE and the cap without a host memory buffer (11). -/
theorem test_sidecar_size : (c16.sideLbas, c16.hmPre, c16.sideCap) = (390624768, 414238, 156249856) := by decide +kernel

/-- The bank test of C4: 0.05997 F, 0.0504 Ω (15). -/
theorem test_bank : (capOf 55940 54000 470 99470).1 / (capOf 55940 54000 470 99470).2 = 59967
    ∧ (esrOf 56000 55940 470).1 / (esrOf 56000 55940 470).2 = 50357 := by decide +kernel

/-- The estimate at initialisation: 405,000 zones less the 100 (12). -/
theorem test_zone_estimate : State.reset.zoneEstimate = 404900 := by decide +kernel

/-- SHA-256 of the empty message: the first bytes of the value its standard gives. -/
theorem test_sha256 : (sha256 []).take 4 = [0xE3, 0xB0, 0xC4, 0x42] := by decide +kernel

/-- CRC-32C of the nine digits, the check value of the code. -/
theorem test_crc32c : crc32c [0x31, 0x32, 0x33, 0x34, 0x35, 0x36, 0x37, 0x38, 0x39] = 0xE3069283 := by decide +kernel

/-- A word spells no command. -/
theorem test_no_words : decodeTableWord 32 0 = none := rfl

/-- After reset the block is off with an empty queue (01). -/
theorem test_reset : State.reset.mag.st = .off ∧ State.reset.pending = [] := by decide


end Sys2Proof.Tests
end

section
/-!
# The interleave of a DS (R48)

A channel number has three digits: its head module `c / 32`, its lane group `c % 32 / 4` and its lane `c % 4`. A row's place sets each digit by itself,
so either direction of the bijection is read off digit by digit. Only the head module depends on the slot, as a rotation modulo 16.
-/
namespace Sys2Proof.Machine

/-- The rotation of R48 by a slot is undone by the rotation of its inverse. -/
theorem rotate_unrotate_slot {r k : Nat} (hk : k < 8) : ((r + k) % 16 + 16 - k) % 16 = r % 16 := by omega

/-- The rotation of the inverse by a slot is undone by the rotation of R48. -/
theorem unrotate_rotate_slot {m k : Nat} (hk : k < 8) (hm : m < 16) : ((m + 16 - k) % 16 + k) % 16 = m := by omega

section Channel
variable {s r : Nat} (hr : r < 128)
include hr

theorem chanOf_module : chanOf s r / 32 = (r + s / 4) % 16 := by unfold chanOf; omega

theorem chanOf_laneGroup : chanOf s r % 32 / 4 = r / 16 := by unfold chanOf; omega

theorem chanOf_lt : chanOf s r < 512 := by unfold chanOf; omega

end Channel

theorem chanOf_lane (s r : Nat) : chanOf s r % 4 = s % 4 := by unfold chanOf; omega

/-- In a slot of a DS the inverse of the device is the formula of the rule. -/
theorem rowAt_eq {c k : Nat} (hk : k < 8) :
    rowAt c k = (4 * k + c % 4, 16 * (c % 32 / 4) + (c / 32 + 16 - k) % 16) := by
  unfold rowAt
  rw [Nat.mod_eq_of_lt (show k < 16 by omega)]

theorem rowAt_chanOf {s r : Nat} (hs : s < 32) (hr : r < 128) : rowAt (chanOf s r) (s / 4) = (s, r) := by
  have hk : s / 4 < 8 := by omega
  rw [rowAt_eq hk, chanOf_module hr, chanOf_laneGroup hr, chanOf_lane, rotate_unrotate_slot hk, Nat.div_add_mod, Nat.div_add_mod]

theorem rowAt_sds (c k : Nat) : (rowAt c k).1 = 4 * k + c % 4 := rfl

theorem rowAt_slot (c k : Nat) : (rowAt c k).1 / 4 = k := by rw [rowAt_sds]; omega

theorem rowAt_sds_lt (c : Nat) {k : Nat} (hk : k < 8) : (rowAt c k).1 < 32 := by rw [rowAt_sds]; omega

theorem rowAt_row_lt (c k : Nat) : (rowAt c k).2 < 128 := by unfold rowAt; omega

theorem rowAt_lane (c k : Nat) : (rowAt c k).1 % 4 = c % 4 := by rw [rowAt_sds]; omega

/-- The row's block of 16 rows is the lane group of its channel. -/
theorem rowAt_row_block (c k : Nat) : (rowAt c k).2 / 16 = c % 32 / 4 := by unfold rowAt; omega

/-- The row rotated by its slot is the head module of its channel. -/
theorem rowAt_row_rotated {c k : Nat} (hc : c < 512) (hk : k < 8) : ((rowAt c k).2 + k) % 16 = c / 32 := by
  have hm : c / 32 < 16 := by omega
  calc ((rowAt c k).2 + k) % 16
      = ((c / 32 + 16 - k) % 16 + k) % 16 := by rw [rowAt_eq hk]; omega
    _ = c / 32 := unrotate_rotate_slot hk hm

theorem chanOf_rowAt {c k : Nat} (hc : c < 512) (hk : k < 8) : chanOf (rowAt c k).1 (rowAt c k).2 = c := by
  unfold chanOf
  rw [rowAt_slot, rowAt_row_rotated hc hk, rowAt_row_block, rowAt_lane]
  omega

/-- Settles O56: each direction is read off the three digits of the channel, and the two rotations undo each other. -/
theorem rowsArePlacedByABijection : Obligations.RowsArePlacedByABijection := by
  unfold Obligations.RowsArePlacedByABijection
  constructor
  · intro s r hs hr
    have hslot : s / 4 < 8 := by omega
    exact ⟨rfl, chanOf_lt hr, hslot, rowAt_chanOf hs hr⟩
  · intro c k hc hk
    exact ⟨rowAt_eq hk, rowAt_sds_lt c hk, rowAt_row_lt c k, rowAt_slot c k, chanOf_rowAt hc hk⟩

end Sys2Proof.Machine
end

section
/-!
# Reads and retention operations of the stream FIFOs (R104, R108)

A clock that presents no word to a FIFO whose producer holds none is its read or its retention operation alone. The two obligations are then facts about
one `Fifo`: what a read with no readable word and what each row of R108's table does to it. A refused operation also raises an event, which travels
through FIFOs 80 to 87 and so leaves the FIFO it tells of alone.
-/
namespace Sys2Proof.Machine

/-! ### The FIFOs an event passes through (R467) -/

/-- Ringmaster has taken a record out of its FIFO before it routes it. -/
@[simp] theorem State.route_fifos (s : State) (evt cause : Nat) (data : Bytes) : (s.route evt cause data).fifos = s.fifos := by
  unfold State.route State.journal
  dsimp only
  split_ifs <;> simp

@[simp] theorem State.route_fifo (s : State) (evt cause : Nat) (data : Bytes) (k : Nat) : (s.route evt cause data).fifo k = s.fifo k := by
  simp [State.fifo]

theorem State.foldl_route_fifo (l : List (List FWord)) (s : State) (k : Nat) :
    (l.foldl (fun t p => t.route (eventOf p).1 (eventOf p).2.1 (eventOf p).2.2) s).fifo k = s.fifo k := by
  induction l generalizing s with
  | nil => rfl
  | cons p l ih => rw [List.foldl_cons, ih, State.route_fifo]

theorem State.routeFifo_fifo_other (s : State) {n k : Nat} (h : k ≠ n) : (s.routeFifo n).fifo k = s.fifo k := by
  unfold State.routeFifo
  rw [State.foldl_route_fifo, State.modFifo_fifo_other _ _ h]

theorem State.feed_fifo_other (s : State) (ws : List FWord) {n k : Nat} (h : k ≠ n) : (s.feed n ws).1.fifo k = s.fifo k :=
  State.modFifo_fifo_other _ _ h

theorem State.overran_fifo_other (s : State) (n : Nat) {k : Nat} (h : k ≠ 84) : (s.overran n).fifo k = s.fifo k := by
  unfold State.overran
  rw [State.routeFifo_fifo_other _ h, State.feed_fifo_other _ _ h]

/-- Of the FIFOs an event changes none below the event FIFOs. -/
theorem State.raise_fifo_of_lt (s : State) (evt cause : Nat) (data : Bytes) {k : Nat} (h : k < 80) : (s.raise evt cause data).fifo k = s.fifo k := by
  have hsrc : k ≠ 80 + evt % 2048 / 256 := by omega
  have h84 : k ≠ 84 := by omega
  unfold State.raise State.when
  dsimp only
  rw [State.routeFifo_fifo_other _ hsrc]
  split
  · rw [State.overran_fifo_other _ _ h84, State.feed_fifo_other _ _ hsrc]
  · exact State.feed_fifo_other _ _ hsrc

/-! ### End marks in a list of words -/

/-- An end-marked word is the last of the words that hold as many end marks as stand up to it. -/
theorem packetWords_of_last {ws : List FWord} {j : Nat} {w : FWord} (hj : ws[j]? = some w) (hw : w.last = true) :
    packetWords ((ws.take (j + 1)).countP (fun x => x.last)) ws = some (j + 1) := by
  induction ws generalizing j with
  | nil => simp at hj
  | cons v vs ih =>
    cases j with
    | zero =>
      obtain rfl : v = w := by simpa using hj
      simp [hw, packetWords]
    | succ j =>
      have ih := ih (j := j) (by simpa using hj)
      rw [List.take_succ_cons, List.countP_cons]
      cases hv : v.last with
      | true => simp [packetWords, hv, ih]
      | false =>
        -- the end mark at `j` is among those counted, so `packetWords` is at its case for a positive count
        obtain ⟨k, hk⟩ : ∃ k, (vs.take (j + 1)).countP (fun x => x.last) = k + 1 := by
          refine Nat.exists_eq_succ_of_ne_zero fun h0 => ?_
          rw [h0] at ih
          simp [packetWords] at ih
        rw [hk] at ih
        simp [packetWords, hv, hk, ih]

/-- The first packet ends with the first end-marked word. -/
theorem packetWords_one {ws : List FWord} {j : Nat} {w : FWord} (hj : ws[j]? = some w) (hw : w.last = true)
    (hb : ∀ i v, i < j → ws[i]? = some v → v.last = false) : packetWords 1 ws = some (j + 1) := by
  have h0 : (ws.take j).countP (fun x => x.last) = 0 := by
    refine List.countP_eq_zero.mpr fun v hv => ?_
    obtain ⟨i, hi⟩ := List.mem_iff_getElem?.mp hv
    rw [List.getElem?_take] at hi
    split at hi
    · next hij => simp [hb i v hij hi]
    · cases hi
  have h1 : (ws.take (j + 1)).countP (fun x => x.last) = 1 := by
    rw [List.take_add_one, List.countP_append, h0, hj]
    simp [hw]
  have hlast := packetWords_of_last hj hw
  rwa [h1] at hlast

theorem packetWords_eq_none {k : Nat} {ws : List FWord} (h : ws.countP (fun x => x.last) < k) : packetWords k ws = none := by
  induction ws generalizing k with
  | nil =>
    obtain ⟨k, rfl⟩ := Nat.exists_eq_succ_of_ne_zero (Nat.ne_of_gt h)
    rfl
  | cons v vs ih =>
    obtain ⟨k, rfl⟩ : ∃ k', k = k' + 1 := Nat.exists_eq_succ_of_ne_zero (by omega)
    rw [List.countP_cons] at h
    cases hv : v.last with
    | true => simp [packetWords, hv, ih (k := k) (by simpa [hv] using h)]
    | false => simp [packetWords, hv, ih (k := k + 1) (by simpa [hv] using h)]

/-! ### The rows of R108's table on one FIFO -/

theorem Fifo.advance_past_mark {f : Fifo} {j : Nat} {w : FWord} (hm : f.m ≤ j) (hp : j < f.p) (hj : f.words[j]? = some w) (hw : w.last = true)
    (hb : ∀ i v, f.m ≤ i → i < j → f.words[i]? = some v → v.last = false) : f.advance = some { f with m := j + 1 } := by
  have read (i : Nat) (hi : i ≤ j - f.m) : ((f.words.drop f.m).take (f.p - f.m))[i]? = f.words[f.m + i]? := by
    rw [List.getElem?_take_of_lt (by omega), List.getElem?_drop]
  have hfirst : packetWords 1 ((f.words.drop f.m).take (f.p - f.m)) = some (j - f.m + 1) := by
    refine packetWords_one (w := w) ?_ hw fun i v hi hv => ?_
    · rw [read _ le_rfl, Nat.add_sub_cancel' hm, hj]
    · rw [read i (by omega)] at hv
      exact hb _ v (by omega) (by omega) hv
  have hm' : f.m + (j - f.m + 1) = j + 1 := by omega
  simp only [Fifo.advance, if_neg (show f.m ≠ f.p by omega), hfirst, hm']

theorem Fifo.advance_refused {f : Fifo} (h : f.m = f.p) : f.advance = none := if_pos h

theorem Fifo.release_past_marks {f : Fifo} {j k : Nat} {w : FWord} (h1 : 1 ≤ k) (hk : k ≤ 64) (hm : j < f.m) (hj : f.words[j]? = some w)
    (hw : w.last = true) (hc : (f.words.take (j + 1)).countP (fun x => x.last) = k) :
    f.release k = some { f with words := f.words.drop (j + 1), lp := f.lp + (j + 1), m := f.m - (j + 1), p := f.p - (j + 1) } := by
  have hbehind : packetWords k (f.words.take f.m) = some (j + 1) := by
    have hlast := packetWords_of_last (ws := f.words.take f.m) (j := j) (by rw [List.getElem?_take_of_lt hm, hj]) hw
    rwa [List.take_take, min_eq_left (by omega), hc] at hlast
  have hlim : (k = 0 || 64 < k) = false := by
    simp only [Bool.or_eq_false_iff, decide_eq_false_iff_not]
    omega
  simp only [Fifo.release, hlim, hbehind, Bool.false_eq_true, if_false]

theorem Fifo.release_refused {f : Fifo} {k : Nat} (h : k = 0 ∨ 64 < k ∨ (f.words.take f.m).countP (fun x => x.last) < k) : f.release k = none := by
  unfold Fifo.release
  split
  · rfl
  · next hlim =>
    have hc : (f.words.take f.m).countP (fun x => x.last) < k := by
      simp only [Bool.or_eq_true, decide_eq_true_eq] at hlim
      omega
    rw [packetWords_eq_none hc]

theorem Fifo.retain_held {f g : Fifo} {o : RetOp} (h : f.retain o = some g) : g.held = f.held := by
  cases o with
  | advance =>
    simp only [Fifo.retain, Fifo.advance] at h
    split at h
    · cases h
    · split at h <;> cases h <;> rfl
  | rewindMark => cases h; rfl
  | release k =>
    simp only [Fifo.retain, Fifo.release] at h
    split at h
    · cases h
    · split at h <;> cases h
      rfl
  | rewindRelease => cases h; rfl

/-! ### A clock with nothing to write -/

/-- With no word waiting and none presented, the write of a clock does nothing. -/
theorem fifoPut_nothing (n depth thr : Nat) {f : Fifo} (h : f.held = []) : fifoPut n depth thr f [] = (f, false) := by
  cases f
  subst h
  rfl

/-- A read of a FIFO with no readable word and no producer waiting (R104). -/
theorem State.fifoRead_unreadable (s : State) {n : Nat} (hn : n < 96) (hh : (s.fifo n).held = []) (hr : fifoReadable n (s.fifo n) = false) :
    s.fifoRead n = s.modFifo n (fun f => { f with out := none }) := by
  refine State.fifoAct_quiet s (f := { s.fifo n with out := none }) _ hn ?_
  simp [fifoClock, Fifo.clockReset, Fifo.clockRead, fifoGet_unreadable n _ hr, fifoPut_nothing, hh]

section Retention
variable {s : State} {o : RetOp} (hh : (s.fifo 66).held = [])
include hh

/-- A retention operation that is not refused changes the pointers of FIFO 66 and nothing else (R108). -/
theorem State.retain_done {g : Fifo} (h : (s.fifo 66).retain o = some g) : s.retain o = s.modFifo 66 (fun _ => g) := by
  have hg : g.held = [] := (Fifo.retain_held h).trans hh
  refine State.fifoAct_quiet s _ (by decide) ?_
  simp [fifoClock, Fifo.clockReset, Fifo.clockRead, h, fifoPut_nothing, hg]

/-- A refused retention operation sets the refused-operation bit of FIFO 66 and raises its event with the fill (R108, R112). -/
theorem State.retain_refused (h : (s.fifo 66).retain o = none) :
    s.retain o = (s.modFifo 66 (fun f => { f with sticky := f.sticky ||| 4 })).raise 0x442 3 (leBytes 4 (s.fifo 66).fill) := by
  have hclock : fifoClock 66 (s.fifoDepth 66) (s.pni pSFQ_CT_THRESH 66) (s.fifo 66) { reset := false, op := some o, read := false, write := [] }
      = { fifo := { s.fifo 66 with sticky := (s.fifo 66).sticky ||| 4 }, overrun := false, refused := true } := by
    simp [fifoClock, Fifo.clockReset, Fifo.clockRead, h, fifoPut_nothing, hh]
  have hfill : ({ s.fifo 66 with sticky := (s.fifo 66).sticky ||| 4 } : Fifo).fill = (s.fifo 66).fill := rfl
  simp only [State.retain, State.fifoAct, hclock, State.when, State.fifoEvent, State.modFifo_fifo_same, hfill]
  rfl

/-- The answer of a retention operation that is carried out, in the form of the obligation. -/
theorem State.exists_next_retain_done {g : Fifo} (h : (s.fifo 66).retain o = some g) :
    ∃ t, (.next (s.retain o) : Out) = .next t ∧ t.fifo 66 = g ∧ t = { s with fifos := t.fifos } := by
  refine ⟨_, rfl, ?_⟩
  rw [State.retain_done hh h]
  exact ⟨State.modFifo_fifo_same _ _ _, State.modFifo_frame _ _ _⟩

/-- The answer of a refused retention operation, in the form of the obligation. -/
theorem State.exists_next_retain_refused (h : (s.fifo 66).retain o = none) :
    ∃ t, (.next (s.retain o) : Out) = .next t ∧ t.fifo 66 = { s.fifo 66 with sticky := (s.fifo 66).sticky ||| 4 }
      ∧ t = (s.modFifo 66 (fun f => { f with sticky := f.sticky ||| 4 })).raise 0x442 3 (leBytes 4 (s.fifo 66).fill) := by
  refine ⟨_, rfl, ?_, State.retain_refused hh h⟩
  rw [State.retain_refused hh h, State.raise_fifo_of_lt _ _ _ _ (by decide), State.modFifo_fifo_same]

end Retention

theorem exec_fifoRead (n : Nat) (s : State) : exec (.fifoRead n) s = .next (s.fifoRead n) := rfl

theorem exec_fifoAdvance (s : State) : exec .fifoAdvance s = .next (s.retain .advance) := rfl

theorem exec_fifoRewindMark (s : State) : exec .fifoRewindMark s = .next (s.retain .rewindMark) := rfl

theorem exec_fifoRelease (k : Nat) (s : State) : exec (.fifoRelease k) s = .next (s.retain (.release k)) := rfl

theorem exec_fifoRewindRelease (s : State) : exec .fifoRewindRelease s = .next (s.retain .rewindRelease) := rfl

/-- Settles O54: the read replaces the word delivered, in that FIFO alone. -/
theorem notReadableReadChangesNothing : Obligations.NotReadableReadChangesNothing := by
  unfold Obligations.NotReadableReadChangesNothing
  intro s n hn hh hr
  refine ⟨_, exec_fifoRead n s, ?_⟩
  rw [State.fifoRead_unreadable s (of_decide_eq_true hn) hh hr]
  exact ⟨State.modFifo_fifo_same _ _ _, fun k hk => State.modFifo_fifo_other _ _ hk, State.modFifo_frame _ _ _⟩

/-- Settles O55: each row of R108's table is the operation on FIFO 66 by itself, carried out or refused. -/
theorem retentionOperationsActAsTheTableSays : Obligations.RetentionOperationsActAsTheTableSays := by
  unfold Obligations.RetentionOperationsActAsTheTableSays
  intro s hh
  simp only [exec_fifoAdvance, exec_fifoRewindMark, exec_fifoRelease, exec_fifoRewindRelease]
  refine ⟨fun j hm hp _ hb hj => ?_, State.exists_next_retain_done hh rfl, State.exists_next_retain_done hh rfl,
    fun k j w h1 hk hm hj hw hc => State.exists_next_retain_done hh (Fifo.release_past_marks h1 hk hm hj hw hc),
    fun h => State.exists_next_retain_refused hh (Fifo.advance_refused h),
    fun k h => State.exists_next_retain_refused hh (Fifo.release_refused h)⟩
  obtain ⟨w, hj, hw⟩ := Option.map_eq_some_iff.mp hj
  exact State.exists_next_retain_done hh (Fifo.advance_past_mark hm hp hj hw hb)

end Sys2Proof.Machine
end

section
/-!
# Which way an allocation takes (R386)

The allowed ways stand in rising order, so a search through them meets the lowest-numbered way without a valid line first. The order matrix holds one
bit for each pair of ways, so of two ways exactly one is the more recent: at most one allowed way is less recent than all the others, and a search
finds that one wherever it stands.
-/
namespace Sys2Proof.Machine

/-! ### The search through a list of ways -/

/-- A search ends at the one element that meets its test. -/
theorem find?_eq_some_of_unique {α : Type} {l : List α} {p : α → Bool} {v : α} (hv : v ∈ l) (hp : p v = true)
    (huniq : ∀ u ∈ l, p u = true → u = v) : l.find? p = some v := by
  obtain ⟨u, hu⟩ := Option.isSome_iff_exists.mp (List.find?_isSome.mpr ⟨v, hv, hp⟩)
  rw [hu, huniq u (List.mem_of_find?_eq_some hu) (List.find?_some hu)]

/-- One bit decides between two ways: neither is more recent than a way that is more recent than it. -/
theorem newerWay_asymm {o u v : Nat} (hne : u ≠ v) (h : newerWay o u v = true) : newerWay o v u = false := by
  obtain hlt | hgt := Nat.lt_or_gt_of_ne hne
  · simpa [newerWay, hlt, Nat.lt_asymm hlt] using h
  · simpa [newerWay, hgt, Nat.lt_asymm hgt] using h

/-! ### The choice of a set -/

section Choice
variable {c : CSet} {ways : List Nat} {v : Nat}

/-- A way without a valid line is chosen before any other. -/
theorem CSet.choose_of_find?_invalid (h : ways.find? (fun w => (NMap.find? c.lines w).isNone) = some v) : c.choose ways = some v := by
  simp only [CSet.choose, h]

/-- Where every way holds a valid line the order alone decides. -/
theorem CSet.choose_of_all_valid (h : ∀ u ∈ ways, (NMap.find? c.lines u).isSome = true) :
    c.choose ways = ways.find? (fun v => ways.all (fun u => u = v || newerWay c.order u v)) := by
  have hnone : ways.find? (fun w => (NMap.find? c.lines w).isNone) = none := by
    rw [List.find?_eq_none]
    intro u hu
    simp [Option.ne_none_iff_isSome.mpr (h u hu)]
  simp only [CSet.choose, hnone]

/-- Where every way holds a valid line the least recent way is chosen: no second way is less recent than all the others. -/
theorem CSet.choose_least_recent (hv : v ∈ ways) (hvalid : ∀ u ∈ ways, (NMap.find? c.lines u).isSome = true)
    (hleast : ∀ u ∈ ways, u ≠ v → newerWay c.order u v = true) : c.choose ways = some v := by
  rw [CSet.choose_of_all_valid hvalid]
  refine find?_eq_some_of_unique hv ?_ fun u hu hall => ?_
  · simpa [or_iff_not_imp_left] using hleast
  · by_contra hne
    have hvu : newerWay c.order v u = true := by simpa [Ne.symm hne] using List.all_eq_true.mp hall v hv
    rw [newerWay_asymm hne (hleast u hu hne)] at hvu
    exact Bool.false_ne_true hvu

end Choice

/-! ### The allowed ways of a requester -/

theorem State.mem_allowedWays (s : State) (q w : Nat) :
    w ∈ s.allowedWays q ↔ w < 16 ∧ Nat.testBit s.cache.ways w = true ∧ Nat.testBit (s.pni pCCA_WMASK q) w = true := by
  simp [State.allowedWays]

/-- A search through the allowed ways ends at the lowest-numbered one that meets its test. -/
theorem State.find?_allowedWays {s : State} {q w : Nat} {p : Nat → Bool} (hw : w ∈ s.allowedWays q) (hp : p w = true)
    (hmin : ∀ u ∈ s.allowedWays q, p u = true → w ≤ u) : (s.allowedWays q).find? p = some w := by
  have hsorted : (s.allowedWays q).Pairwise (· < ·) := List.pairwise_lt_range.filter _
  obtain ⟨before, after, hsplit⟩ := List.append_of_mem hw
  rw [List.find?_eq_some_iff_append]
  refine ⟨hp, before, after, hsplit, fun u hu => ?_⟩
  rw [hsplit] at hsorted hmin
  obtain ⟨-, -, hbefore⟩ := List.pairwise_append.mp hsorted
  have hlt : u < w := hbefore u hu w List.mem_cons_self
  have hnot : ¬ p u = true := fun hpu => Nat.not_le.mpr hlt (hmin u (by simp [hu]) hpu)
  simpa using hnot

/-- Of the allowed ways without a valid line the lowest-numbered is chosen. -/
theorem State.choose_lowest_invalid {s : State} {q w : Nat} {c : CSet} (hw : w ∈ s.allowedWays q) (hinv : NMap.find? c.lines w = none)
    (hmin : ∀ u ∈ s.allowedWays q, NMap.find? c.lines u = none → w ≤ u) : c.choose (s.allowedWays q) = some w :=
  CSet.choose_of_find?_invalid
    (State.find?_allowedWays hw (Option.isNone_iff_eq_none.mpr hinv) fun u hu h => hmin u hu (Option.isNone_iff_eq_none.mp h))

/-! ### A requester with no allowed way, and a hit -/

section NonAllocating
variable {s : State} {r : CReq} (hnone : (s.bumpPv pCCA_MISSES r.q 1).allowedWays r.q = [])
include hnone

theorem State.startMiss_read_nonAllocating (hrd : r.wr = false) :
    s.startMiss r = (s.bumpPv pCCA_MISSES r.q 1).cacheOut (((s.bumpPv pCCA_MISSES r.q 1).bufLine r.line).drop (r.addr % 64)) := by
  simp [State.startMiss, hnone, hrd]

theorem State.startMiss_write_nonAllocating (hwr : r.wr = true) :
    s.startMiss r = (s.bumpPv pCCA_MISSES r.q 1).putLine r.line
      (lineWrite ((s.bumpPv pCCA_MISSES r.q 1).bufLine r.line) (r.addr % 64) r.data) := by
  simp [State.startMiss, hnone, hwr]

end NonAllocating

/-- A hit in a way of the set, whatever ways the requester may allocate into. -/
theorem State.serveHit_way {s : State} {r : CReq} {w : Nat} {x : CLine} (hway : s.lookup r.line = .way w)
    (hline : NMap.find? (s.cset r.line).lines w = some x) :
    s.serveHit r = some ((((s.useLine r x).2.install r.line w (s.useLine r x).1 true).2).bumpPv pCCA_HITS r.q 1) := by
  simp only [State.serveHit, hway, hline, Option.map_some]

/-- Settles O57: the search of R386 meets the lowest way without a line, or the one least recent way; a miss without an allowed way leaves the sets alone. -/
theorem allocationTakesTheRuledWay : Obligations.AllocationTakesTheRuledWay := by
  unfold Obligations.AllocationTakesTheRuledWay
  exact ⟨State.mem_allowedWays,
    fun _ _ _ _ => State.choose_lowest_invalid,
    fun _ _ _ _ => CSet.choose_least_recent,
    fun _ _ hnone => ⟨State.startMiss_read_nonAllocating hnone, State.startMiss_write_nonAllocating hnone⟩,
    fun _ _ _ _ => State.serveHit_way⟩

end Sys2Proof.Machine
end

section
/-!
# What every command keeps: the queue, the fuses, the canonical forms

Every effect of a command is a chain of the named operations of the model, and each operation leaves the queue of waiting commands alone, keeps the keys
of every parameter layer rising and the buffer canonical, and leaves the fuses alone; only the step of BOOT that sets up the patch package blows fuses.
`State.Keeps` says this of a state relative to the one a command began with. It is proved once for each operation, in the form "what is kept so far is
kept by one more operation", so the proof for a command repeats the command's own chain. What is known of the fuses is a parameter: their old number for
a command other than BOOT_SEQUENCE, and that they rise to a legal number for any.
-/
namespace Sys2Proof.Machine

set_option Elab.async false

/-- What `t` keeps of `s`, with `P` known of the fuses blown. -/
structure State.Keeps (P : Nat → Prop) (s t : State) : Prop where
  queue : t.pending = s.pending
  fuses : P t.nor.fuses
  params : s.ParamsRising → t.ParamsRising
  buffer : s.BufferCanonical → t.BufferCanonical

/-- A command that answers a next state keeps. -/
def State.KeepsOut (P : Nat → Prop) (s : State) (o : Out) : Prop := ∀ t, o = .next t → s.Keeps P t

/-- The state that `π` finds in an answer, when there is one, keeps. -/
def State.KeepsSome {α : Type} (P : Nat → Prop) (s : State) (π : α → State) (o : Option α) : Prop := ∀ a, o = some a → s.Keeps P (π a)

section Control
variable {α β : Type} {P : Nat → Prop} {s t u : State} {c : Prop} [Decidable c]

theorem State.Keeps.refl (hP : P s.nor.fuses) : s.Keeps P s := ⟨rfl, hP, id, id⟩

/-- A change of other parts of the state. -/
theorem State.Keeps.frame (h : s.Keeps P t) (hq : u.pending = t.pending := by rfl) (hf : u.nor.fuses = t.nor.fuses := by rfl)
    (h1 : u.params = t.params := by rfl) (h2 : u.staged = t.staged := by rfl) (h3 : u.pend = t.pend := by rfl) (h4 : u.wrote = t.wrote := by rfl)
    (h5 : u.presets = t.presets := by rfl) (hm : u.cache.mem = t.cache.mem := by rfl) : s.Keeps P u where
  queue := hq.trans h.queue
  fuses := hf ▸ h.fuses
  params hs := by simpa only [State.ParamsRising, h1, h2, h3, h4, h5] using h.params hs
  buffer hs := by simpa only [State.BufferCanonical, hm] using h.buffer hs

/-- A change of parameter layers that leaves their keys rising. -/
theorem State.Keeps.layers (h : s.Keeps P t) (hr : t.ParamsRising → u.ParamsRising) (hq : u.pending = t.pending := by rfl)
    (hf : u.nor.fuses = t.nor.fuses := by rfl) (hm : u.cache.mem = t.cache.mem := by rfl) : s.Keeps P u where
  queue := hq.trans h.queue
  fuses := hf ▸ h.fuses
  params hs := hr (h.params hs)
  buffer hs := by simpa only [State.BufferCanonical, hm] using h.buffer hs

theorem State.Keeps.ite (ht : s.Keeps P t) (hu : s.Keeps P u) : s.Keeps P (if c then t else u) := by split <;> assumption

theorem State.Keeps.when (h : s.Keeps P t) {b : Bool} {f : State → State} (hf : ∀ v, s.Keeps P v → s.Keeps P (f v)) : s.Keeps P (t.when b f) :=
  .ite (hf _ h) h

theorem State.Keeps.foldl (h : s.Keeps P t) {l : List α} {f : State → α → State} (hf : ∀ v, s.Keeps P v → ∀ a, s.Keeps P (f v a)) :
    s.Keeps P (l.foldl f t) := by
  induction l generalizing t with
  | nil => exact h
  | cons a l ih => exact ih (hf _ h a)

/-- A fold that carries a value beside the state. -/
theorem State.Keeps.foldl_snd {b : β} (h : s.Keeps P t) {l : List α} {f : β × State → α → β × State}
    (hf : ∀ v, s.Keeps P v.2 → ∀ a, s.Keeps P (f v a).2) : s.Keeps P (l.foldl f (b, t)).2 := by
  induction l generalizing b t with
  | nil => exact h
  | cons a l ih => exact ih (hf _ h a)

theorem State.Keeps.elim {o : Option α} {f : α → State} (h : s.Keeps P t) (hf : ∀ a, s.Keeps P (f a)) : s.Keeps P (o.elim t f) := by
  cases o with
  | none => exact h
  | some a => exact hf a

theorem State.KeepsOut.next (h : s.Keeps P t) : s.KeepsOut P (.next t) := fun _ e => by cases e; exact h

theorem State.KeepsOut.ite {o q : Out} (ho : s.KeepsOut P o) (hq : s.KeepsOut P q) : s.KeepsOut P (if c then o else q) := by
  split <;> assumption

theorem State.KeepsSome.none {π : α → State} : s.KeepsSome P π none := fun _ e => nomatch e

theorem State.KeepsSome.some {π : α → State} {a : α} (h : s.Keeps P (π a)) : s.KeepsSome P π (some a) := fun _ e => by cases e; exact h

theorem State.KeepsSome.some_snd {a : α} (h : s.Keeps P t) : s.KeepsSome P Prod.snd (Option.some (a, t)) := .some h

theorem State.KeepsSome.ite {π : α → State} {o q : Option α} (ho : s.KeepsSome P π o) (hq : s.KeepsSome P π q) :
    s.KeepsSome P π (if c then o else q) := by
  split <;> assumption

theorem State.KeepsSome.map_of {π : β → State} {o : Option α} {f : α → β} (hf : ∀ a, s.Keeps P (π (f a))) : s.KeepsSome P π (o.map f) := by
  cases o with
  | none => exact .none
  | some a => exact .some (hf a)

theorem State.KeepsSome.map {π : α → State} {ρ : β → State} {o : Option α} {f : α → β} (ho : s.KeepsSome P π o)
    (hf : ∀ a, s.Keeps P (π a) → s.Keeps P (ρ (f a))) : s.KeepsSome P ρ (o.map f) := by
  cases o with
  | none => exact .none
  | some a => exact .some (hf a (ho a rfl))

theorem State.KeepsSome.bind {π : α → State} {ρ : β → State} {o : Option α} {f : α → Option β} (ho : s.KeepsSome P π o)
    (hf : ∀ a, s.Keeps P (π a) → s.KeepsSome P ρ (f a)) : s.KeepsSome P ρ (o.bind f) := by
  cases o with
  | none => exact .none
  | some a => exact hf a (ho a rfl)

theorem State.KeepsSome.foldl {π : β → State} {o : Option β} (ho : s.KeepsSome P π o) {l : List α} {f : Option β → α → Option β}
    (hf : ∀ v, s.KeepsSome P π v → ∀ a, s.KeepsSome P π (f v a)) : s.KeepsSome P π (l.foldl f o) := by
  induction l generalizing o with
  | nil => exact ho
  | cons a l ih => exact ih (hf _ ho a)

theorem State.Keeps.getD {o : Option State} (ho : s.KeepsSome P id o) (h : s.Keeps P t) : s.Keeps P (o.getD t) := by
  cases o with
  | none => exact h
  | some u => exact ho u rfl

/-- The staged values are dropped. -/
theorem State.Keeps.dropStaged (h : s.Keeps P t) : s.Keeps P { t with staged := [] } := h.layers fun ⟨h1, _, h3⟩ => ⟨h1, rfl, h3⟩

/-- A change of the buffer that leaves it canonical. -/
theorem State.Keeps.modBuffer (h : s.Keeps P t) {f : Cache → Cache}
    (hf : NMap.wf zeroLine t.cache.mem = true → NMap.wf zeroLine (f t.cache).mem = true) : s.Keeps P (t.modCache f) where
  queue := h.queue
  fuses := h.fuses
  params := h.params
  buffer hs := hf (h.buffer hs)

end Control

/-- What is written back leaves the buffer canonical. -/
theorem Cache.wf_writeBack {c : Cache} (hit : Nat → Nat → Bool) (vict : Nat → Bool) (inval : Bool) (h : NMap.wf zeroLine c.mem = true) :
    NMap.wf zeroLine (c.writeBack hit vict inval).mem = true := by
  have fold {α : Type} (f : NMap Bytes → α → NMap Bytes) (hf : ∀ m a, NMap.wf zeroLine m = true → NMap.wf zeroLine (f m a) = true)
      (l : List α) (m : NMap Bytes) (hm : NMap.wf zeroLine m = true) : NMap.wf zeroLine (l.foldl f m) = true :=
    List.foldlRecOn l f hm fun m hm a _ => hf m a hm
  have put (b : Bool) (m : NMap Bytes) (l : Nat) (d : Bytes) (hm : NMap.wf zeroLine m = true) :
      NMap.wf zeroLine (if b then NMap.set zeroLine m l d else m) = true := by
    split
    · exact NMap.wf_set _ _ hm
    · exact hm
  have hsets := fold _ (fun m (e : Nat × CSet) hm => fold _ (fun m (x : Nat × CLine) hm =>
    put (hit (lineAt e.1 x.2.tag) x.1 && x.2.dirty) m (lineAt e.1 x.2.tag) x.2.data hm) e.2.lines m hm) c.sets c.mem h
  exact fold _ (fun m (e : Nat × List Victim) hm => fold _ (fun m (v : Victim) hm =>
    put (vict v.lineNo && v.line.dirty) m v.lineNo v.line.data hm) e.2 m hm) c.vict _ hsets

end Sys2Proof.Machine
end

section
/-!
# `State.Keeps`, operation by operation

In the order of the model's definitions, one lemma for each, whose proof follows the definition.
-/
namespace Sys2Proof.Machine

set_option Elab.async false

/-! ### Ops -/

section OfOps
variable {P : Nat → Prop} {s t : State}

theorem State.Keeps.modMag (h : s.Keeps P t) {f : Mag → Mag} : s.Keeps P (t.modMag f) := h.frame

theorem State.Keeps.modNv (h : s.Keeps P t) {f : Nvme → Nvme} : s.Keeps P (t.modNv f) := h.frame

theorem State.Keeps.modSp (h : s.Keeps P t) {f : Spool → Spool} : s.Keeps P (t.modSp f) := h.frame

theorem State.Keeps.modRc (h : s.Keeps P t) {f : ReadCh → ReadCh} : s.Keeps P (t.modRc f) := h.frame

theorem State.Keeps.modCtl (h : s.Keeps P t) {f : Ctl → Ctl} : s.Keeps P (t.modCtl f) := h.frame

theorem State.Keeps.modKeys (h : s.Keeps P t) {f : Keys → Keys} : s.Keeps P (t.modKeys f) := h.frame

theorem State.Keeps.modCar (h : s.Keeps P t) {f : Car → Car} : s.Keeps P (t.modCar f) := h.frame

theorem State.Keeps.modComp (h : s.Keeps P t) {f : Comp → Comp} : s.Keeps P (t.modComp f) := h.frame

theorem State.Keeps.modCache (h : s.Keeps P t) {f : Cache → Cache} (hf : (f t.cache).mem = t.cache.mem :=
  by rfl) : s.Keeps P (t.modCache f) := h.frame (hm := hf)

theorem State.Keeps.modPw (h : s.Keeps P t) {f : Power → Power} : s.Keeps P (t.modPw f) := h.frame

theorem State.Keeps.modNor (h : s.Keeps P t) {f : Nor → Nor} (hf : (f t.nor).fuses = t.nor.fuses :=
  by rfl) : s.Keeps P (t.modNor f) := h.frame (hf := hf)

theorem State.Keeps.modEv (h : s.Keeps P t) {f : Events → Events} : s.Keeps P (t.modEv f) := h.frame

theorem State.Keeps.modFifos (h : s.Keeps P t) {f : NMap Fifo → NMap Fifo} : s.Keeps P (t.modFifos f) := h.frame

theorem State.Keeps.setElem (h : s.Keeps P t) {pid i e : Nat} : s.Keeps P (t.setElem pid i e) := by
  refine h.layers fun ⟨h1, h2⟩ => ⟨?_, h2⟩
  unfold State.setElem
  split
  · exact NMap.rising_del _ h1
  · exact NMap.rising_put _ _ h1

theorem State.Keeps.setPv (h : s.Keeps P t) {pid i : Nat} {v : Int} : s.Keeps P (t.setPv pid i v) := by
  unfold State.setPv
  split
  · exact h.setElem
  · exact h

theorem State.Keeps.applyPend (h : s.Keeps P t) {p : Nat → Nat → Bool} : s.Keeps P (t.applyPend p) := by
  unfold State.applyPend
  extract_lets now u
  have hu : s.Keeps P u := h.foldl fun _ h _ => h.setElem
  have hpend : t.ParamsRising → NMap.rising (t.pend.filter fun e => !p (e.1 / 2 ^ 20) (e.1 % 2 ^ 20)) = true :=
    fun ht => NMap.rising_filter _ ht.2.2.1
  split
  · exact h
  · exact
      { queue := hu.queue
        fuses := hu.fuses
        params := fun hs => ⟨(hu.params hs).1, (hu.params hs).2.1, hpend (h.params hs), (hu.params hs).2.2.2⟩
        buffer := hu.buffer }

theorem State.Keeps.bumpPv (h : s.Keeps P t) {pid i n : Nat} : s.Keeps P (t.bumpPv pid i n) := by
  unfold State.bumpPv
  split
  · exact h.setElem
  · exact h

theorem State.Keeps.drawn (h : s.Keeps P t) {n : Nat} : s.Keeps P (t.drawn n) := h.frame

theorem State.Keeps.enter (h : s.Keeps P t) {m : MagState} : s.Keeps P (t.enter m) := h.modMag

theorem State.Keeps.modFifo (h : s.Keeps P t) {n : Nat} {f : Fifo → Fifo} : s.Keeps P (t.modFifo n f) := h.modFifos

theorem State.Keeps.feed (h : s.Keeps P t) {n : Nat} {ws : List FWord} : s.Keeps P (t.feed n ws).1 := h.modFifo

theorem State.Keeps.pass (h : s.Keeps P t) {n k high : Nat} : s.Keeps P (t.pass n k high) := h.modFifo

theorem State.Keeps.passBytes (h : s.Keeps P t) {n b : Nat} : s.Keeps P (t.passBytes n b) := h.pass

theorem State.Keeps.post (h : s.Keeps P t) {seq : Nat} {e : Cqe} : s.Keeps P (t.post seq e) := by
  unfold State.post
  split
  · exact h
  · split
    · exact .ite h.modNv h.modNv
    · exact h.modNv

theorem State.Keeps.complete (h : s.Keeps P t) {seq : Nat} {st : Status} {dw0 dw1 : Nat} {data : Bytes} : s.Keeps P (t.complete seq st dw0 dw1
  data) := by
  unfold State.complete
  split
  · exact h.post
  · exact h

theorem State.Keeps.done (h : s.Keeps P t) {seq : Nat} {st : Status} : s.Keeps P (t.done seq st) := h.complete

theorem State.Keeps.doneAll (h : s.Keeps P t) {seqs : List Nat} {st : Status} : s.Keeps P (t.doneAll seqs st) := h.foldl (fun _ h _ => h.done)

theorem State.Keeps.asyncEvent (h : s.Keeps P t) {ty info log : Nat} : s.Keeps P (t.asyncEvent ty info log) := by
  unfold State.asyncEvent
  extract_lets s1 n
  have hs1 : s.Keeps P s1 := .ite h.modNv h
  split
  · exact hs1
  · split
    · exact hs1.modNv.complete
    · exact hs1.modNv

theorem State.Keeps.journal (h : s.Keeps P t) {evt cause : Nat} {notice : Bool} {data : Bytes} : s.Keeps P (t.journal evt cause notice data) := by
  unfold State.journal
  exact h.modEv

theorem State.Keeps.route (h : s.Keeps P t) {evt cause : Nat} {data : Bytes} : s.Keeps P (t.route evt cause data) :=
  .ite (.modNv (.ite (.ite (.ite h.modEv.modEv.journal.asyncEvent h.modEv.modEv.journal) h.modEv.modEv) h.modEv)) (.ite (.ite (.ite
    h.modEv.modEv.journal.asyncEvent h.modEv.modEv.journal) h.modEv.modEv) h.modEv)

theorem State.Keeps.routeFifo (h : s.Keeps P t) {n : Nat} : s.Keeps P (t.routeFifo n) := h.modFifo.foldl (fun _ h _ => h.route)

theorem State.Keeps.overran (h : s.Keeps P t) {n : Nat} : s.Keeps P (t.overran n) := h.feed.routeFifo

theorem State.Keeps.raise (h : s.Keeps P t) {evt cause : Nat} {data : Bytes} : s.Keeps P (t.raise evt cause data) :=
  (h.feed.when (fun _ h => h.overran)).routeFifo

theorem State.Keeps.noteFault (h : s.Keeps P t) {cls : Nat} : s.Keeps P (t.noteFault cls) := h.modEv

theorem State.Keeps.ringAdd (h : s.Keeps P t) {kind : Nat} {data : Bytes} : s.Keeps P (t.ringAdd kind data) := by
  unfold State.ringAdd
  exact h.modPw

theorem State.Keeps.fetchFrom (h : s.Keeps P t) {qid : Nat} {q : Sq} : s.Keeps P (t.fetchFrom qid q) := h.modNv

theorem State.Keeps.begin (h : s.Keeps P t) {h' : Hdr} : s.KeepsSome P Prod.snd (t.begin h') := by
  unfold State.begin
  dsimp only
  split
  · exact .ite (.some_snd h.modNv) .none
  · split
    · refine .ite (.map_of fun _ => ?_) .none
      dsimp only
      exact h.fetchFrom.modNv
    · exact .none

theorem State.Keeps.adminCmd (h : s.Keeps P t) {h' : Hdr} {safe : Bool} {body : Nat → State → State} (hbody : ∀ a1 u, s.Keeps P u → s.Keeps P (body
  a1 u)) : s.Keeps P (t.adminCmd h' safe body) := by
  unfold State.adminCmd
  split
  · exact .ite (h.begin _ ‹_›).done (.ite (h.begin _ ‹_›).done (hbody _ _ (h.begin _ ‹_›)))
  · exact h

theorem State.Keeps.ioCmd (h : s.Keeps P t) {h' : Hdr} {body : Nat → State → State} (hbody : ∀ a1 u, s.Keeps P u → s.Keeps P (body a1 u)) : s.Keeps
  P (t.ioCmd h' body) := by
  unfold State.ioCmd
  split
  · exact .ite (h.begin _ ‹_›).done (.ite (h.begin _ ‹_›).done (.ite (h.begin _ ‹_›).done (hbody _ _ (h.begin _ ‹_›))))
  · exact h

theorem State.Keeps.norWrite (h : s.Keeps P t) {area : Nat} {data : Bytes} {act : NorAct} : s.Keeps P (t.norWrite area data act) := .ite h h.modNor

end OfOps

/-! ### CtlOps -/

section OfCtlOps
variable {P : Nat → Prop} {s t : State}

theorem State.Keeps.modSlot (h : s.Keeps P t) {n : Nat} {f : Slot → Slot} : s.Keeps P (t.modSlot n f) := h.modCtl

theorem State.Keeps.modLink (h : s.Keeps P t) {k : Nat} {f : Link → Link} : s.Keeps P (t.modLink k f) := h.modCtl

theorem State.Keeps.modEnc (h : s.Keeps P t) {r : Nat} {f : Encoder → Encoder} : s.Keeps P (t.modEnc r f) := h.modCtl

theorem State.Keeps.runAux (h : s.Keeps P t) {n mode : Nat} {x : Int} : s.Keeps P (t.runAux n mode x).2 := by
  refine h.foldl_snd fun a h k => ?_
  dsimp only
  split
  · dsimp only
    exact h.modSlot.bumpPv
  · exact h

theorem State.Keeps.putOut (h : s.Keeps P t) {n : Nat} {u : Int} : s.Keeps P (t.putOut n u) :=
  .ite h.modSlot.modLink (.ite h.modSlot.modLink h.modSlot)

theorem State.Keeps.holdOut (h : s.Keeps P t) {n : Nat} : s.Keeps P (t.holdOut n) := .ite h.putOut (.ite h.putOut h)

theorem State.Keeps.traceHit (h : s.Keeps P t) {bit : Nat} : s.Keeps P (t.traceHit bit) := h.modCtl

theorem State.Keeps.runSlot (h : s.Keeps P t) {n : Nat} : s.Keeps P (t.runSlot n) :=
  .putOut (.ite h.runAux.bumpPv.runAux.modSlot.bumpPv h.runAux.bumpPv.runAux.modSlot)

theorem State.Keeps.arm (h : s.Keeps P t) {n : Nat} : s.Keeps P (t.arm n) := h.modSlot.foldl (fun _ h _ => .ite h.modSlot h)

theorem State.Keeps.armUnlessHeld (h : s.Keeps P t) {n : Nat} : s.Keeps P (t.armUnlessHeld n) := .ite h h.arm

theorem State.Keeps.slotOff (h : s.Keeps P t) {n : Nat} : s.Keeps P (t.slotOff n) := h.modSlot

theorem State.Keeps.toHold (h : s.Keeps P t) {n cause : Nat} : s.Keeps P (t.toHold n cause) := h.modSlot.holdOut.raise

theorem State.Keeps.endCopy (h : s.Keeps P t) : s.Keeps P t.endCopy := .ite h.modSp.modCtl h

theorem State.Keeps.stopTape (h : s.Keeps P t) {after : AfterStop} {fast : Bool} : s.Keeps P (t.stopTape after fast) := .ite h h.modCtl

theorem State.Keeps.declare (h : s.Keeps P t) {n cause : Nat} : s.Keeps P (t.declare n cause) := by
  unfold State.declare
  split
  · exact h
  · extract_lets t1 u v
    have ht : s.Keeps P t1 := h.traceHit.noteFault
    have hu : s.Keeps P u := by
      dsimp only [u]
      split
      · exact ht.modSlot
      · exact ht.toHold
    have hv : s.Keeps P v := hu.endCopy.raise.modCtl
    exact .ite hu.modCtl (.ite hv hv.stopTape)

theorem State.Keeps.noteMotion (h : s.Keeps P t) : s.Keeps P t.noteMotion := h.modCtl

theorem State.Keeps.rearm (h : s.Keeps P t) {n : Nat} {open_ : Bool} : s.Keeps P (t.rearm n open_).2 := by
  unfold State.rearm
  dsimp only
  split
  · exact h
  · split
    · exact h.modSlot.raise
    · exact h.arm

theorem State.Keeps.limiter (h : s.Keeps P t) : s.Keeps P t.limiter :=
  .ite h.modCtl (.ite h.modCtl (.ite (.traceHit (.bumpPv (.ite h.modCtl h.modCtl.noteMotion))) (.ite h.modCtl h.modCtl.noteMotion)))

theorem State.Keeps.traceArmWith (h : s.Keeps P t) {mask : Nat} : s.Keeps P (t.traceArmWith mask) := h.modCtl

theorem State.Keeps.traceArm (h : s.Keeps P t) : s.Keeps P t.traceArm := h.traceArmWith

end OfCtlOps

/-! ### KeyOps -/

section OfKeyOps
variable {P : Nat → Prop} {s t : State}

theorem State.Keeps.loadSlot (h : s.Keeps P t) {i : Nat} {key : Bytes} {id : Nat} : s.Keeps P (t.loadSlot i key id) := h.modKeys

theorem State.Keeps.clearSlot (h : s.Keeps P t) {i : Nat} : s.Keeps P (t.clearSlot i) := h.modKeys

theorem State.Keeps.loadWrapped (h : s.Keeps P t) {i : Nat} {kek w : Bytes} {skip cause : Nat} : s.Keeps P (t.loadWrapped i kek w skip cause) := by
  unfold State.loadWrapped
  split
  · exact h.clearSlot
  · split
    · exact h.loadSlot
    · exact h.raise

theorem State.Keeps.loadRecordSlots (h : s.Keeps P t) : s.Keeps P t.loadRecordSlots := by
  unfold State.loadRecordSlots
  exact h.loadSlot.loadWrapped.loadWrapped.loadWrapped

theorem State.Keeps.keySlotLoad (h : s.Keeps P t) {keyId : Nat} : s.Keeps P (t.keySlotLoad keyId) := by
  unfold State.keySlotLoad
  split
  · exact h.modKeys
  · split
    · exact h
    · split
      · exact h
      · split
        · exact h.loadSlot
        · exact h.raise

theorem State.Keeps.takeIv (h : s.Keeps P t) : s.KeepsSome P Prod.snd t.takeIv := .ite (.some_snd h.modKeys) .none

theorem State.Keeps.newMediaKey (h : s.Keeps P t) {take : Nat} : s.Keeps P (t.newMediaKey take).2 := h.drawn.modKeys.keySlotLoad

theorem State.Keeps.newMacKey (h : s.Keeps P t) : s.Keeps P t.newMacKey := h.drawn.modKeys.loadSlot

theorem State.Keeps.loadMacSlots (h : s.Keeps P t) : s.Keeps P t.loadMacSlots := by
  unfold State.loadMacSlots
  refine h.foldl (fun _ h _ => ?_)
  split
  · exact h.loadSlot
  · exact h.raise

end OfKeyOps

/-! ### CarOps -/

section OfCarOps
variable {P : Nat → Prop} {s t : State}

theorem State.Keeps.modBlock (h : s.Keeps P t) {d b : Nat} {f : Block → Block} : s.Keeps P (t.modBlock d b f) := h.modCar

theorem State.Keeps.modDie (h : s.Keeps P t) {d : Nat} {f : Die → Die} : s.Keeps P (t.modDie d f) := h.modCar

theorem State.Keeps.takePlace (h : s.Keeps P t) {d b : Nat} {p n : Nat} {fresh : Bool} {space : Nat} : s.Keeps P (t.takePlace d b p n fresh space)
    :=
  h.modBlock

theorem State.Keeps.newUnit (h : s.Keeps P t) {k : UKind} {laddr : Nat} {data : Bytes} {lbas : List Nat} :
    s.KeepsSome P Prod.snd (t.newUnit k laddr data lbas) := by
  unfold State.newUnit
  split
  · split
    · refine .map_of fun _ => ?_
      dsimp only
      exact h.pass.takePlace.modCar
    · exact .none
  · exact .none

theorem State.Keeps.reprogram (h : s.Keeps P t) {id : Nat} : s.Keeps P (t.reprogram id) := by
  unfold State.reprogram
  split
  · split
    · split
      · split
        · exact h.takePlace.modCar
        · exact h
      · exact h
    · exact h
  · exact h

theorem State.Keeps.commitTo (h : s.Keeps P t) {index : Bool} {recs : List JRec} {after : List Nat} : s.Keeps P (t.commitTo index recs after) :=
  .ite h h.modCar

theorem State.Keeps.mapCommit (h : s.Keeps P t) {recs : List JRec} {after : List Nat} : s.Keeps P (t.mapCommit recs after) := h.commitTo

theorem State.Keeps.indexCommit (h : s.Keeps P t) {recs : List JRec} : s.Keeps P (t.indexCommit recs) := h.commitTo

theorem State.Keeps.appendImage (h : s.Keeps P t) {q : Nat} {img : DsImage} : s.KeepsSome P id (t.appendImage q img) :=
  .map (.foldl (.some h) (fun _ h _ => .bind h (fun _ h1 => .map h1.newUnit (fun _ h2 => h2.mapCommit)))) (fun _ h => h.modCar.modSp.mapCommit)

theorem State.Keeps.trimLog (h : s.Keeps P t) : s.Keeps P t.trimLog := .ite h h.modCar.mapCommit

theorem State.Keeps.flushRun (h : s.Keeps P t) {start : Nat} {blocks : List Bytes} : s.Keeps P (t.flushRun start blocks) := by
  unfold State.flushRun
  dsimp only
  split
  · split
    · split
      · exact (h.newUnit _ ‹_›).modCar.mapCommit
      · exact h
    · exact h
  · exact h

theorem State.Keeps.flushWhere (h : s.Keeps P t) {p : Nat → WLba → Bool} : s.Keeps P (t.flushWhere p) := h.foldl (fun _ h _ => h.flushRun)

theorem State.Keeps.releaseFlush (h : s.Keeps P t) : s.Keeps P t.releaseFlush := .ite h h.modCar.mapCommit

theorem State.Keeps.setExtent (h : s.Keeps P t) {e : Nat} {v : Option Ext} {new : List Nat} : s.Keeps P (t.setExtent e v new) := h.modCar.mapCommit

theorem State.Keeps.sideWorn (h : s.Keeps P t) : s.Keeps P t.sideWorn := .ite h h.modCar.mapCommit.raise

theorem State.Keeps.writeFine (h : s.Keeps P t) {e j app : Nat} {m : NMap Fine} {new : Nat → Option Bytes} :
    s.KeepsSome P (fun x => x.2.2) (t.writeFine e j app m new) := .map h.newUnit fun _ h => h

/-- The units of an extent held finely are written one after another. -/
theorem State.Keeps.writeFines (h : s.Keeps P t) {e app : Nat} {new : Nat → Nat → Option Bytes} {js : List Nat} {m : NMap Fine} :
    s.KeepsSome P (fun x => x.2.2) (js.foldl (fun (a : Option (NMap Fine × List Nat × State)) j =>
      a.bind (fun (m, ids, t) => (t.writeFine e j app m (new j)).map (fun (m', id, t') => (m', ids ++ [id], t')))) (some (m, [], t))) := by
  refine State.KeepsSome.foldl (.some h) fun _ ho j => ?_
  refine ho.bind fun a h => ?_
  obtain ⟨m, ids, u⟩ := a
  exact State.KeepsSome.map h.writeFine fun _ h => h

theorem State.Keeps.writeExtent (h : s.Keeps P t) {e app : Nat} {new : Nat → Option Bytes} : s.Keeps P (t.writeExtent e app new) := by
  unfold State.writeExtent
  have hworn : s.Keeps P (if t.seqReady then t.sideWorn else t) := .ite h.sideWorn h
  split
  · split
    · next hunit => exact (h.newUnit _ hunit).setExtent
    · exact hworn
  · extract_lets m0 js r
    have hr : s.KeepsSome P (fun x => x.2.2) r := h.writeFines
    clear_value r
    split
    · exact (hr _ rfl).setExtent
    · exact hworn

theorem State.Keeps.sideWrite (h : s.Keeps P t) {slba app : Nat} {blocks : List Bytes} : s.Keeps P (t.sideWrite slba app blocks) :=
  h.foldl (fun _ h _ => h.writeExtent)

theorem State.Keeps.dropExtent (h : s.Keeps P t) {e : Nat} {hit : Nat → Bool} : s.Keeps P (t.dropExtent e hit) := by
  unfold State.dropExtent
  split
  · exact h
  · exact .ite h.setExtent (.ite h.setExtent h)

theorem State.Keeps.sideDrop (h : s.Keeps P t) {slba n : Nat} : s.Keeps P (t.sideDrop slba n) := by
  unfold State.sideDrop
  exact (h.foldl (fun _ h _ => h.dropExtent)).modCar

theorem State.Keeps.useSpare (h : s.Keeps P t) : s.Keeps P t.useSpare := .ite h.modCar.raise (.ite h.modCar.raise.asyncEvent h.modCar)

theorem State.Keeps.retireBlock (h : s.Keeps P t) {d b : Nat} : s.Keeps P (t.retireBlock d b) := .ite h h.modBlock.modDie.useSpare.mapCommit.raise

theorem State.Keeps.retireDie (h : s.Keeps P t) {d : Nat} : s.Keeps P (t.retireDie d) :=
  .ite h ((h.modDie.noteFault.raise.foldl (fun _ h _ => h.reprogram)).mapCommit.asyncEvent)

theorem State.Keeps.dieFailed (h : s.Keeps P t) {d : Nat} : s.Keeps P (t.dieFailed d) := .ite h.modDie.retireDie h.modDie

end OfCarOps

/-! ### Fifo -/

section OfFifo
variable {P : Nat → Prop} {s t : State}

theorem State.Keeps.fifoEvent (h : s.Keeps P t) {n cause : Nat} : s.Keeps P (t.fifoEvent n cause) := h.raise

theorem State.Keeps.fifoAct (h : s.Keeps P t) {n : Nat} {c : FifoClock} : s.Keeps P (t.fifoAct n c) :=
  .ite ((h.modFifo.when (fun _ h => h.fifoEvent)).when (fun _ h => h.fifoEvent)) h

theorem State.Keeps.fifoWrite (h : s.Keeps P t) {n : Nat} {w : FWord} : s.Keeps P (t.fifoWrite n w) := h.fifoAct

theorem State.Keeps.fifoRead (h : s.Keeps P t) {n : Nat} : s.Keeps P (t.fifoRead n) := h.fifoAct

theorem State.Keeps.retain (h : s.Keeps P t) {o : RetOp} : s.Keeps P (t.retain o) := h.fifoAct

theorem State.Keeps.fifoRestart (h : s.Keeps P t) {n : Nat} : s.Keeps P (t.fifoRestart n) := .ite (h.modFifo.when (fun _ h => h.fifoEvent)) h

theorem State.Keeps.fifoClear (h : s.Keeps P t) {n bits : Nat} : s.Keeps P (t.fifoClear n bits) := .ite h.modFifo h

theorem State.Keeps.spoolPut (h : s.Keeps P t) {c : Copy} : s.Keeps P (t.spoolPut c) := h.feed

theorem State.Keeps.spoolStart (h : s.Keeps P t) : s.Keeps P t.spoolStart := h.foldl (fun _ h _ => h.fifoRead)

theorem State.Keeps.drain (h : s.Keeps P t) {n k : Nat} : s.Keeps P (State.drain n k t).2 := by
  induction k generalizing t with
  | zero => exact h
  | succ k ih =>
    unfold State.drain
    dsimp only
    split
    · exact h
    · exact ih h.modFifo.feed

theorem State.Keeps.takeAll (h : s.Keeps P t) {n : Nat} : s.Keeps P (t.takeAll n).2 := h.drain

theorem State.Keeps.clearCapture (h : s.Keeps P t) : s.Keeps P t.clearCapture := (h.foldl (fun _ h _ => h.takeAll)).modRc

theorem State.Keeps.execFifoWrite (h : s.Keeps P t) {n payload : Nat} {last : Bool} {count : Nat} : s.KeepsOut P (execFifoWrite n payload last
    count t) :=
  .next h.fifoWrite

theorem State.Keeps.execFifoRead (h : s.Keeps P t) {n : Nat} : s.KeepsOut P (execFifoRead n t) := .next h.fifoRead

theorem State.Keeps.execFifoAdvance (h : s.Keeps P t) : s.KeepsOut P (execFifoAdvance t) := .next h.retain

theorem State.Keeps.execFifoRewindMark (h : s.Keeps P t) : s.KeepsOut P (execFifoRewindMark t) := .next h.retain

theorem State.Keeps.execFifoRelease (h : s.Keeps P t) {k : Nat} : s.KeepsOut P (execFifoRelease k t) := .next h.retain

theorem State.Keeps.execFifoRewindRelease (h : s.Keeps P t) : s.KeepsOut P (execFifoRewindRelease t) := .next h.retain

end OfFifo

/-! ### SpoolOps -/

section OfSpoolOps
variable {P : Nat → Prop} {s t : State}

theorem State.Keeps.modZone (h : s.Keeps P t) {z : Nat} {f : Zone → Zone} : s.Keeps P (t.modZone z f) := h.modSp

theorem State.Keeps.journalZone (h : s.Keeps P t) {z : Nat} : s.Keeps P (t.journalZone z) := h.indexCommit

theorem State.Keeps.closeRec (h : s.Keeps P t) {z : Nat} {last : Bool} : s.Keeps P (t.closeRec z last) := .ite h h.pass.modSp

theorem State.Keeps.openRec (h : s.Keeps P t) {z lba : Nat} {timecode : Option (Nat × Nat)} : s.Keeps P (t.openRec z lba timecode) := by
  unfold State.openRec
  exact h.modSp

theorem State.Keeps.packLba (h : s.Keeps P t) {z lba : Nat} {b : Bytes} {timecode : Option (Nat × Nat)} :
    s.Keeps P (t.packLba z lba b timecode) := by
  unfold State.packLba
  split
  · exact h
  · extract_lets s1 t1 t2 u
    have ht1 : s.Keeps P t1 := .ite h.pass.openRec h.pass
    have ht2 : s.Keeps P t2 := by
      dsimp only [t2]
      split
      · exact ht1.passBytes
      · exact ht1
    have hu : s.Keeps P u := ht2.modSp
    split
    · exact .ite hu.closeRec hu
    · exact hu

theorem State.Keeps.bindCtx (h : s.Keeps P t) {z t' : Nat} : s.Keeps P (t.bindCtx z t') := h.applyPend.modSp.modZone.keySlotLoad

theorem State.Keeps.releaseCtx (h : s.Keeps P t) {z : Nat} : s.Keeps P (t.releaseCtx z) := by
  unfold State.releaseCtx
  split
  · exact h.modSp.modZone
  · exact h

theorem State.Keeps.newTake (h : s.Keeps P t) {z : Nat} : s.Keeps P (t.newTake z) := h.newMediaKey.modSp.indexCommit

theorem State.Keeps.closeZone (h : s.Keeps P t) {z : Nat} : s.Keeps P (t.closeZone z) := h.closeRec.releaseCtx.modZone.journalZone

theorem State.Keeps.fullZone (h : s.Keeps P t) {z : Nat} {mark : Bool} : s.Keeps P (t.fullZone z mark) := h.closeRec.releaseCtx.modZone.journalZone

theorem State.Keeps.openZone (h : s.Keeps P t) {z : Nat} {explicit : Bool} : s.Keeps P (t.openZone z explicit) := by
  unfold State.openZone
  dsimp only
  split
  · exact .ite h.modZone.journalZone h
  · refine .journalZone (.indexCommit (.bindCtx (.modZone (.modSp (.ite (.newTake (.ite ?_ h)) (.ite ?_ h))))))
    · split
      · exact h.closeZone
      · exact h
    · split
      · exact h.closeZone
      · exact h

theorem State.Keeps.applyLba (h : s.Keeps P t) {lba app : Nat} {timecode : Option (Nat × Nat)} {b : Bytes} : s.Keeps P (t.applyLba lba app timecode
    b) :=
  .ite h.modSp.modZone.packLba.fullZone h.modSp.modZone.packLba

theorem State.Keeps.applyLbas (h : s.Keeps P t) {lba app : Nat} {timecode : Option (Nat × Nat)} {bs : List Bytes} : s.Keeps P (t.applyLbas lba app
    timecode bs) :=
  h.foldl (fun _ h _ => h.applyLba)

theorem State.Keeps.endDs (h : s.Keeps P t) {fill cont : Nat} : s.Keeps P (t.endDs fill cont) := h.modSp

theorem State.Keeps.fillDs (h : s.Keeps P t) : s.Keeps P t.fillDs := h.endDs

theorem State.Keeps.placeBytes {n : Nat} {b : Bytes} (h : s.Keeps P t) : s.Keeps P (State.placeBytes n b t) := by
  induction n generalizing t b with
  | zero => exact h
  | succ n ih => exact .ite h (ih (.ite h.modSp.endDs h.modSp))

theorem State.Keeps.fillIfFull (h : s.Keeps P t) : s.Keeps P t.fillIfFull := .ite h.fillDs h

theorem State.Keeps.placeRec (h : s.Keeps P t) {r : PackRec} : s.Keeps P (t.placeRec r) := h.fillIfFull.modSp.placeBytes.fillIfFull

theorem State.Keeps.enterRecs {n : Nat} (h : s.Keeps P t) : s.Keeps P (State.enterRecs n t) := by
  induction n generalizing t with
  | zero => exact h
  | succ n ih =>
    unfold State.enterRecs
    dsimp only
    split
    · exact .ite (ih h.passBytes.placeRec.modSp) h
    · exact h

theorem State.Keeps.closeGroup (h : s.Keeps P t) : s.Keeps P t.closeGroup := by
  unfold State.closeGroup
  split
  · exact h.modSp.indexCommit.spoolPut.spoolPut
  · exact h

theorem State.Keeps.groupAdd (h : s.Keeps P t) {q : Nat} : s.Keeps P (t.groupAdd q) := .ite h.spoolPut.modSp.closeGroup h.spoolPut.modSp

theorem State.Keeps.ackWrite (h : s.Keeps P t) {w : WriteCmd} : s.Keeps P (t.ackWrite w) :=
  .ite (.complete (.modNv (.ite h.modSp h.modCar))) (.done (.modNv (.ite h.modSp h.modCar)))

theorem State.Keeps.grantList {ws : List WriteCmd} {stop : Bool} (h : s.Keeps P t) : s.Keeps P (State.grantList ws stop t) := by
  induction ws generalizing t stop with
  | nil => exact h
  | cons w ws ih => exact .ite (ih h.ackWrite) (.ite (ih h) (.ite (ih h.ackWrite) (ih h)))

theorem State.Keeps.grantCredit (h : s.Keeps P t) : s.Keeps P t.grantCredit := h.grantList

theorem State.Keeps.noteCredit (h : s.Keeps P t) : s.Keeps P t.noteCredit := .ite h h.modNv.raise

theorem State.Keeps.growZones (h : s.Keeps P t) {park : Bool} : s.Keeps P (t.growZones park) := .ite h.modSp.indexCommit.modNv.raise.asyncEvent h

end OfSpoolOps

/-! ### ReadOps -/

section OfReadOps
variable {P : Nat → Prop} {s t : State}

theorem State.Keeps.journalOpen (h : s.Keeps P t) {data : Bytes} : s.Keeps P (t.journalOpen data) := h.journal.drawn

theorem State.Keeps.logError (h : s.Keeps P t) {h' : Held} {st : Status} {lba nsid : Nat} {vsi csi : Nat} : s.Keeps P (t.logError h' st lba nsid
    vsi csi) :=
  h.modNv

theorem State.Keeps.restoreC3 (h : s.Keeps P t) {q : Nat} : s.Keeps P (t.restoreC3 q) := by
  unfold State.restoreC3
  dsimp only
  split
  · exact h
  · exact .ite h h.modRc.bumpPv

theorem State.Keeps.dsClass (h : s.Keeps P t) {cls q passes : Nat} : s.Keeps P (t.dsClass cls q passes) := by
  unfold State.dsClass
  extract_lets t1
  have ht1 : s.Keeps P t1 := .ite h h.bumpPv
  exact .ite ht1 (.ite ht1.modRc ht1.modRc.noteFault.journalOpen)

theorem State.Keeps.dsAuth (h : s.Keeps P t) {cls q : Nat} {info : Bytes} : s.Keeps P (t.dsAuth cls q info) := h.dsClass.modRc

theorem State.Keeps.tryAuth (h : s.Keeps P t) {q : Nat} : s.Keeps P (t.tryAuth q) := by
  unfold State.tryAuth
  dsimp only
  split
  · exact h
  · split
    · exact h.passBytes.dsAuth
    · exact h.dsClass
    · exact h.dsClass
    · exact h.modRc

theorem State.Keeps.carouselAuth (h : s.Keeps P t) {q : Nat} : s.Keeps P (t.carouselAuth q) := by
  unfold State.carouselAuth
  dsimp only
  split
  · exact h
  · split
    · exact h.dsAuth
    · exact h.dsClass
    · exact h.dsClass
    · exact .ite h.modRc h.dsClass

theorem State.Keeps.failLbas (h : s.Keeps P t) {start count : Nat} {cls passes : Nat} {ds wrap : Nat} : s.Keeps P (t.failLbas start count cls
    passes ds wrap) :=
  h.modRc

theorem State.Keeps.recFails (h : s.Keeps P t) {start count : Nat} {cls q : Nat} : s.Keeps P (t.recFails start count cls q) :=
  h.bumpPv.failLbas.noteFault.journalOpen

theorem State.Keeps.queueRec (h : s.Keeps P t) {q : Nat} {e : DirEntry} : s.Keeps P (t.queueRec q e) := by
  unfold State.queueRec
  dsimp only
  split
  · exact h.recFails
  · split
    · exact .ite h.keySlotLoad h.keySlotLoad.failLbas
    · exact h.keySlotLoad.modRc

theorem State.Keeps.growRec (h : s.Keeps P t) {r : ReadRec} : s.Keeps P (t.growRec r) := by
  unfold State.growRec
  dsimp only
  split
  · exact h
  · split
    · exact h.modRc.bumpPv
    · exact h

theorem State.Keeps.gatherRecs (h : s.Keeps P t) : s.Keeps P t.gatherRecs := (h.modRc.foldl (fun _ h _ => h.growRec)).foldl (fun _ h _ => h.queueRec)

theorem State.Keeps.finishRead (h : s.Keeps P t) {h' : Held} {slba n : Nat} : s.Keeps P (t.finishRead h' slba n) := by
  unfold State.finishRead
  split
  · exact .done (.modNv (.ite (h.when (fun _ h => h.bumpPv.noteFault.journalOpen)) ((h.when (fun _ h => h.bumpPv.noteFault.journalOpen)).logError)))
  · exact h.passBytes.modNv.complete

theorem State.Keeps.settleReads (h : s.Keeps P t) : s.Keeps P t.settleReads := by
  unfold State.settleReads
  refine h.foldl (fun _ h _ => ?_)
  split
  · exact .ite h.pass.finishRead.pass h
  · exact h

theorem State.Keeps.refuseReads (h : s.Keeps P t) {p : Nat → Nat → Bool} : s.Keeps P (t.refuseReads p) := by
  unfold State.refuseReads
  exact h.doneAll.modComp

theorem State.Keeps.logStopped (h : s.Keeps P t) {h' : Held} {a n : Nat} : s.Keeps P (t.logStopped h' a n) := by
  unfold State.logStopped
  split
  · exact h.logError
  · exact h

theorem State.Keeps.stopReads (h : s.Keeps P t) : s.Keeps P t.stopReads := by
  unfold State.stopReads
  extract_lets tape ds t3
  have ht3 : s.Keeps P t3 := h.foldl (fun _ h _ => by split; exacts [.ite h.logStopped h, h])
  exact (ht3.foldl (fun _ h _ => h.bumpPv.journalOpen)).refuseReads

theorem State.Keeps.dropUnwanted (h : s.Keeps P t) : s.Keeps P t.dropUnwanted := by
  unfold State.dropUnwanted
  exact h.modRc.modCtl

theorem State.Keeps.wantTape (h : s.Keeps P t) {q : Nat} : s.Keeps P (t.wantTape q) :=
  .ite h.dsClass (.ite h.refuseReads (.modCtl (.modRc (.ite h h.modRc))))

theorem State.Keeps.readWork {n : Nat} (h : s.Keeps P t) : s.Keeps P (State.readWork n t) := by
  induction n generalizing t with
  | zero => exact h.dropUnwanted
  | succ n ih =>
    unfold State.readWork
    split
    · exact ih h.carouselAuth
    · exact (h.foldl fun _ h _ => h.wantTape).gatherRecs.settleReads.dropUnwanted

theorem State.Keeps.readAll (h : s.Keeps P t) : s.Keeps P t.readAll := h.readWork

end OfReadOps

/-! ### IndexOps -/

section OfIndexOps
variable {P : Nat → Prop} {s t : State}

theorem State.Keeps.indexDs {gen count mac n num : Nat} {key b : Bytes} (h : s.Keeps P t) :
    s.KeepsSome P Prod.snd (t.indexDs gen count mac key n num b) := by
  induction n generalizing t num b with
  | zero => exact .some_snd h
  | succ n ih =>
    unfold State.indexDs
    split
    · exact .none
    · next hiv => exact .map (ih (h.takeIv _ hiv)) fun _ h => h

theorem State.Keeps.needMac (h : s.Keeps P t) : s.KeepsSome P id t.needMac := .ite (.some h) (.ite .none (.some h.newMacKey.indexCommit))

theorem State.Keeps.forgetIndexCopies (h : s.Keeps P t) : s.Keeps P t.forgetIndexCopies := h.modSp

theorem State.Keeps.buildGen (h : s.Keeps P t) : s.KeepsSome P id t.buildGen := by
  unfold State.buildGen
  dsimp only
  refine .bind h.needMac (fun _ h => ?_)
  split
  · exact .none
  · exact .map h.indexDs (fun _ h1 => h1.forgetIndexCopies.modSp.indexCommit)

theorem State.Keeps.abandonGen (h : s.Keeps P t) : s.Keeps P t.abandonGen := by
  unfold State.abandonGen
  split
  · exact h
  · exact h.forgetIndexCopies.modSp.journalOpen

theorem State.Keeps.completeGen (h : s.Keeps P t) : s.Keeps P t.completeGen := by
  unfold State.completeGen
  split
  · exact h
  · exact h.modSp.modRc.indexCommit

theorem State.Keeps.clearTake (h : s.Keeps P t) : s.Keeps P t.clearTake := h.modSp.modFifo.modRc.modKeys

theorem State.Keeps.useGen (h : s.Keeps P t) {num w : Nat} {c : Bytes} {macs medias : List (Nat × Nat × Bytes)} : s.Keeps P (t.useGen num w c macs
    medias) :=
  h.clearTake.modSp.modKeys.loadMacSlots

theorem State.Keeps.blankCartridge (h : s.Keeps P t) : s.Keeps P t.blankCartridge := h.clearTake.modSp.drawn

theorem State.Keeps.resetPasses (h : s.Keeps P t) : s.Keeps P t.resetPasses := h.modEv.modSp

theorem State.Keeps.journalCartridge (h : s.Keeps P t) : s.Keeps P t.journalCartridge := h.indexCommit

theorem State.Keeps.noteGen (h : s.Keeps P t) {num w : Nat} : s.Keeps P (t.noteGen num w) := h.modSp

theorem State.Keeps.indexLoaded {l : List (Nat × Nat × List (List Bytes))} (h : s.Keeps P t) : s.Keeps P (State.indexLoaded l t) := by
  induction l generalizing t with
  | nil => exact h.blankCartridge.resetPasses.journalCartridge
  | cons x l ih =>
    unfold State.indexLoaded
    split
    · exact (ih h.journalOpen).noteGen
    · dsimp only
      split
      · exact .ite h.modSp.noteGen (.journalCartridge (.useGen (.ite h h.resetPasses)))
      · exact .asyncEvent (.raise (.modSp (.clearTake (.ite (.ite h.raise h) (.resetPasses (.ite h.raise h))))))

end OfIndexOps

/-! ### Records -/

section OfRecords
variable {P : Nat → Prop} {s t : State}

theorem State.Keeps.putCopies (h : s.Keeps P t) {area : Nat} {data : Bytes} {ok0 ok1 : Bool} : s.Keeps P (t.putCopies area data ok0 ok1) := h.modNor

theorem State.Keeps.applyHealth (h : s.Keeps P t) {b : Bytes} : s.Keeps P (t.applyHealth b) := by
  unfold State.applyHealth
  exact h.modSp.modEv

theorem State.Keeps.writeHealth (h : s.Keeps P t) : s.Keeps P t.writeHealth := h.norWrite.modEv

end OfRecords

/-! ### TapeOps -/

section OfTapeOps
variable {P : Nat → Prop} {s t : State}

theorem State.Keeps.tapeState (h : s.Keeps P t) {m : MagState} : s.Keeps P (t.tapeState m) := .ite h h.enter

theorem State.Keeps.sleepGroups (h : s.Keeps P t) : s.Keeps P t.sleepGroups := h.modRc

theorem State.Keeps.startMove (h : s.Keeps P t) {t' : Target} : s.Keeps P (t.startMove t') := by
  unfold State.startMove
  exact h.sleepGroups.modCtl

theorem State.Keeps.settle (h : s.Keeps P t) : s.Keeps P t.settle := by
  unfold State.settle
  exact h.modCtl.modPw

theorem State.Keeps.slotsOffUnlessHeld (h : s.Keeps P t) {ns : List Nat} : s.Keeps P (t.slotsOffUnlessHeld ns) :=
  h.foldl (fun _ h _ => .ite h h.slotOff)

theorem State.Keeps.toBraked (h : s.Keeps P t) {m : MagState} : s.Keeps P (t.toBraked m) := h.slotsOffUnlessHeld.modCtl.tapeState

theorem State.Keeps.release (h : s.Keeps P t) {m : MagState} : s.Keeps P (t.release m) := h.settle.toBraked

theorem State.Keeps.letGo (h : s.Keeps P t) {m : MagState} : s.Keeps P (t.letGo m) := h.settle.slotsOffUnlessHeld.modCtl

theorem State.Keeps.forgetPosition (h : s.Keeps P t) {radii : Bool} : s.Keeps P (t.forgetPosition radii) := h.modCtl.modPw

theorem State.Keeps.popTask (h : s.Keeps P t) : s.Keeps P t.popTask := h.modCtl

theorem State.Keeps.doneTask (h : s.Keeps P t) {t' : Task} {st : Status} {dw0 : Nat} : s.Keeps P (t.doneTask t' st dw0) := by
  unfold State.doneTask
  split
  · exact h.complete
  · exact h

theorem State.Keeps.finishTask (h : s.Keeps P t) {dw0 : Nat} : s.Keeps P (t.finishTask dw0) := by
  unfold State.finishTask
  split
  · exact h.popTask.doneTask
  · exact h

theorem State.Keeps.dropGen (h : s.Keeps P t) : s.Keeps P t.dropGen := .ite h h.modSp

theorem State.Keeps.endSequence (h : s.Keeps P t) : s.Keeps P t.endSequence := by
  unfold State.endSequence
  extract_lets t1
  have ht1 : s.Keeps P t1 := h.dropGen.modSp.modRc
  split
  · exact ht1.modCtl
  · exact ht1.modCtl
  · exact ht1.modCtl
  · exact .ite ht1 ht1.popTask.doneTask

theorem State.Keeps.dropTapeReads (h : s.Keeps P t) : s.Keeps P t.dropTapeReads := h.refuseReads.dropUnwanted

theorem State.Keeps.failHead (h : s.Keeps P t) : s.Keeps P t.failHead := by
  unfold State.failHead
  split
  · exact h.endSequence
  · exact h.endSequence
  · exact h.endSequence.dropTapeReads
  · exact h.modCtl.endSequence

theorem State.Keeps.nextWrap (h : s.Keeps P t) : s.Keeps P t.nextWrap := by
  unfold State.nextWrap
  extract_lets carried t2 full u
  have ht2 : s.Keeps P t2 := .ite h.retain h
  have hu : s.Keeps P u := ht2.modSp
  exact .ite (.ite hu hu.asyncEvent) hu.indexCommit

theorem State.Keeps.endSuspension (h : s.Keeps P t) : s.Keeps P t.endSuspension := .ite h.modSp.nextWrap h

theorem State.Keeps.startRecord (h : s.Keeps P t) : s.Keeps P t.startRecord := by
  unfold State.startRecord
  extract_lets s0 s1
  have hs0 : s.Keeps P s0 := .ite h (.ite h.nextWrap h)
  have hs1 : s.Keeps P s1 := .ite hs0.tapeState (.ite hs0.enter (.ite hs0 hs0.tapeState))
  exact .ite hs1 hs1.startMove.modSp

theorem State.Keeps.closeStep (h : s.Keeps P t) : s.Keeps P t.closeStep := by
  unfold State.closeStep
  dsimp only
  split
  · exact .ite (.modSp (.closeGroup (.ite h (.modSp (.ite h h.fillDs))))) (.ite h (.modSp (.ite h h.fillDs)))
  · exact .ite h (.modSp (.ite h h.fillDs))

theorem State.Keeps.drainStep (h : s.Keeps P t) : s.Keeps P t.drainStep :=
  .ite h.closeStep (.ite h (.ite (.closeGroup (.ite h h.fillDs)) (.ite h h.fillDs)))

theorem State.Keeps.parkWrites (h : s.Keeps P t) : s.Keeps P t.parkWrites := h.norWrite.modRc.writeHealth.growZones

theorem State.Keeps.sealJournal (h : s.Keeps P t) : s.Keeps P t.sealJournal := .ite h h.mapCommit.modCar

theorem State.Keeps.noteTaken (h : s.Keeps P t) : s.Keeps P t.noteTaken := by
  unfold State.noteTaken
  exact h.modRc

theorem State.Keeps.startRead (h : s.Keeps P t) {q : Nat} : s.Keeps P (t.startRead q) := by
  unfold State.startRead
  extract_lets s1
  have hs1 : s.Keeps P s1 := h.modCtl
  split
  · exact hs1.popTask
  · exact .ite hs1.modRc.modRc.modCtl (.ite hs1.modRc.modRc.modCtl (.modCtl (.startMove (.modRc (.modRc (.clearCapture (.ite hs1 hs1.tapeState)))))))

theorem State.Keeps.startCal (h : s.Keeps P t) {w a : Nat} {n z t' : Nat} : s.Keeps P (t.startCal w a n z t') :=
  h.clearCapture.modRc.tapeState.startMove.modCtl

theorem State.Keeps.beginCalibrate (h : s.Keeps P t) : s.KeepsSome P id t.beginCalibrate := by
  unfold State.beginCalibrate
  split
  · exact .none
  · exact .map_of (fun _ => h.modCtl.modRc.startCal)

theorem State.Keeps.refuseUnloaded (h : s.Keeps P t) : s.Keeps P t.refuseUnloaded := by
  unfold State.refuseUnloaded
  split
  · exact h.popTask.refuseReads.dropUnwanted
  · exact h.popTask.doneTask
  · exact h

theorem State.Keeps.parkNext (h : s.Keeps P t) {unload : Bool} : s.Keeps P (t.parkNext unload) := by
  unfold State.parkNext
  extract_lets s1
  have hs1 : s.Keeps P s1 := .ite h.modSp.drainStep h
  split
  · exact .ite hs1.modCtl hs1.modCtl.startRecord
  · split
    · exact hs1.modCtl.stopTape
    · split
      · split
        · exact .modSp (.startMove (.ite (hs1.modSp.modCtl.buildGen _ ‹_›).enter (hs1.modSp.modCtl.buildGen _ ‹_›)))
        · exact hs1.modSp.modCtl.modSp
      · exact .modCtl (.startMove (.ite hs1.modSp.modCtl hs1.modSp.modCtl.tapeState))

theorem State.Keeps.serveOne (h : s.Keeps P t) : s.KeepsSome P id t.serveOne := by
  unfold State.serveOne
  dsimp only
  split
  · exact .ite (.some h.stopTape) .none
  · split
    · exact .none
    · split
      · exact .some h.refuseUnloaded
      · split
        · exact .ite (.some h.finishTask) (.ite (.some h.modCtl.letGo) (.some h.modCtl.stopTape))
        · exact .ite (.ite (.ite (.some h.parkWrites.sealJournal.modCtl) (.some h.finishTask)) .none) (.ite (.some h.parkNext) .none)
        · exact .ite .none (.ite (.some h.parkNext) .none)
        · exact .ite (.ite .none (.some h.forgetPosition)) (.some h.letGo)
        · exact .ite (.some h.finishTask) (.ite (.some h.stopTape) .none)
        · exact .ite .none (.ite (.some h.startRecord.popTask) (.some h.startRecord.modCtl))
        · exact .ite .none (.some h.tapeState.startMove.modCtl)
        · exact .ite .none (.some h.tapeState.modCtl.finishTask)
        · split
          · exact .none
          · split
            · exact .some (h.beginCalibrate _ ‹_›)
            · exact .some h.endSuspension.finishTask
        · exact .ite .none (.ite .none (.some h.startRead))
        · exact .some h.popTask

theorem State.Keeps.noteNeed (h : s.Keeps P t) : s.Keeps P t.noteNeed := by
  unfold State.noteNeed
  exact h.modCtl

theorem State.Keeps.parkTakesOver (h : s.Keeps P t) : s.Keeps P t.parkTakesOver := by
  unfold State.parkTakesOver
  split
  · exact h.modCtl
  · exact h

theorem State.Keeps.parkLook (h : s.Keeps P t) : s.Keeps P t.parkLook := by
  unfold State.parkLook
  split
  · exact .ite h.parkNext (.ite h.parkNext (.ite h (.ite h.finishTask (.ite h.parkWrites h))))
  · exact .ite h.parkNext h
  · exact h

theorem State.Keeps.refuseBehind (h : s.Keeps P t) : s.Keeps P t.refuseBehind := by
  unfold State.refuseBehind
  split
  · split
    · refine (h.modCtl.foldl (fun _ h _ => ?_)).dropUnwanted
      split
      · exact h.refuseReads
      · exact h.doneTask
    · exact h
  · exact h

theorem State.Keeps.serveFuel {n : Nat} (h : s.Keeps P t) : s.Keeps P (State.serveFuel n t) := by
  induction n generalizing t with
  | zero => exact h
  | succ n ih =>
    have hu := h.drainStep.noteNeed.parkTakesOver.refuseBehind.parkLook
    unfold State.serveFuel
    dsimp only
    split
    · exact hu
    · split
      · next hone => exact ih (hu.serveOne _ hone)
      · exact hu

theorem State.Keeps.leaveLook (h : s.Keeps P t) : s.Keeps P t.leaveLook := by
  unfold State.leaveLook
  split
  · exact h
  · split
    · exact h.modMag
    · exact h.letGo
    · exact h.stopTape
    · exact h.stopTape
    · exact h

theorem State.Keeps.drainLook (h : s.Keeps P t) : s.Keeps P t.drainLook := .ite h h.raise.mapCommit.modCar

theorem State.Keeps.settleLoss (h : s.Keeps P t) : s.Keeps P t.settleLoss := h.modPw

theorem State.Keeps.restartLook (h : s.Keeps P t) : s.Keeps P t.restartLook := .ite h (.ite h.modMag.raise h.settleLoss.enter)

theorem State.Keeps.serveTasks (h : s.Keeps P t) : s.Keeps P t.serveTasks := .ite h.serveFuel.leaveLook.serveFuel h.serveFuel.leaveLook

theorem State.Keeps.serve (h : s.Keeps P t) : s.Keeps P t.serve := .ite h.drainLook h.serveTasks.restartLook

end OfTapeOps

/-! ### Packer -/

section OfPacker
variable {P : Nat → Prop} {s t : State}

theorem State.Keeps.execRecordIdleTimeout (h : s.Keeps P t) {zone : Nat} : s.KeepsOut P (execRecordIdleTimeout zone t) := .next h.closeRec.serve

theorem State.Keeps.modRec (h : s.Keeps P t) {r : PackRec} {f : PackRec → PackRec} : s.Keeps P (t.modRec r f) := h.modSp

theorem State.Keeps.notePeak (h : s.Keeps P t) : s.Keeps P t.notePeak := .ite h.setPv h

theorem State.Keeps.execCompressionBlockCode (h : s.Keeps P t) {engine : Nat} : s.KeepsOut P (execCompressionBlockCode engine t) := by
  unfold Machine.execCompressionBlockCode
  refine .next ?_
  split
  · exact h
  · exact .ite h (.ite h.modSp.notePeak (.notePeak (.ite h.passBytes.modRec.modSp.bumpPv.bumpPv (.ite h.passBytes.modRec.modSp.bumpPv.bumpPv.bumpPv
      h.passBytes.modRec.modSp.bumpPv.bumpPv.bumpPv))))

theorem State.Keeps.execOverflowBufferFreed (h : s.Keeps P t) {engine : Nat} : s.KeepsOut P (execOverflowBufferFreed engine t) := .next h.modSp

theorem State.Keeps.execXtsSectorEncrypt (h : s.Keeps P t) : s.KeepsOut P (execXtsSectorEncrypt t) := by
  unfold Machine.execXtsSectorEncrypt
  dsimp only
  refine .next ?_
  split
  · exact h
  · split
    · exact h.keySlotLoad
    · exact .ite (.serve (.enterRecs (.modRec (.ite h.keySlotLoad.modSp h.keySlotLoad)))) (.modRec (.ite h.keySlotLoad.modSp h.keySlotLoad))

theorem State.Keeps.noteTakes (h : s.Keeps P t) {q : Nat} : s.Keeps P (t.noteTakes q) := by
  unfold State.noteTakes
  exact h.modSp

theorem State.Keeps.noteDs (h : s.Keeps P t) {q : Nat} {lbas : List (Nat × Nat)} : s.Keeps P (t.noteDs q lbas) := h.modSp

theorem State.Keeps.assemble (h : s.Keeps P t) : s.Keeps P t.assemble := by
  unfold State.assemble
  split
  · exact h
  · split
    · exact h
    · split
      · exact .ite h h.modSp.raise
      · split
        · exact h
        · next hmac =>
          have h1 := h.needMac _ hmac
          split
          · next hiv =>
            extract_lets q macId stream info s3 lbas
            have h3 : s.Keeps P s3 := (h1.takeIv _ hiv).modSp.modRc.noteTakes
            clear_value s3
            split
            · next himg => exact (h3.appendImage _ himg).passBytes.passBytes.noteDs.mapCommit.groupAdd
            · exact h1
          · exact h1

theorem State.Keeps.execDsAssembled (h : s.Keeps P t) : s.KeepsOut P (execDsAssembled t) := .next h.assemble.serve

theorem State.Keeps.execIvCeilingRefresh (h : s.Keeps P t) : s.KeepsOut P (execIvCeilingRefresh t) := by
  unfold Machine.execIvCeilingRefresh
  refine .next ?_
  split
  · exact .ite h.modKeys h
  · exact h

theorem State.Keeps.execIvCeilingWriteDone (h : s.Keeps P t) {ok0 ok1 : Bool} : s.KeepsOut P (execIvCeilingWriteDone ok0 ok1 t) := by
  unfold Machine.execIvCeilingWriteDone
  refine .next ?_
  split
  · exact .ite h (.ite h.putCopies.modKeys.modKeys.serve h.putCopies.modKeys.modKeys.noteFault.raise.raise)
  · exact h

end OfPacker

/-! ### HostOps -/

section OfHostOps
variable {P : Nat → Prop} {s t : State}

theorem State.Keeps.refuseTake (h : s.Keeps P t) {q : Nat} {st : Status} : s.Keeps P (t.refuseTake q st) := .done (.ite h.modNv.raise h)

theorem State.Keeps.acceptTake (h : s.Keeps P t) {q : Nat} {append : Bool} {slba nlb : Nat} {fua : Bool} {cdw2 cdw3 : Nat} : s.Keeps P
  (t.acceptTake q append slba nlb fua cdw2 cdw3) := by
  unfold State.acceptTake
  dsimp only
  split
  · exact h.modNv
  · split
    · exact h.refuseTake
    · exact h.openZone.modNv

theorem State.Keeps.markMoved (h : s.Keeps P t) {w : WriteCmd} {app : Nat} : s.Keeps P (t.markMoved w app) := h.modNv

theorem State.Keeps.applyWrite (h : s.Keeps P t) {v : WriteCmd} {data : Bytes} : s.Keeps P (t.applyWrite v data) := by
  unfold State.applyWrite
  extract_lets app bs z x w
  refine .ite (.ite h.done (.ite h.done (.ite h.done ?_))) h.markMoved.modCar.sideWrite
  split
  · exact h.done
  · exact .ite h.openZone.markMoved.applyLbas.closeRec h.openZone.markMoved.applyLbas

theorem State.Keeps.closeTakeRecs (h : s.Keeps P t) {t' : Nat} : s.Keeps P (t.closeTakeRecs t') := h.foldl (fun _ h _ => h.closeRec)

theorem State.Keeps.actTakeMark (h : s.Keeps P t) {q : Nat} : s.Keeps P (t.actTakeMark q) := by
  unfold State.actTakeMark
  split
  · exact h.complete
  · exact (h.closeTakeRecs.foldl (fun _ h _ => .ite h.closeZone h.fullZone)).modSp.indexCommit.complete

theorem State.Keeps.shutCheck (h : s.Keeps P t) : s.Keeps P t.shutCheck := .ite h.modNv h

theorem State.Keeps.activateFw (h : s.Keeps P t) {rom : Bool} : s.Keeps P (t.activateFw rom) := h.modNv.raise

theorem State.Keeps.traceMove (h : s.Keeps P t) {q first n : Nat} : s.Keeps P (t.traceMove q first n) := .ite h.pass.complete h.modNv

theorem State.Keeps.settleOne (h : s.Keeps P t) {h' : Held} : s.Keeps P (t.settleOne h') := by
  unfold State.settleOne
  split
  · exact .ite h.done (.ite h.flushWhere h)
  · exact .ite h.complete h
  · exact .ite h.actTakeMark h
  · exact .ite h h.acceptTake
  · exact .ite h h.modNv.done
  · exact .ite h.activateFw.done h
  · exact .ite h.traceMove h
  · exact h

theorem State.Keeps.settleHost (h : s.Keeps P t) : s.Keeps P t.settleHost := (h.grantCredit.noteCredit.foldl (fun _ h _ => h.settleOne)).shutCheck

theorem State.Keeps.goOn (h : s.Keeps P t) : s.Keeps P t.goOn := h.settleHost.serve

end OfHostOps

/-! ### HostIo -/

section OfHostIo
variable {P : Nat → Prop} {s t : State}

theorem State.Keeps.ioNs (h : s.Keeps P t) {h' : Hdr} {nsid : Nat} {take : Nat → State → State} (htake : ∀ a1 u, s.Keeps P u → s.Keeps P (take a1
    u)) {side : Nat → State → State} (hside : ∀ a1 u, s.Keeps P u → s.Keeps P (side a1 u)) : s.Keeps P (t.ioNs h' nsid take side) :=
  h.ioCmd (fun _ _ h => .ite (htake _ _ h) (.ite (hside _ _ h) h.done))

theorem State.Keeps.sideGate (h : s.Keeps P t) {q slba n : Nat} {change : Bool} {wait : Wait} {go : State → State} (hgo : ∀ u, s.Keeps P u →
    s.Keeps P (go u)) : s.Keeps P (t.sideGate q slba n change wait go) :=
  .ite h.done (.ite h.done (.ite h.modNv (.ite h.done (hgo _ h))))

theorem State.Keeps.moveNow (h : s.Keeps P t) {q : Nat} {data : Bytes} : s.Keeps P (t.moveNow q data) := by
  unfold State.moveNow
  split
  · exact .ite h.applyWrite h
  · exact h

theorem State.Keeps.acceptSide (h : s.Keeps P t) {q slba nlb : Nat} {fua : Bool} : s.Keeps P (t.acceptSide q slba nlb fua) := by
  unfold State.acceptSide
  exact h.modNv

theorem State.Keeps.sideWriteCmd (h : s.Keeps P t) {q slba n : Nat} {fua : Bool} {data : Option Bytes} : s.Keeps P (t.sideWriteCmd q slba n fua
  data) := by
  unfold State.sideWriteCmd
  split
  · exact h.done
  · refine h.sideGate (fun _ h => ?_)
    split
    · exact h.acceptSide.moveNow
    · exact h.acceptSide

theorem State.Keeps.takeWriteCmd (h : s.Keeps P t) {q : Nat} {append : Bool} {slba n : Nat} {fua : Bool} {cdw2 cdw3 : Nat} {data : Option Bytes} :
  s.Keeps P (t.takeWriteCmd q append slba n fua cdw2 cdw3 data) := by
  unfold State.takeWriteCmd
  extract_lets u
  have hu : s.Keeps P u := h.acceptTake
  split
  · exact hu.moveNow
  · exact hu

theorem State.Keeps.execWrite (h : s.Keeps P t) {h' : Hdr} {nsid slba nlb : Nat} {fua : Bool} {cdw2 cdw3 : Nat} {data : Option Bytes} : s.KeepsOut
    P (execWrite h' nsid slba nlb fua cdw2 cdw3 data t) :=
  .next ((h.ioNs (fun _ _ h => h.takeWriteCmd) (fun _ _ h => h.sideWriteCmd)).goOn)

theorem State.Keeps.execZoneAppend (h : s.Keeps P t) {h' : Hdr} {nsid slba nlb : Nat} {fua : Bool} {cdw2 cdw3 : Nat} {data : Option Bytes} :
    s.KeepsOut P (execZoneAppend h' nsid slba nlb fua cdw2 cdw3 data t) :=
  .next ((h.ioNs (fun _ _ h => h.takeWriteCmd) (fun _ _ h => h.done)).goOn)

theorem State.Keeps.execWriteDataTransfer (h : s.Keeps P t) {sq cid : Nat} {data : Option Bytes} : s.KeepsOut P (execWriteDataTransfer sq cid data
  t) := by
  unfold Machine.execWriteDataTransfer
  split
  · split
    · split
      · split
        · exact .next h.applyWrite.goOn
        · exact .next h.done.goOn
      · exact .next h
    · exact .next h
  · exact .next h

theorem State.Keeps.execWriteCreditGrant (h : s.Keeps P t) : s.KeepsOut P (execWriteCreditGrant t) := .next h.goOn

theorem State.Keeps.execCreditWaitTimeout (h : s.Keeps P t) : s.KeepsOut P (execCreditWaitTimeout t) := .next h.flushWhere.goOn

theorem State.Keeps.takeReadCmd (h : s.Keeps P t) {q slba n : Nat} {limited : Bool} : s.Keeps P (t.takeReadCmd q slba n limited) := by
  unfold State.takeReadCmd
  split
  · exact h.done
  · exact h.modNv.readAll

theorem State.Keeps.sideReadNow (h : s.Keeps P t) {q slba n : Nat} : s.Keeps P (t.sideReadNow q slba n) := by
  unfold State.sideReadNow
  extract_lets via t2 rs
  have ht2 : s.Keeps P t2 := .ite h.drawn h
  exact .ite ht2.modCar.raise.done (.ite ht2.modNv.done ht2.modNv.complete)

theorem State.Keeps.sideReadCmd (h : s.Keeps P t) {q slba n : Nat} : s.Keeps P (t.sideReadCmd q slba n) :=
  .ite h.done (h.sideGate (fun _ h => h.sideReadNow))

theorem State.Keeps.execRead (h : s.Keeps P t) {h' : Hdr} {nsid slba nlb : Nat} {limited : Bool} : s.KeepsOut P (execRead h' nsid slba nlb limited
    t) :=
  .next ((h.ioNs (fun _ _ h => h.takeReadCmd) (fun _ _ h => h.sideReadCmd)).goOn)

theorem State.Keeps.deallocate (h : s.Keeps P t) {q : Nat} {ranges : List (Nat × Nat)} : s.Keeps P (t.deallocate q ranges) := by
  unfold State.deallocate
  exact h.sideGate (fun _ h => (h.foldl (fun _ h1 _ => h1.sideDrop)).done)

theorem State.Keeps.execWriteZeroes (h : s.Keeps P t) {h' : Hdr} {nsid slba nlb : Nat} : s.KeepsOut P (execWriteZeroes h' nsid slba nlb t) := by
  unfold Machine.execWriteZeroes
  exact .next ((h.ioNs (fun _ _ h => h.done) (fun _ _ h => h.deallocate)).goOn)

theorem State.Keeps.execDatasetManagement (h : s.Keeps P t) {h' : Hdr} {nsid : Nat} {deallocate : Bool} {ranges : List (Nat × Nat)} : s.KeepsOut P
  (execDatasetManagement h' nsid deallocate ranges t) := by
  unfold Machine.execDatasetManagement
  exact .next ((h.ioNs (fun _ _ h => h.done) (fun _ _ h => .ite h.deallocate h.done)).goOn)

theorem State.Keeps.runHmb (h : s.Keeps P t) : s.Keeps P t.runHmb := by
  unfold State.runHmb
  refine h.foldl (fun _ h _ => ?_)
  split
  · exact .ite h.sideReadCmd (.ite h.deallocate h.sideWriteCmd)
  · exact h

theorem State.Keeps.zoneCmd (h : s.Keeps P t) {h' : Hdr} {nsid : Nat} {body : Nat → State → State} (hbody : ∀ a1 u, s.Keeps P u → s.Keeps P (body
    a1 u)) : s.Keeps P (t.zoneCmd h' nsid body) :=
  h.ioNs (fun _ _ h => .ite h.done (hbody _ _ h)) (fun _ _ h => h.done)

theorem State.Keeps.onZone (h : s.Keeps P t) {q slba : Nat} {act : Nat → State} (hact : ∀ a1, s.Keeps P (act a1)) : s.Keeps P (t.onZone q slba act)
    :=
  .ite h.done (.ite h.done (hact _))

theorem State.Keeps.zoneOpenCmd (h : s.Keeps P t) {q z : Nat} : s.Keeps P (t.zoneOpenCmd q z) := by
  unfold State.zoneOpenCmd
  split
  · split
    · exact h.refuseTake
    · exact h.openZone.done
  · split
    · exact h.refuseTake
    · exact h.openZone.done
  · split
    · exact h.refuseTake
    · exact h.openZone.done
  · split
    · exact h.refuseTake
    · exact h.openZone.done
  · exact h.done
  · exact h.done
  · exact h.done

theorem State.Keeps.execZoneOpen (h : s.Keeps P t) {h' : Hdr} {nsid slba : Nat} {all : Bool} : s.KeepsOut P (execZoneOpen h' nsid slba all t) := by
  unfold Machine.execZoneOpen
  dsimp only
  refine .next ?_
  refine (h.zoneCmd (fun _ _ h => .ite ?_ (h.onZone (fun _ => h.zoneOpenCmd)))).goOn
  split
  · exact h.refuseTake
  · exact (h.foldl (fun _ h1 _ => h1.openZone)).done

theorem State.Keeps.execZoneClose (h : s.Keeps P t) {h' : Hdr} {nsid slba : Nat} {all : Bool} : s.KeepsOut P (execZoneClose h' nsid slba all t) :=
  .next ((h.zoneCmd (fun _ _ h => .ite ((h.foldl (fun _ h1 _ => h1.closeZone)).done) (h.onZone (fun _ => .ite h.closeZone.done (.ite h.done
    h.done))))).goOn)

theorem State.Keeps.execZoneFinish (h : s.Keeps P t) {h' : Hdr} {nsid slba : Nat} {all : Bool} : s.KeepsOut P (execZoneFinish h' nsid slba all t) :=
  .next ((h.zoneCmd (fun _ _ h => .ite ((h.foldl (fun _ h1 _ => h1.fullZone)).done) (h.onZone (fun _ => .ite h.fullZone.done (.ite h.done
    h.done))))).goOn)

theorem State.Keeps.execZoneReset (h : s.Keeps P t) {h' : Hdr} {nsid slba : Nat} : s.KeepsOut P (execZoneReset h' nsid slba t) :=
  .next ((h.zoneCmd (fun _ _ h => h.onZone (fun _ => .ite h.closeZone.done (.ite h.done h.done)))).goOn)

theorem State.Keeps.execZoneResetAll (h : s.Keeps P t) {h' : Hdr} {nsid : Nat} : s.KeepsOut P (execZoneResetAll h' nsid t) :=
  .next ((h.zoneCmd (fun _ _ h => (h.foldl (fun _ h1 _ => h1.closeZone)).done)).goOn)

theorem State.Keeps.execZoneOffline (h : s.Keeps P t) {h' : Hdr} {nsid slba : Nat} : s.KeepsOut P (execZoneOffline h' nsid slba t) :=
  .next ((h.ioNs (fun _ _ h => h.done) (fun _ _ h => h.done)).goOn)

theorem State.Keeps.execZoneManagementReceive (h : s.Keeps P t) {h' : Hdr} {nsid slba : Nat} {dwords zra zrasf : Nat} {part : Bool} : s.KeepsOut P
    (execZoneManagementReceive h' nsid slba dwords zra zrasf part t) :=
  .next ((h.ioNs (fun _ _ h => .ite h.done (.ite h.done h.complete)) (fun _ _ h => h.done)).goOn)

theorem State.Keeps.execFlush (h : s.Keeps P t) {h' : Hdr} {nsid : Nat} : s.KeepsOut P (execFlush h' nsid t) :=
  .next ((h.ioCmd (fun _ _ h => .ite h.modNv h.done)).goOn)

theorem State.Keeps.execSpoolCommit (h : s.Keeps P t) {h' : Hdr} {nsid : Nat} : s.KeepsOut P (execSpoolCommit h' nsid t) :=
  .next ((h.ioCmd (fun _ _ h => .ite ((h.foldl (fun _ h1 _ => h1.closeRec)).modNv) h.done)).goOn)

theorem State.Keeps.execTakeMark (h : s.Keeps P t) {h' : Hdr} {nsid : Nat} : s.KeepsOut P (execTakeMark h' nsid t) :=
  .next ((h.ioCmd (fun _ _ h => .ite h.done (.ite h.done h.modNv))).goOn)

end OfHostIo

/-! ### CarWork -/

section OfCarWork
variable {P : Nat → Prop} {s t : State}

theorem State.Keeps.eraseBlock (h : s.Keeps P t) {d b : Nat} : s.Keeps P (t.eraseBlock d b) := h.modCar.modBlock.mapCommit

theorem State.Keeps.sideClear (h : s.Keeps P t) : s.Keeps P t.sideClear := (h.foldl (fun _ h _ => h.dropExtent)).modCar

end OfCarWork

/-! ### Owner -/

section OfOwner
variable {P : Nat → Prop} {s t : State}

theorem State.Keeps.endSession (h : s.Keeps P t) : s.Keeps P t.endSession :=
  .ite (h.layers fun ⟨h1, _, h3⟩ => ⟨h1, rfl, h3⟩) h

theorem State.Keeps.eraseTakeKey (h : s.Keeps P t) {t' : Nat} : s.Keeps P (t.eraseTakeKey t') := by
  unfold State.eraseTakeKey
  extract_lets id zs a b c d
  have ha : s.Keeps P a := h.foldl (fun _ h _ => h.modZone.journalZone)
  have hb : s.Keeps P b := ha.modSp
  have hc : s.Keeps P c := hb.modKeys.modNv
  have hd : s.Keeps P d := hc.indexCommit
  exact .ite hd hd.asyncEvent

theorem State.Keeps.rewrapKeys (h : s.Keeps P t) {old new : Bytes} : s.Keeps P (t.rewrapKeys old new) := h.modKeys.indexCommit

theorem State.Keeps.dropKeys (h : s.Keeps P t) : s.Keeps P t.dropKeys := h.indexCommit.modKeys

theorem State.Keeps.dueGen (h : s.Keeps P t) : s.Keeps P t.dueGen := h.modSp.indexCommit

theorem State.Keeps.initialise (h : s.Keeps P t) : s.Keeps P t.initialise := h.clearTake.modSp.modCar.mapCommit.modRc.indexCommit.dueGen

theorem State.Keeps.rotateKeys (h : s.Keeps P t) {r : Rotation} {old : Bytes} : s.Keeps P (t.rotateKeys r old) := by
  unfold State.rotateKeys
  extract_lets t1 u
  have ht1 : s.Keeps P t1 := by
    dsimp only [t1]
    split; exacts [h.eraseTakeKey, h]
  have hu : s.Keeps P u := .ite ht1.dropKeys ht1.rewrapKeys
  exact hu.modKeys

theorem State.Keeps.keyApply (h : s.Keeps P t) {q : Option Nat} {step : KeyStep} : s.Keeps P (t.keyApply q step) := by
  unfold State.keyApply
  dsimp only
  split
  · refine ?_
    split
    · exact h.loadWrapped.done
    · exact h.loadWrapped
  · refine ?_
    split
    · exact h.loadWrapped.endSession.done
    · exact h.loadWrapped.endSession
  · refine ?_
    split
    · exact h.loadWrapped.done
    · exact h.loadWrapped
  · refine ?_
    split
    · exact h.loadWrapped.done
    · exact h.loadWrapped
  · split
    · exact h.loadWrapped.rotateKeys
    · exact h.loadWrapped
  · split
    · split
      · refine ?_
        split
        · exact h.loadWrapped.modKeys.initialise.done
        · exact h.loadWrapped.modKeys.initialise
      · split
        · refine ?_
          split
          · exact h.loadWrapped.modKeys.dueGen.done
          · exact h.loadWrapped.modKeys.dueGen
        · refine ?_
          split
          · exact h.loadWrapped.modKeys.raise.done
          · exact h.loadWrapped.modKeys.raise
    · refine ?_
      split
      · exact h.loadWrapped.modKeys.done
      · exact h.loadWrapped.modKeys

theorem State.Keeps.norDone (h : s.Keeps P t) {area : Nat} {data : Bytes} {act : NorAct} {ok : Bool} : s.Keeps P (t.norDone area data act ok) := by
  unfold State.norDone
  extract_lets s1 a t3
  dsimp only
  have hs1 : s.Keeps P s1 := h.modNor
  have ha : s.Keeps P a := .ite hs1 hs1.noteFault.raise
  have ht3 : s.Keeps P t3 := .ite (.ite ha.modKeys.modPw ha) ha
  split
  · exact ht3
  · exact ht3
  · exact .complete (.ite ht3 ht3.modKeys.modPw)
  · split
    · exact ht3.keyApply
    · split
      · exact .done (.ite ht3.modKeys ht3)
      · exact .ite ht3.modKeys ht3
  · exact .ite ht3.modNor.raise ht3.modNor
  · exact .ite ht3.modNv.done ht3.done

theorem State.Keeps.keyWrite (h : s.Keeps P t) {act : NorAct} : s.Keeps P (t.keyWrite act) := .ite h.norDone h.norWrite

theorem State.Keeps.putCopy (h : s.Keeps P t) {area i : Nat} {data : Bytes} {both : Bool} : s.Keeps P (t.putCopy area i data both) := h.modNor

theorem State.Keeps.settleRot (h : s.Keeps P t) : s.Keeps P t.settleRot := by
  unfold State.settleRot
  split
  · exact .ite h.modKeys.keyWrite h
  · exact h

theorem State.Keeps.execNorProgramComplete (h : s.Keeps P t) {area copy : Nat} {ok : Bool} : s.KeepsOut P (execNorProgramComplete area copy ok t)
  := by
  unfold Machine.execNorProgramComplete
  split
  · exact .next h
  · refine .ite (.next h) (.ite (.next (.goOn (.modNor (.ite h.putCopy h)))) ?_)
    split
    · exact .next (.goOn (.modNor (.ite h.putCopy h)))
    · exact .next (.goOn (.settleRot (.norDone (.modNor (.ite h.putCopy h)))))

theorem State.Keeps.authFail (h : s.Keeps P t) {q : Nat} : s.Keeps P (t.authFail q) := .keyWrite (.ite h.modKeys.raise.raise h.modKeys.raise)

theorem State.Keeps.execOwnerChallenge (h : s.Keeps P t) {h' : Hdr} : s.KeepsOut P (execOwnerChallenge h' t) :=
  .next ((h.adminCmd (fun _ _ h => .ite h.complete (.ite h.done h.drawn.endSession.modKeys.complete))).goOn)

theorem State.Keeps.execOwnerChallengeQuery (h : s.Keeps P t) {h' : Hdr} : s.KeepsOut P (execOwnerChallengeQuery h' t) :=
  .next ((h.adminCmd (fun _ _ h => .ite h.complete h.complete)).goOn)

theorem State.Keeps.execOwnerResponse (h : s.Keeps P t) {h' : Hdr} {data : Bytes} : s.KeepsOut P (execOwnerResponse h' data t) := by
  unfold Machine.execOwnerResponse
  refine .next ?_
  refine (h.adminCmd (fun _ _ h => ?_)).goOn
  split
  · exact h.done
  · exact .ite (.ite h.modKeys.modKeys.done h.modKeys.modKeys.modKeys.keyWrite) h.modKeys.authFail

theorem State.Keeps.execChallengeExpiry (h : s.Keeps P t) : s.KeepsOut P (execChallengeExpiry t) := .next h.modKeys

theorem State.Keeps.lockoutEnd (h : s.Keeps P t) : s.Keeps P t.lockoutEnd := .ite h.modKeys.modKeys.keyWrite h.modKeys

theorem State.Keeps.execLockoutExpiry (h : s.Keeps P t) : s.KeepsOut P (execLockoutExpiry t) := .next (.ite h h.lockoutEnd)

theorem State.Keeps.execSessionIdleTimeout (h : s.Keeps P t) : s.KeepsOut P (execSessionIdleTimeout t) := .next h.endSession.goOn

theorem State.Keeps.execTrngHealthFailure (h : s.Keeps P t) {repetition proportion : Bool} : s.KeepsOut P (execTrngHealthFailure repetition
    proportion t) :=
  .next (.ite h.noteFault.modKeys.raise h)

theorem State.Keeps.execTrngRetest (h : s.Keeps P t) {pass : Bool} : s.KeepsOut P (execTrngRetest pass t) := .next (.ite h.modKeys.goOn h)

theorem State.Keeps.execKeySlotLoad (h : s.Keeps P t) {keyId : Nat} : s.KeepsOut P (execKeySlotLoad keyId t) := .next h.keySlotLoad.goOn

theorem State.Keeps.holdForRecord (h : s.Keeps P t) {q : Nat} : s.Keeps P (t.holdForRecord q) := h.modNv

theorem State.Keeps.deposit (h : s.Keeps P t) {h' : Hdr} {body : Nat → State → State} (hbody : ∀ a1 u, s.Keeps P u → s.Keeps P (body a1 u)) :
    s.KeepsOut P (t.deposit h' body) :=
  .next ((h.adminCmd (fun _ _ h => .ite h.done ((hbody _ _ h).holdForRecord))).goOn)

theorem State.Keeps.withDeposit (h : s.Keeps P t) {q : Nat} {data : Bytes} {body : Bytes → State → State} (hbody : ∀ a1 u, s.Keeps P u → s.Keeps P
  (body a1 u)) : s.Keeps P (t.withDeposit q data body) := by
  unfold State.withDeposit
  split
  · exact hbody _ _ h
  · exact h.raise.authFail

theorem State.Keeps.execKeyDepositClaim (h : s.Keeps P t) {h' : Hdr} {data : Bytes} : s.KeepsOut P (execKeyDepositClaim h' data t) :=
  .next ((h.adminCmd (fun _ _ h => .ite h.done h.modNv.keyWrite)).goOn)

theorem State.Keeps.execKeyDepositReplaceOwnerKey (h : s.Keeps P t) {h' : Hdr} {data : Bytes} : s.KeepsOut P (execKeyDepositReplaceOwnerKey h' data
    t) :=
  h.deposit (fun _ _ h => h.withDeposit (fun _ _ h1 => h1.keyWrite))

theorem State.Keeps.execKeyDepositEscrowKey (h : s.Keeps P t) {h' : Hdr} {data : Bytes} : s.KeepsOut P (execKeyDepositEscrowKey h' data t) :=
  h.deposit (fun _ _ h => h.withDeposit (fun _ _ h1 => h1.keyWrite))

theorem State.Keeps.execKeyDepositRemoveEscrowKey (h : s.Keeps P t) {h' : Hdr} {data : Bytes} : s.KeepsOut P (execKeyDepositRemoveEscrowKey h' data
    t) :=
  h.deposit (fun _ _ h => h.keyWrite)

theorem State.Keeps.startRotation (h : s.Keeps P t) {seq take : Option Nat} {format : Bool} {escrow : Option Bytes} : s.Keeps P (t.startRotation
    seq take format escrow) :=
  h.drawn.modKeys.keyWrite

theorem State.Keeps.execKeyDepositEraseTake (h : s.Keeps P t) {h' : Hdr} {data : Bytes} : s.KeepsOut P (execKeyDepositEraseTake h' data t) :=
  h.deposit (fun _ _ h => .ite h.done (.ite h.startRotation (h.withDeposit (fun _ _ h1 => h1.startRotation))))

theorem State.Keeps.tellEscrow (h : s.Keeps P t) {label key : Bytes} : s.Keeps P (t.tellEscrow label key) := h.foldl (fun _ h _ => h.raise)

theorem State.Keeps.execKeyDepositRecoverAndAdopt (h : s.Keeps P t) {h' : Hdr} {data : Bytes} : s.KeepsOut P (execKeyDepositRecoverAndAdopt h' data
  t) := by
  unfold Machine.execKeyDepositRecoverAndAdopt
  dsimp only
  refine h.deposit (fun _ _ h => .ite h.done (h.withDeposit (fun _ _ h1 => ?_)))
  split
  · exact h1.tellEscrow.done
  · exact .ite h1.tellEscrow.done h1.tellEscrow.useGen.newMacKey.journalCartridge.dueGen.done

end OfOwner

/-! ### HostCtl -/

section OfHostCtl
variable {P : Nat → Prop} {s t : State}

theorem State.Keeps.closeOpenZones (h : s.Keeps P t) : s.Keeps P t.closeOpenZones := h.foldl (fun _ h _ => h.closeZone)

theorem State.Keeps.dropInvocations (h : s.Keeps P t) : s.Keeps P t.dropInvocations := h.modComp

theorem State.Keeps.dropTransport (h : s.Keeps P t) : s.Keeps P t.dropTransport := by
  unfold State.dropTransport
  exact h.modCtl

theorem State.Keeps.controllerReset (h : s.Keeps P t) {cause : Nat} : s.Keeps P (t.controllerReset cause) := by
  unfold State.controllerReset
  extract_lets a b
  have ha : s.Keeps P a := h.modNv.closeOpenZones.dropInvocations.modCar.endSession
  have hb : s.Keeps P b := ha.raise.dropTransport.dropUnwanted
  exact .ite hb.activateFw hb

theorem State.Keeps.execCcEnSet (h : s.Keeps P t) {ams css : Nat} {asqs acqs : Nat} : s.KeepsOut P (execCcEnSet ams css asqs acqs t) :=
  .next (.ite h h.modNv)

theorem State.Keeps.execCcEnClear (h : s.Keeps P t) : s.KeepsOut P (execCcEnClear t) := .next (.ite h (.ite h.modNv.controllerReset.goOn h.modNv))

theorem State.Keeps.execShutdownNormal (h : s.Keeps P t) : s.KeepsOut P (execShutdownNormal t) := .next (.ite h.modNv.raise.flushWhere.goOn h)

theorem State.Keeps.execShutdownAbrupt (h : s.Keeps P t) : s.KeepsOut P (execShutdownAbrupt t) :=
  .next (.ite h.modNv.closeOpenZones.dropInvocations.raise.dropUnwanted.goOn h)

theorem State.Keeps.execPerstNAssert (h : s.Keeps P t) : s.KeepsOut P (execPerstNAssert t) := .next (.ite h.controllerReset.goOn h)

theorem State.Keeps.execFunctionLevelReset (h : s.Keeps P t) : s.KeepsOut P (execFunctionLevelReset t) := .next (.ite h.controllerReset.goOn h)

theorem State.Keeps.execLinkTrained (h : s.Keeps P t) {rate width : Nat} {flit : Bool} : s.KeepsOut P (execLinkTrained rate width flit t) :=
  .next (.ite h (.ite h.modNv.raise h.modNv))

theorem State.Keeps.execLinkDown (h : s.Keeps P t) {requested : Bool} : s.KeepsOut P (execLinkDown requested t) :=
  .next (.ite h (.ite h.modNv h.modNv.raise.controllerReset.goOn))

theorem State.Keeps.execLinkPowerStateChange (h : s.Keeps P t) {state : Nat} : s.KeepsOut P (execLinkPowerStateChange state t) :=
  .next (.ite h h.modNv)

theorem State.Keeps.execUncorrectableAerError (h : s.Keeps P t) : s.KeepsOut P (execUncorrectableAerError t) := .next (.ite h.raise h)

theorem State.Keeps.execCreateIoCompletionQueue (h : s.Keeps P t) {h' : Hdr} {qid size vector : Nat} {ien pc : Bool} : s.KeepsOut P
    (execCreateIoCompletionQueue h' qid size vector ien pc t) :=
  .next ((h.adminCmd (fun _ _ h => .ite h.done (.ite h.done (.ite h.done (.ite h.done h.modNv.done))))).goOn)

theorem State.Keeps.execCreateIoSubmissionQueue (h : s.Keeps P t) {h' : Hdr} {qid size : Nat} {prio cqid : Nat} {pc : Bool} : s.KeepsOut P
    (execCreateIoSubmissionQueue h' qid size prio cqid pc t) :=
  .next ((h.adminCmd (fun _ _ h => .ite h.done (.ite h.done (.ite h.done h.modNv.done)))).goOn)

theorem State.Keeps.dropSq (h : s.Keeps P t) {qid : Nat} : s.Keeps P (t.dropSq qid) := by
  unfold State.dropSq
  extract_lets hs t2
  have ht2 : s.Keeps P t2 := h.foldl (fun _ h _ => by split; exacts [h, h, .ite h h.done])
  exact ht2.modNv.modComp

theorem State.Keeps.execDeleteIoSubmissionQueue (h : s.Keeps P t) {h' : Hdr} {qid : Nat} : s.KeepsOut P (execDeleteIoSubmissionQueue h' qid t) :=
  .next ((h.adminCmd (fun _ _ h => .ite h.done h.dropSq.dropUnwanted.modNv)).goOn)

theorem State.Keeps.execDeleteIoCompletionQueue (h : s.Keeps P t) {h' : Hdr} {qid : Nat} : s.KeepsOut P (execDeleteIoCompletionQueue h' qid t) :=
  .next ((h.adminCmd (fun _ _ h => .ite h.done (.ite h.done h.modNv.done))).goOn)

theorem State.Keeps.badDoorbell (h : s.Keeps P t) {cause qid : Nat} {hit : Nat → Sq → Bool} : s.Keeps P (t.badDoorbell cause qid hit) :=
  h.noteFault.modNv.raise.asyncEvent

theorem State.Keeps.execSqTailDoorbell (h : s.Keeps P t) {qid value : Nat} : s.KeepsOut P (execSqTailDoorbell qid value t) := by
  unfold Machine.execSqTailDoorbell
  refine .next ?_
  split
  · exact h
  · split
    · exact h.badDoorbell
    · exact .ite h.badDoorbell h.modNv

theorem State.Keeps.postWaiting (h : s.Keeps P t) {cqid : Nat} : s.Keeps P (t.postWaiting cqid) := by
  unfold State.postWaiting
  refine h.foldl (fun _ h _ => ?_)
  split
  · exact .ite h.post h
  · exact .ite h.post h
  · exact h

theorem State.Keeps.execCqHeadDoorbell (h : s.Keeps P t) {qid value : Nat} : s.KeepsOut P (execCqHeadDoorbell qid value t) := by
  unfold Machine.execCqHeadDoorbell
  refine .next ?_
  split
  · exact h
  · split
    · exact h.badDoorbell
    · exact .ite h.badDoorbell h.modNv.postWaiting.goOn

theorem State.Keeps.execCommandFetch (h : s.Keeps P t) : s.KeepsOut P (execCommandFetch t) := by
  unfold Machine.execCommandFetch
  refine .next ?_
  split
  · split
    · exact h.frame.fetchFrom
    · exact h
  · exact h

theorem State.Keeps.execAbort (h : s.Keeps P t) {h' : Hdr} {sqid cid : Nat} : s.KeepsOut P (execAbort h' sqid cid t) :=
  .next ((h.adminCmd (fun _ _ h => .ite h.done h.complete.modNv)).goOn)

theorem State.Keeps.execAsynchronousEventRequest (h : s.Keeps P t) {h' : Hdr} : s.KeepsOut P (execAsynchronousEventRequest h' t) := by
  unfold Machine.execAsynchronousEventRequest
  refine .next ?_
  refine (h.adminCmd (fun _ _ h => ?_)).goOn
  split
  · exact h.modNv.complete
  · exact .ite h.done h.modNv

end OfHostCtl

/-! ### Params -/

section OfParams
variable {P : Nat → Prop} {s t : State}

theorem State.Keeps.commitStaged (h : s.Keeps P t) {staged : NMap Nat} : s.Keeps P (t.commitStaged staged) := by
  refine State.Keeps.applyPend (h.layers ?_)
  rintro ⟨h1, h2, h3, h4⟩
  exact ⟨h1, h2, NMap.rising_foldl_put _ _ _ h3, h4⟩

theorem State.Keeps.noteWrite (h : s.Keeps P t) {pid i : Nat} : s.Keeps P (t.noteWrite pid i) :=
  h.layers fun ⟨h1, h2, h3, h4, h5⟩ => ⟨h1, h2, h3, NMap.rising_put _ _ h4, h5⟩

theorem State.Keeps.storeElem (h : s.Keeps P t) {d : PDesc} {i e : Nat} : s.Keeps P (t.storeElem d i e) := by
  unfold State.storeElem
  extract_lets u
  have hu : s.Keeps P u := h.noteWrite
  split
  · exact hu.setElem
  · exact hu.setElem
  · exact hu.layers fun ⟨h1, h2, h3⟩ => ⟨h1, NMap.rising_put _ _ h2, h3⟩
  · exact .ite hu.modNor hu
  · exact hu

theorem State.Keeps.regWrite (h : s.Keeps P t) {w : Option Hdr} {pid i e : Nat} {act : State → State} (hact : ∀ u, s.Keeps P u → s.Keeps P (act u))
  : s.Keeps P (t.regWrite w pid i e act) := by
  unfold State.regWrite
  split
  · exact hact _ h
  · refine h.adminCmd (fun _ _ h => ?_)
    split
    · exact h.complete
    · exact (hact _ h.noteWrite).done

end OfParams

/-! ### Features -/

section OfFeatures
variable {P : Nat → Prop} {s t : State}

theorem State.Keeps.vendorWrite (h : s.Keeps P t) {fid value : Nat} : s.Keeps P (t.vendorWrite fid value) := by
  unfold State.vendorWrite
  extract_lets fs t2 st
  have ht2 : s.Keeps P t2 := h.foldl (fun _ h _ => h.noteWrite.setElem)
  exact .ite ht2 ((ht2.foldl (fun _ h _ => h.noteWrite)).commitStaged)

theorem State.Keeps.setVendor (h : s.Keeps P t) {q fid : Nat} {bits value : Nat} : s.Keeps P (t.setVendor q fid bits value) := by
  unfold State.setVendor
  split
  · exact h.done
  · split
    · exact h.done
    · split
      · exact h.done
      · exact h.vendorWrite.done

theorem State.Keeps.setContext (h : s.Keeps P t) {q d11 : Nat} : s.Keeps P (t.setContext q d11) :=
  .ite h.done (.ite h.done (.ite (.ite h.done (.ite h.modMag.done h.modMag.done)) (.ite h.done h.modMag.modSp.done)))

theorem State.Keeps.setThreshold (h : s.Keeps P t) {q d11 : Nat} : s.Keeps P (t.setThreshold q d11) := .ite h.done h.modNv.done

theorem State.Keeps.setHmb (h : s.Keeps P t) {q d11 size : Nat} : s.Keeps P (t.setHmb q d11 size) :=
  .ite h.modCar.done.runHmb (.ite h.done (.ite h.done (.ite h.modCar.done (.ite h.modCar.raise.done h.modCar.done))))

theorem State.Keeps.setTime (h : s.Keeps P t) {q ms : Nat} : s.Keeps P (t.setTime q ms) := .ite h.done h.modPw.done

theorem State.Keeps.setFeature (h : s.Keeps P t) {q fid : Nat} {d11 d12 : Nat} {data : Bytes} : s.Keeps P (t.setFeature q fid d11 d12 data) := by
  unfold State.setFeature
  split
  · exact h.modNv.done
  · exact .ite h.done h.done
  · exact h.setThreshold
  · exact h.modNv.done
  · exact h.complete
  · exact h.modNv.done
  · exact .ite h.done h.modNv.done
  · exact h.modNv.done
  · exact h.setHmb
  · exact h.setTime
  · exact h.setVendor
  · exact h.setContext
  · exact h.setVendor
  · exact h.setVendor

theorem State.Keeps.setFeatures (h : s.Keeps P t) {h' : Hdr} {fid : Nat} {save : Bool} {act : Nat → State → State} (hact : ∀ a1 u, s.Keeps P u →
    s.Keeps P (act a1 u)) : s.KeepsOut P (t.setFeatures h' fid save act) :=
  .next ((h.adminCmd (fun _ _ h => .ite h.done (.ite h.done (hact _ _ h)))).goOn)

theorem State.Keeps.execSetFeatures (h : s.Keeps P t) {h' : Hdr} {fid : Nat} {save : Bool} {d11 d12 : Nat} {data : Bytes} : s.KeepsOut P
    (execSetFeatures h' fid save d11 d12 data t) :=
  h.setFeatures (fun _ _ h => h.setFeature)

theorem State.Keeps.execSetVolatileWriteCache (h : s.Keeps P t) {h' : Hdr} {save : Bool} {d11 : Nat} : s.KeepsOut P (execSetVolatileWriteCache h'
    save d11 t) :=
  h.setFeatures (fun _ _ h => h.setFeature)

theorem State.Keeps.execSetHostMemoryBuffer (h : s.Keeps P t) {h' : Hdr} {save : Bool} {d11 size : Nat} : s.KeepsOut P (execSetHostMemoryBuffer h'
    save d11 size t) :=
  h.setFeatures (fun _ _ h => h.setHmb)

theorem State.Keeps.execSetTimestamp (h : s.Keeps P t) {h' : Hdr} {save : Bool} {ms : Nat} : s.KeepsOut P (execSetTimestamp h' save ms t) :=
  h.setFeatures (fun _ _ h => h.setTime)

theorem State.Keeps.execSetSpeedPolicy (h : s.Keeps P t) {h' : Hdr} {save : Bool} {data : Bytes} : s.KeepsOut P (execSetSpeedPolicy h' save data t)
    :=
  h.setFeatures (fun _ _ h => h.setFeature)

theorem State.Keeps.execSetAcknowledgeCreditPolicy (h : s.Keeps P t) {h' : Hdr} {save : Bool} {d11 : Nat} : s.KeepsOut P
    (execSetAcknowledgeCreditPolicy h' save d11 t) :=
  h.setFeatures (fun _ _ h => h.setFeature)

theorem State.Keeps.execSetCompressionPolicy (h : s.Keeps P t) {h' : Hdr} {save : Bool} {d11 : Nat} : s.KeepsOut P (execSetCompressionPolicy h'
    save d11 t) :=
  h.setFeatures (fun _ _ h => h.setFeature)

theorem State.Keeps.execSetOperatingContext (h : s.Keeps P t) {h' : Hdr} {save : Bool} {d11 : Nat} : s.KeepsOut P (execSetOperatingContext h' save
    d11 t) :=
  h.setFeatures (fun _ _ h => h.setContext)

theorem State.Keeps.execSetRewritePolicy (h : s.Keeps P t) {h' : Hdr} {save : Bool} {data : Bytes} : s.KeepsOut P (execSetRewritePolicy h' save
    data t) :=
  h.setFeatures (fun _ _ h => h.setFeature)

theorem State.Keeps.execSetComputePolicy (h : s.Keeps P t) {h' : Hdr} {save : Bool} {d11 : Nat} : s.KeepsOut P (execSetComputePolicy h' save d11 t)
    :=
  h.setFeatures (fun _ _ h => h.setFeature)

theorem State.Keeps.execGetFeatures (h : s.Keeps P t) {h' : Hdr} {fid sel d11 : Nat} : s.KeepsOut P (execGetFeatures h' fid sel d11 t) := by
  unfold Machine.execGetFeatures
  refine .next ?_
  refine (h.adminCmd (fun _ _ h => .ite h.done (.ite h.complete (.ite h.complete (.ite h.complete (.ite h.complete ?_)))))).goOn
  split
  · exact h.complete
  · exact h.done

end OfFeatures

/-! ### ReadCal -/

section OfReadCal
variable {P : Nat → Prop} {s t : State}

theorem State.Keeps.calAdd (h : s.Keeps P t) {z lane cur : Nat} : s.Keeps P (t.calAdd z lane cur) := h.modRc

theorem State.Keeps.calEntry (h : s.Keeps P t) {k : Nat} {c : CalSum} : s.Keeps P (t.calEntry k c) := .ite h.setPv.modRc.raise h.setPv.modRc

theorem State.Keeps.calUpdate (h : s.Keeps P t) {p : Nat → Bool} : s.Keeps P (t.calUpdate p) := .ite h (h.foldl (fun _ h _ => .ite h.calEntry h))

end OfReadCal

/-! ### Spooling -/

section OfSpooling
variable {P : Nat → Prop} {s t : State}

theorem State.Keeps.crawlEnd (h : s.Keeps P t) : s.Keeps P t.crawlEnd := .ite (.ite h.modSp.drainStep h.modSp.stopTape) h

theorem State.Keeps.closeEnd (h : s.Keeps P t) : s.Keeps P t.closeEnd := .ite h.modSp.stopTape h

theorem State.Keeps.enterCrawl (h : s.Keeps P t) : s.Keeps P t.enterCrawl := h.enter.modSp

theorem State.Keeps.crawlSwitch (h : s.Keeps P t) : s.Keeps P t.crawlSwitch := .ite h.enterCrawl (.ite h.enter.modSp h)

theorem State.Keeps.execSpeedRequestUpdate (h : s.Keeps P t) : s.KeepsOut P (execSpeedRequestUpdate t) :=
  .next ((h.crawlSwitch.modSp.when (fun _ h => h.modCtl)).crawlEnd)

theorem State.Keeps.execCrawlLimitExpiry (h : s.Keeps P t) : s.KeepsOut P (execCrawlLimitExpiry t) := .next (.ite h.modSp.crawlEnd.serve h)

theorem State.Keeps.execFsyncEdge (h : s.Keeps P t) {lowNs highNs periodUs : Nat} : s.KeepsOut P (execFsyncEdge lowNs highNs periodUs t) :=
  .next (.ite h (.ite h.modSp (.ite h.modSp.raise h.modSp)))

theorem State.Keeps.execFsyncTimeout (h : s.Keeps P t) : s.KeepsOut P (execFsyncTimeout t) := .next (.ite h h.modSp.raise)

theorem State.Keeps.zoneSelect (h : s.Keeps P t) : s.Keeps P t.zoneSelect := .ite h.modSp h

theorem State.Keeps.blank (h : s.Keeps P t) {skip : Bool} : s.Keeps P (t.blank skip) := by
  unfold State.blank
  extract_lets w t2
  have ht2 : s.Keeps P t2 := h.modSp.modCtl
  split
  · exact ht2.modSp
  · exact ht2.modSp

theorem State.Keeps.passCopy (h : s.Keeps P t) {c : Copy} : s.Keeps P (t.passCopy c) := .foldl (.passBytes (.ite h.pass h)) (fun _ h _ => h.passBytes)

theorem State.Keeps.startCopy (h : s.Keeps P t) {c : Copy} {wrap pos : Nat} : s.Keeps P (t.startCopy c wrap pos) := by
  unfold State.startCopy
  exact h.passCopy.modSp.modCtl

theorem State.Keeps.takeSkip (h : s.Keeps P t) {c : Copy} : s.Keeps P (t.takeSkip c) := h.modSp.blank

theorem State.Keeps.afterGen (h : s.Keeps P t) : s.Keeps P t.afterGen := by
  unfold State.afterGen
  split
  · exact .ite h.modCtl.stopTape h.modCtl.startMove
  · exact h.modCtl.stopTape
  · exact h.modCtl.startMove

theorem State.Keeps.indexBoundary (h : s.Keeps P t) {g : IndexGen} {ready : Bool} : s.Keeps P (t.indexBoundary g ready) :=
  .ite h.blank (.ite h.abandonGen.afterGen (.ite h.blank (.ite h.blank (.ite h.takeSkip h.startCopy.modSp))))

theorem State.Keeps.dataBoundary (h : s.Keeps P t) {ready : Bool} : s.Keeps P (t.dataBoundary ready) := by
  unfold State.dataBoundary
  split
  · exact h.modCtl
  · split
    · exact h.modSp.modCtl
    · split
      · exact h.modSp.modCtl
      · split
        · exact h.blank
        · split
          · exact h.blank
          · exact .ite h.blank (.ite h.takeSkip h.spoolStart.startCopy.modSp)

theorem State.Keeps.boundary (h : s.Keeps P t) {ready : Bool} : s.Keeps P (t.boundary ready) := by
  unfold State.boundary
  split
  · exact h
  · extract_lets t1 u
    have hu : s.Keeps P u := .ite h.applyPend.zoneSelect.modCtl.calUpdate h.applyPend.zoneSelect.modCtl
    refine .ite (.ite hu hu.blank) ?_
    split
    · exact hu.indexBoundary
    · exact hu.dataBoundary

theorem State.Keeps.retireChannel (h : s.Keeps P t) {c : Nat} : s.Keeps P (t.retireChannel c) := .ite h h.noteFault.modSp.raise

theorem State.Keeps.retireCheck (h : s.Keeps P t) {x : Started} : s.Keeps P (t.retireCheck x) := h.modSp.foldl (fun _ h _ => .ite h.retireChannel h)

theorem State.Keeps.groupDone (h : s.Keeps P t) {f m : Nat} : s.Keeps P (t.groupDone f m) := by
  unfold State.groupDone
  split
  · exact h
  · exact h.modSp.indexCommit

theorem State.Keeps.copyPassed (h : s.Keeps P t) {x : Started} : s.Keeps P (t.copyPassed x) := by
  unfold State.copyPassed
  extract_lets t1
  have ht1 : s.Keeps P t1 := h.modSp
  split
  · split
    · exact .ite (.ite ht1.modSp.completeGen.afterGen ht1.modSp) ht1
    · exact ht1
  · split
    · split
      · exact .groupDone (.ite ht1.retain ht1)
      · exact .ite ht1.retain ht1
    · exact .ite ht1.retain ht1

theorem State.Keeps.copyFailed (h : s.Keeps P t) {x : Started} : s.Keeps P (t.copyFailed x) := by
  unfold State.copyFailed
  extract_lets t1 out
  have ht1 : s.Keeps P t1 := h.modSp
  exact .ite (.ite ht1 (.ite ht1.modSp.abandonGen.afterGen ht1)) (.ite (.ite ht1.retain ht1) (.ite (.stopTape (.asyncEvent (.journalOpen (.modSp
    (.ite ht1.retain ht1))))) (.ite (.modSp (.ite ht1.retain ht1)) (.ite ht1.retain ht1))))

theorem State.Keeps.takeResults {n : Nat} (h : s.Keeps P t) : s.Keeps P (State.takeResults n t) := by
  induction n generalizing t with
  | zero => exact h
  | succ n ih =>
    unfold State.takeResults
    split
    · split
      · exact ih (.ite h.pass.copyPassed h.pass.copyFailed)
      · exact h
    · exact h

theorem State.Keeps.actOnResults (h : s.Keeps P t) : s.Keeps P t.actOnResults := .ite h.takeResults.serve.closeEnd.crawlEnd h

theorem State.Keeps.execVerifyResult (h : s.Keeps P t) : s.KeepsOut P (execVerifyResult t) := by
  unfold Machine.execVerifyResult
  refine .next ?_
  split
  · exact h
  · exact .ite h.retireCheck.modSp.actOnResults h.retireCheck.modSp

theorem State.Keeps.execDsPositionBoundary (h : s.Keeps P t) {ready : Bool} : s.KeepsOut P (execDsPositionBoundary ready t) :=
  .next (.ite h.actOnResults.boundary h)

theorem State.Keeps.execGroupSpoolCommit (h : s.Keeps P t) : s.KeepsOut P (execGroupSpoolCommit t) := by
  unfold Machine.execGroupSpoolCommit
  dsimp only
  refine .next ?_
  split
  · exact h
  · split
    · exact h
    · split
      · exact h.retain
      · exact h.retain.modSp.mapCommit.indexCommit.trimLog.growZones.goOn

theorem State.Keeps.turnPass (h : s.Keeps P t) : s.Keeps P t.turnPass := by
  unfold State.turnPass
  dsimp only
  split
  · exact h.modCtl.stopTape
  · split
    · exact h.modCtl.stopTape
    · exact h.clearCapture.modRc.modCtl

theorem State.Keeps.execWrapTurnaround (h : s.Keeps P t) : s.KeepsOut P (execWrapTurnaround t) := by
  unfold Machine.execWrapTurnaround
  dsimp only
  refine .next ?_
  split
  · exact h.turnPass
  · split
    · exact h
    · split
      · exact h.calUpdate.nextWrap.modSp.stopTape
      · split
        · split
          · exact (h.calUpdate.nextWrap.buildGen _ ‹_›).startMove
          · exact h.calUpdate.nextWrap.modCtl
        · exact h.calUpdate.nextWrap.modCtl

theorem State.Keeps.execTapeTailScan (h : s.Keeps P t) {lastSeparator : Option Nat} {headPosition : Nat} : s.KeepsOut P (execTapeTailScan
    lastSeparator headPosition t) :=
  .next (.ite h (.ite (.serve (.stopTape (.ite h.modSp.raise.nextWrap h.modSp.raise))) (.startMove (.ite h.modSp.raise.nextWrap h.modSp.raise))))

end OfSpooling

/-! ### ParamRead -/

section OfParamRead
variable {P : Nat → Prop} {s t : State}

theorem State.Keeps.execParameterRead (h : s.Keeps P t) {h' : Hdr} {d10 first count : Nat} : s.KeepsOut P (execParameterRead h' d10 first count t)
  := by
  unfold Machine.execParameterRead
  refine .next ?_
  refine (h.adminCmd (fun _ _ h => ?_)).goOn
  split
  · exact h.done
  · exact .ite h.done (.ite h.complete (.ite h.done (.ite h.done h.complete)))

theorem State.Keeps.paramCommit (h : s.Keeps P t) {q : Nat} : s.Keeps P (t.paramCommit q) := by
  unfold State.paramCommit
  split
  · exact h.complete
  · exact h.dropStaged.commitStaged.modRc.complete

theorem State.Keeps.execParameterCommit (h : s.Keeps P t) {h' : Hdr} {op : Nat} : s.KeepsOut P (execParameterCommit h' op t) :=
  .next (h.adminCmd fun _ _ h => .ite h.done (.ite h.paramCommit (.ite h.dropStaged.done h.done))).goOn

theorem State.Keeps.execParameterDiscard (h : s.Keeps P t) {h' : Hdr} : s.KeepsOut P (execParameterDiscard h' t) :=
  .next (h.adminCmd fun _ _ h => .ite h.done h.dropStaged.done).goOn

end OfParamRead

/-! ### Logs -/

section OfLogs
variable {P : Nat → Prop} {s t : State}

theorem State.Keeps.lifeCompute (h : s.Keeps P t) : s.Keeps P t.lifeCompute :=
  .ite (.raise (.modEv (.ite h.modEv.modEv.raise h.modEv))) (.ite h.modEv.modEv.raise h.modEv)

theorem State.Keeps.logRead (h : s.Keeps P t) {lid : Nat} : s.Keeps P (t.logRead lid) := h.modNv

theorem State.Keeps.execGetLogPage (h : s.Keeps P t) {h' : Hdr} {lid off dwords : Nat} {rae : Bool} : s.KeepsOut P (execGetLogPage h' lid off
  dwords rae t) := by
  unfold Machine.execGetLogPage
  dsimp only
  refine .next ?_
  refine (h.adminCmd (fun _ _ h => ?_)).goOn
  split
  · exact h.done
  · exact .ite h.done (.complete (.ite (.ite h.lifeCompute h) (.logRead (.ite h.lifeCompute h))))

end OfLogs

/-! ### HostAdmin -/

section OfHostAdmin
variable {P : Nat → Prop} {s t : State}

theorem State.Keeps.execIdentify (h : s.Keeps P t) {h' : Hdr} {cns nsid csi : Nat} : s.KeepsOut P (execIdentify h' cns nsid csi t) := by
  unfold Machine.execIdentify
  refine .next ?_
  refine (h.adminCmd (fun _ _ h => ?_)).goOn
  split
  · exact h.complete
  · exact h.done

theorem State.Keeps.execTraceRead (h : s.Keeps P t) {h' : Hdr} {d10 first src : Nat} : s.KeepsOut P (execTraceRead h' d10 first src t) :=
  .next ((h.adminCmd (fun _ _ h => .ite h.done (.ite h.done (.ite h.done h.traceMove)))).goOn)

theorem State.Keeps.execFirmwareImageDownload (h : s.Keeps P t) {h' : Hdr} {off : Nat} {data : Bytes} : s.KeepsOut P (execFirmwareImageDownload h'
    off data t) :=
  .next ((h.adminCmd (fun _ _ h => .ite h.done h.modNv.done)).goOn)

theorem State.Keeps.storePackage (h : s.Keeps P t) {q slot : Nat} {st : Status} : s.Keeps P (t.storePackage q slot st) :=
  .ite h.done (.ite h.raise.done (.ite h.done h.norWrite.modNv))

theorem State.Keeps.execFirmwareCommitStore (h : s.Keeps P t) {h' : Hdr} {slot : Nat} : s.KeepsOut P (execFirmwareCommitStore h' slot t) :=
  .next ((h.adminCmd (fun _ _ h => h.storePackage)).goOn)

theorem State.Keeps.execFirmwareCommitStoreAndMark (h : s.Keeps P t) {h' : Hdr} {slot : Nat} : s.KeepsOut P (execFirmwareCommitStoreAndMark h' slot
    t) :=
  .next ((h.adminCmd (fun _ _ h => h.storePackage)).goOn)

theorem State.Keeps.execFirmwareCommitMark (h : s.Keeps P t) {h' : Hdr} {slot : Nat} : s.KeepsOut P (execFirmwareCommitMark h' slot t) :=
  .next ((h.adminCmd (fun _ _ h => .ite h.done (.ite h.done h.modNv.done))).goOn)

theorem State.Keeps.execFirmwareCommitActivate (h : s.Keeps P t) {h' : Hdr} {slot : Nat} : s.KeepsOut P (execFirmwareCommitActivate h' slot t) :=
  .next ((h.adminCmd (fun _ _ h => .ite h.done (.ite h.done (.ite h.done h.asyncEvent.modNv)))).goOn)

theorem State.Keeps.formatTake (h : s.Keeps P t) {q : Nat} : s.Keeps P (t.formatTake q) :=
  .ite h.done ((h.foldl (fun _ h _ => .ite h.done h)).modNv.startRotation)

theorem State.Keeps.formatSide (h : s.Keeps P t) {q : Nat} {erase : Bool} : s.Keeps P (t.formatSide q erase) :=
  .ite h.done (.done (.ite (h.sideClear.foldl (fun _ h _ => h.eraseBlock)) h.sideClear))

theorem State.Keeps.format (h : s.Keeps P t) {q nsid : Nat} {ses lbaf : Nat} : s.Keeps P (t.format q nsid ses lbaf) :=
  .ite h.done (.ite h.done (.ite h.done (.ite (.ite h.formatTake h.done) (.ite h.done h.formatSide))))

theorem State.Keeps.execFormatNvm (h : s.Keeps P t) {h' : Hdr} {nsid ses lbaf : Nat} : s.KeepsOut P (execFormatNvm h' nsid ses lbaf t) :=
  .next ((h.adminCmd (fun _ _ h => h.format)).goOn)

theorem State.Keeps.execFormatSecureEraseTake (h : s.Keeps P t) {h' : Hdr} {nsid lbaf : Nat} : s.KeepsOut P (execFormatSecureEraseTake h' nsid lbaf
    t) :=
  .next ((h.adminCmd (fun _ _ h => h.format)).goOn)

theorem State.Keeps.execUnsupportedCommand (h : s.Keeps P t) {h' : Hdr} {opcode n d10 : Nat} :
    s.KeepsOut P (execUnsupportedCommand h' opcode n d10 t) := by
  unfold Machine.execUnsupportedCommand
  refine .next ?_
  split
  · next hb =>
    have hu := h.begin _ hb
    dsimp only at hu
    exact hu.done.goOn
  · exact h.goOn

end OfHostAdmin

/-! ### Profile -/

section OfProfile
variable {P : Nat → Prop} {s t : State}

theorem State.Keeps.forProfile (h : s.Keeps P t) {b : Bytes} : s.Keeps P (t.forProfile b) := h.modNor.modNv

end OfProfile

/-! ### Carousel -/

section OfCarousel
variable {P : Nat → Prop} {s t : State}

theorem State.Keeps.carLog (h : s.Keeps P t) {o n : Nat} : s.Keeps P (t.carLog o n) := h.modCar

theorem State.Keeps.execPageProgramStatus (h : s.Keeps P t) {unit : Nat} {pass : Bool} : s.KeepsOut P (execPageProgramStatus unit pass t) := by
  unfold Machine.execPageProgramStatus
  refine .next ?_
  split
  · exact h
  · exact .ite h (.ite h.pass.modCar.modDie.goOn (.goOn (.ite h.pass.raise.retireBlock.dieFailed h.pass.raise.retireBlock.dieFailed.reprogram)))

theorem State.Keeps.execDieOperationTimeout (h : s.Keeps P t) {die : Nat} : s.KeepsOut P (execDieOperationTimeout die t) :=
  .next (.ite h h.raise.retireDie.goOn)

theorem State.Keeps.queueScrub (h : s.Keeps P t) {key : Nat} {urgent : Bool} : s.Keeps P (t.queueScrub key urgent) :=
  .ite h (.ite h.modCar.carLog h.modCar)

theorem State.Keeps.execPageRead (h : s.Keeps P t) {die block page : Nat} {errors : List Nat} : s.KeepsOut P (execPageRead die block page errors t)
  := by
  unfold Machine.execPageRead
  dsimp only
  refine .next ?_
  split
  · exact h
  · split
    · exact .ite h.applyPend.carLog.raise h.applyPend
    · exact .goOn (.readAll (.ite (.queueScrub (.raise (.ite (.ite h.applyPend.modDie.carLog h.applyPend.modDie) (.raise (.carLog (.modCar (.ite
        h.applyPend.modDie.carLog h.applyPend.modDie))))))) (.ite (.ite h.applyPend.modDie.carLog h.applyPend.modDie) (.raise (.carLog (.modCar
        (.ite h.applyPend.modDie.carLog h.applyPend.modDie)))))))

theorem State.Keeps.freeIfEmpty (h : s.Keeps P t) {d b : Nat} : s.Keeps P (t.freeIfEmpty d b) := .ite h.modBlock h

theorem State.Keeps.recPersisted (h : s.Keeps P t) {r : JRec} : s.Keeps P (t.recPersisted r) := by
  unfold State.recPersisted
  split
  · split
    · exact .ite h.modCar.modSp (.ite h.modCar.modCar h.modCar)
    · exact h
  · split
    · exact h.modCar.freeIfEmpty
    · exact h
  · exact h.modSp.releaseFlush
  · exact h.modSp
  · exact h.modEv
  · exact h

theorem State.Keeps.trimArea (h : s.Keeps P t) : s.Keeps P t.trimArea := by
  unfold State.trimArea
  exact h.modSp

theorem State.Keeps.commitDone (h : s.Keeps P t) {i : Nat} {c : JCommit} : s.Keeps P (t.commitDone i c) :=
  (h.modCar.foldl (fun _ h _ => h.recPersisted)).trimArea

theorem State.Keeps.execJournalRecordPersisted (h : s.Keeps P t) : s.KeepsOut P (execJournalRecordPersisted t) := by
  unfold Machine.execJournalRecordPersisted
  refine .next ?_
  split
  · exact h
  · split
    · exact .ite h (.goOn (.readAll (.settleRot (.commitDone (.ite h.pass h)))))
    · exact h

theorem State.Keeps.execCheckpointWrite (h : s.Keeps P t) : s.KeepsOut P (execCheckpointWrite t) := .next (.ite h h.modCar.norWrite)

theorem State.Keeps.sideFlush (h : s.Keeps P t) : s.Keeps P t.sideFlush := h.foldl (fun _ h _ => h.foldl (fun _ h1 _ => h1.sideWrite))

theorem State.Keeps.execProgramSequenceCeiling (h : s.Keeps P t) {ok0 ok1 : Bool} : s.KeepsOut P (execProgramSequenceCeiling ok0 ok1 t) :=
  .next (.ite h (.ite h.putCopies.modCar.sideFlush.goOn (.ite h.putCopies h.putCopies.noteFault.raise)))

theorem State.Keeps.moveUnit (h : s.Keeps P t) {k : Nat} {u : CUnit} : s.KeepsSome P id (t.moveUnit k u) :=
  .map h.newUnit fun _ h => h.modCar.mapCommit

theorem State.Keeps.emptyBlock (h : s.Keeps P t) {key off : Nat} : s.Keeps P (t.emptyBlock key off) := by
  unfold State.emptyBlock
  refine h.foldl (fun _ h _ => ?_)
  split
  · exact h
  · split
    · exact (h.moveUnit _ ‹_›).carLog
    · exact .ite h.sideWorn h

theorem State.Keeps.execGcRun (h : s.Keeps P t) : s.KeepsOut P (execGcRun t) := by
  unfold Machine.execGcRun
  dsimp only
  refine .next ?_
  split
  · exact h
  · split
    · exact h
    · exact h.modBlock.emptyBlock.modCar.goOn

theorem State.Keeps.execFold (h : s.Keeps P t) {extent : Nat} : s.KeepsOut P (execFold extent t) := by
  unfold Machine.execFold
  refine .next ?_
  split
  · refine .ite h ?_
    dsimp only
    split
    · next hunit => exact (h.newUnit _ hunit).setExtent.carLog.goOn
    · exact h.sideWorn.goOn
  · exact h

theorem State.Keeps.execScrub (h : s.Keeps P t) : s.KeepsOut P (execScrub t) := .next (.ite h (h.foldl (fun _ h _ => h.queueScrub)))

theorem State.Keeps.execAgeClockStep (h : s.Keeps P t) : s.KeepsOut P (execAgeClockStep t) := .next (.ite h h.modCar)

theorem State.Keeps.execHmbMapLoadDone (h : s.Keeps P t) : s.KeepsOut P (execHmbMapLoadDone t) := .next (.ite h.modCar.runHmb.goOn h)

end OfCarousel

/-! ### Control -/

section OfControl
variable {P : Nat → Prop} {s t : State}

theorem State.Keeps.latchSlot (h : s.Keeps P t) {n : Nat} : s.Keeps P (t.latchSlot n) := .modSlot (.ite h h.traceHit)

theorem State.Keeps.observers (h : s.Keeps P t) {n : Nat} : s.Keeps P (t.observers n) := h.foldl (fun _ h _ => .ite h.modSlot.bumpPv h)

theorem State.Keeps.clockUpdate (h : s.Keeps P t) {slot : Nat} : s.Keeps P (t.clockUpdate slot) := .ite h.modCtl h

theorem State.Keeps.radiusUpdate (h : s.Keeps P t) : s.Keeps P t.radiusUpdate := .ite h.modCtl h

theorem State.Keeps.tensionStep (h : s.Keeps P t) : s.Keeps P t.tensionStep := .ite h (.ite h.modCtl.armUnlessHeld h.modCtl)

theorem State.Keeps.sweepStep (h : s.Keeps P t) : s.Keeps P t.sweepStep := by
  unfold State.sweepStep
  split
  · exact h
  · split
    · exact h.modCtl
    · exact .ite h.modCtl h

theorem State.Keeps.wrapStep (h : s.Keeps P t) : s.Keeps P t.wrapStep := .ite h (.ite h.modCtl h.modCtl)

theorem State.Keeps.rampStep (h : s.Keeps P t) : s.Keeps P t.rampStep := by
  unfold State.rampStep
  split
  · exact h
  · exact h.modCtl.modLink.modLink

theorem State.Keeps.probeStep (h : s.Keeps P t) : s.Keeps P t.probeStep := .ite h h.modLink.modLink

theorem State.Keeps.superFrame (h : s.Keeps P t) : s.Keeps P t.superFrame := by
  unfold State.superFrame
  extract_lets t1
  have ht1 : s.Keeps P t1 := h.applyPend.radiusUpdate.tensionStep.sweepStep.rampStep.probeStep.limiter.wrapStep
  exact .ite ht1.modCtl ht1

theorem State.Keeps.execDwellEnd (h : s.Keeps P t) : s.KeepsOut P (execDwellEnd t) := .next (.ite h.modCtl.bumpPv h)

theorem State.Keeps.notePeriod (h : s.Keeps P t) {n : Nat} : s.Keeps P (t.notePeriod n) := by
  unfold State.notePeriod
  extract_lets ok c v est t5 u
  have ht5 : s.Keeps P t5 := h.modSlot
  have hu : s.Keeps P u := by
    dsimp only [u]
    split; exacts [ht5.modLink, ht5]
  exact .ite hu.modEnc hu

theorem State.Keeps.supervise (h : s.Keeps P t) {n : Nat} : s.Keeps P (t.supervise n) := by
  unfold State.supervise
  split
  · exact h.notePeriod.declare
  · exact h.notePeriod

theorem State.Keeps.execSupervisorFeedbackPeriod (h : s.Keeps P t) {slot : Nat} : s.KeepsOut P (execSupervisorFeedbackPeriod slot t) :=
  .next (.ite h (.ite h.modSlot h.supervise))

theorem State.Keeps.latchAndTest (h : s.Keeps P t) {n : Nat} : s.Keeps P (t.latchAndTest n) :=
  .ite h.latchSlot (.ite h.latchSlot.supervise.modSlot.modSlot h.latchSlot.supervise.modSlot)

theorem State.Keeps.rearmLook (h : s.Keeps P t) {n : Nat} : s.Keeps P (t.rearmLook n) := .ite h.modSlot.rearm h

theorem State.Keeps.agePeriod (h : s.Keeps P t) {n : Nat} : s.Keeps P (t.agePeriod n) := .ite h.modEnc h

theorem State.Keeps.execSlotSampleInstant (h : s.Keeps P t) {slot : Nat} : s.KeepsOut P (execSlotSampleInstant slot t) := by
  unfold Machine.execSlotSampleInstant
  dsimp only
  refine .next ?_
  split
  · exact h
  · split
    · exact h.applyPend.rearmLook.agePeriod.latchAndTest.clockUpdate
    · exact .ite h.applyPend.rearmLook.agePeriod.latchAndTest.clockUpdate h.applyPend.rearmLook.agePeriod.latchAndTest.clockUpdate.holdOut
    · exact .ite h.applyPend.rearmLook.agePeriod.latchAndTest.clockUpdate h.applyPend.rearmLook.agePeriod.latchAndTest.clockUpdate.runSlot.observers

theorem State.Keeps.execSubstitutionEnd (h : s.Keeps P t) {slot : Nat} : s.KeepsOut P (execSubstitutionEnd slot t) := .next (.ite h.toHold h)

theorem State.Keeps.requestRearm (h : s.Keeps P t) {n : Nat} : s.Keeps P (t.requestRearm n) := h.modSlot

theorem State.Keeps.execCtlRearm (h : s.Keeps P t) {w : Option Hdr} {slot : Nat} : s.KeepsOut P (execCtlRearm w slot t) :=
  .next ((h.regWrite (fun _ h => h.requestRearm)).goOn)

theorem State.Keeps.encoderBad (h : s.Keeps P t) {reel cause : Nat} : s.Keeps P (t.encoderBad reel cause) :=
  .ite h.modEnc.bumpPv h.modEnc.bumpPv.modEnc.raise

theorem State.Keeps.execEncoderEdge (h : s.Keeps P t) {reel : Nat} {a b index : Bool} {cycles : Nat} : s.KeepsOut P (execEncoderEdge reel a b index
    cycles t) :=
  .next (.ite h (.ite (.ite h.modEnc h.modEnc.noteMotion) (.encoderBad (.ite h.modEnc h.modEnc.noteMotion))))

theorem State.Keeps.execShuttleCodeSample (h : s.Keeps P t) {raw : Nat} : s.KeepsOut P (execShuttleCodeSample raw t) :=
  .next (.ite h.modCtl.modCtl.raise h.modCtl.modCtl)

theorem State.Keeps.execLinkSampleFrame (h : s.Keeps P t) {link : Nat} : s.KeepsOut P (execLinkSampleFrame link t) := .next (.ite h.modLink h)

theorem State.Keeps.linkBad (h : s.Keeps P t) {k cause : Nat} : s.Keeps P (t.linkBad k cause) := .ite h.bumpPv h.bumpPv.modLink.raise

theorem State.Keeps.emergency (h : s.Keeps P t) {cause : Nat} : s.Keeps P (t.emergency cause) :=
  .ite h ((h.endCopy.foldl (fun _ h _ => .ite h h.slotOff)).modCtl.modPw.raise)

theorem State.Keeps.brakeLook (h : s.Keeps P t) : s.Keeps P t.brakeLook := .ite h.modCtl h

theorem State.Keeps.linkFault (h : s.Keeps P t) {k : Nat} : s.Keeps P (t.linkFault k) := .ite h.modLink.declare.emergency h.modLink.declare

theorem State.Keeps.execLinkStatusFrame (h : s.Keeps P t) {link frame : Nat} {late : Bool} : s.KeepsOut P (execLinkStatusFrame link frame late t) :=
  .next (.ite h (.ite h.linkBad (.ite h.linkBad (.ite h.modLink.linkFault h.modLink.modLink))))

theorem State.Keeps.execFaultLineAsserted (h : s.Keeps P t) {link : Nat} : s.KeepsOut P (execFaultLineAsserted link t) := .next (.ite h.linkFault h)

theorem State.Keeps.execEmergencyStop (h : s.Keeps P t) {cause : Nat} : s.KeepsOut P (execEmergencyStop cause t) := .next (.ite h.emergency h)

theorem State.Keeps.execEmergencyBrakeApply (h : s.Keeps P t) : s.KeepsOut P (execEmergencyBrakeApply t) := .next h.brakeLook

theorem State.Keeps.execTraceSample (h : s.Keeps P t) : s.KeepsOut P (execTraceSample t) := .next (.ite h.modCtl h.modCtl)

theorem State.Keeps.execTraceFreeze (h : s.Keeps P t) : s.KeepsOut P (execTraceFreeze t) := .next (.ite h.modCtl.raise.asyncEvent h)

theorem State.Keeps.execCtlTrcArm (h : s.Keeps P t) {w : Option Hdr} : s.KeepsOut P (execCtlTrcArm w t) :=
  .next ((h.regWrite (fun _ h => h.traceArm)).goOn)

theorem State.Keeps.execCtlTrcSoftwareTrigger (h : s.Keeps P t) {w : Option Hdr} : s.KeepsOut P (execCtlTrcSoftwareTrigger w t) :=
  .next ((h.regWrite (fun _ h => h.traceHit)).goOn)

end OfControl

/-! ### ComputeOps -/

section OfComputeOps
variable {P : Nat → Prop} {s t : State}

theorem State.Keeps.modCore (h : s.Keeps P t) {c : Nat} {f : Core → Core} : s.Keeps P (t.modCore c f) := h.modComp

theorem State.Keeps.endInvocation (h : s.Keeps P t) {c : Nat} {st : Status} {dw0 dw1 : Nat} : s.Keeps P (t.endInvocation c st dw0 dw1) := by
  unfold State.endInvocation
  split
  · exact h.complete.modCore
  · exact h

theorem State.Keeps.freezeInst (h : s.Keeps P t) {i addr : Nat} : s.Keeps P (t.freezeInst i addr) := by
  unfold State.freezeInst
  split
  · exact h
  · split
    · exact h
    · extract_lets t1 u mine
      have ht : s.Keeps P t1 := h.modComp.bumpPv
      have hu : s.Keeps P u := by
        dsimp only [u]
        split
        · exact ht.complete.modCore
        · exact ht
      exact hu.modComp.doneAll

theorem State.Keeps.freeze (h : s.Keeps P t) {i addr cause : Nat} : s.Keeps P (t.freeze i addr cause) := by
  unfold State.freeze
  dsimp only
  split
  · exact h
  · split
    · exact h
    · split
      · exact h.freezeInst.noteFault.raise
      · exact h.freezeInst.noteFault

end OfComputeOps

/-! ### CacheOps -/

section OfCacheOps
variable {P : Nat → Prop} {s t : State}

theorem State.Keeps.modSet (h : s.Keeps P t) {l : Nat} {f : CSet → CSet} : s.Keeps P (t.modSet l f) := h.modCache

theorem State.Keeps.setVictims (h : s.Keeps P t) {b : Nat} {v : List Victim} : s.Keeps P (t.setVictims b v) := h.modCache

theorem State.Keeps.putLine (h : s.Keeps P t) {l : Nat} {b : Bytes} : s.Keeps P (t.putLine l b) := h.modBuffer (NMap.wf_set _ _)

theorem State.Keeps.evict (h : s.Keeps P t) {b : Nat} {v : Victim} : s.Keeps P (t.evict b v) := by
  unfold State.evict
  dsimp only
  split
  · exact h.setVictims
  · split
    · exact .ite h.setVictims.putLine h.setVictims
    · exact h.setVictims

theorem State.Keeps.cacheOut (h : s.Keeps P t) {b : Bytes} : s.Keeps P (t.cacheOut b) := h.modCache

theorem State.Keeps.useLine (h : s.Keeps P t) {r : CReq} {x : CLine} : s.Keeps P (t.useLine r x).2 := by
  unfold State.useLine
  split
  · exact h
  · exact h.cacheOut

theorem State.Keeps.install (h : s.Keeps P t) {l w : Nat} {x : CLine} {top : Bool} : s.Keeps P (t.install l w x top).2 := h.modSet

theorem State.Keeps.allocate (h : s.Keeps P t) {q l : Nat} {x : CLine} {top : Bool} : s.KeepsSome P id (t.allocate q l x top) := by
  unfold State.allocate
  dsimp only
  refine .map_of (fun _ => ?_)
  split
  · exact h.install.evict
  · exact h.install

theorem State.Keeps.cacheCe (h : s.Keeps P t) {b set w : Nat} : s.Keeps P (t.cacheCe b set w) :=
  .ite (.raise (.bumpPv (.modCache (.ite h h.modCache)))) (.bumpPv (.modCache (.ite h h.modCache)))

theorem State.Keeps.dropEntry (h : s.Keeps P t) {l : Nat} {at_ : Where} : s.Keeps P (t.dropEntry l at_) := by
  unfold State.dropEntry
  split
  · exact h.modSet
  · exact h.setVictims
  · exact h

theorem State.Keeps.cacheError (h : s.Keeps P t) {r : CReq} : s.Keeps P (t.cacheError r) := by
  unfold State.cacheError
  dsimp only
  split
  · exact h
  · split
    · exact h.cacheCe
    · split
      · exact h.noteFault.dropEntry.bumpPv.raise
      · split
        · split
          · exact h.noteFault.dropEntry.bumpPv.raise.freezeInst
          · exact h.noteFault.dropEntry.bumpPv.raise
        · exact .ite (h.noteFault.dropEntry.bumpPv.raise.foldl (fun _ h _ => h.freezeInst)) h

theorem State.Keeps.prefetch (h : s.Keeps P t) {q l : Nat} : s.Keeps P (t.prefetch q l) := .ite h.modCache.bumpPv h

theorem State.Keeps.serveHit (h : s.Keeps P t) {r : CReq} : s.KeepsSome P id (t.serveHit r) := by
  unfold State.serveHit
  dsimp only
  split
  · exact .map_of (fun _ => h.useLine.install.bumpPv)
  · refine .map_of (fun _ => ?_)
    split
    · exact h.bumpPv.bumpPv.useLine.setVictims
    · exact h.bumpPv.bumpPv.useLine.install.setVictims
  · exact .none

theorem State.Keeps.startMiss (h : s.Keeps P t) {r : CReq} : s.Keeps P (t.startMiss r) := by
  unfold State.startMiss
  extract_lets l t2
  have ht2 : s.Keeps P t2 := h.bumpPv
  exact .ite (.ite ht2.putLine ht2.cacheOut) (.ite (.getD ht2.allocate ht2) (.ite ht2.modCache ht2.modCache.prefetch))

theorem State.Keeps.tryReq (h : s.Keeps P t) {r : CReq} : s.KeepsSome P id (t.tryReq r) := by
  unfold State.tryReq
  extract_lets t1
  have ht1 : s.Keeps P t1 := h.cacheError
  split
  · exact .some (ht1.serveHit _ ‹_›)
  · split
    · exact .some ht1.startMiss
    · exact .ite (.some ht1.modCache.bumpPv) .none

theorem State.Keeps.setQueue (h : s.Keeps P t) {b : Nat} {q : List CReq} : s.Keeps P (t.setQueue b q) := h.modCache

theorem State.Keeps.pump {b n : Nat} (h : s.Keeps P t) : s.Keeps P (State.pump b n t) := by
  induction n generalizing t with
  | zero => exact h
  | succ n ih =>
    unfold State.pump
    split
    · exact h
    · split
      · exact h
      · split
        · next hreq => exact ih (h.setQueue.tryReq _ hreq)
        · exact h

theorem State.Keeps.cacheReq (h : s.Keeps P t) {r : CReq} : s.Keeps P (t.cacheReq r) := h.setQueue.pump

theorem State.Keeps.fillLine (h : s.Keeps P t) {b : Nat} : s.Keeps P (t.fillLine b) := by
  unfold State.fillLine
  split
  · exact h
  · extract_lets t1 x p
    have ht : s.Keeps P t1 := h.modCache
    have hp : s.Keeps P p.2 := ht.foldl_snd fun _ h _ => h.useLine
    split
    · next hway => exact hp.allocate _ hway
    · exact .ite hp.putLine hp

theorem State.Keeps.fillDone (h : s.Keeps P t) {b : Nat} : s.Keeps P (t.fillDone b) := h.fillLine.pump

theorem State.Keeps.startClean (h : s.Keeps P t) {ws : List Nat} {vict : Bool} : s.Keeps P (t.startClean ws vict) := h.modCache

theorem State.Keeps.cleanDue (h : s.Keeps P t) : s.Keeps P t.cleanDue := by
  unfold State.cleanDue
  split
  · exact h
  · split
    · exact h
    · exact h.modCache.startClean

theorem State.Keeps.cleanEnd (h : s.Keeps P t) : s.Keeps P t.cleanEnd := by
  unfold State.cleanEnd
  split
  · exact h
  · extract_lets t1 u v
    have ht : s.Keeps P t1 := h.foldl fun _ h _ => h.fillLine
    clear_value t1
    have hu : s.Keeps P u := by
      refine ht.modBuffer fun hm => ?_
      dsimp only
      exact Cache.wf_writeBack _ _ _ hm
    exact hu.cleanDue.foldl fun _ h _ => h.pump

theorem State.Keeps.rangeEnd (h : s.Keeps P t) : s.Keeps P t.rangeEnd := by
  unfold State.rangeEnd
  split
  · exact h
  · extract_lets inR t1
    have ht : s.Keeps P t1 := by
      refine h.foldl fun _ h _ => ?_
      split
      · exact .ite h.fillDone h
      · exact h
    clear_value t1
    refine State.Keeps.cleanDue (ht.modBuffer fun hm => ?_)
    dsimp only
    exact Cache.wf_writeBack _ _ _ hm

theorem State.Keeps.noClean {n : Nat} (h : s.Keeps P t) : s.Keeps P (State.noClean n t) := by
  induction n generalizing t with
  | zero => exact h
  | succ n ih => exact .ite (ih h.cleanEnd) h

theorem State.Keeps.quiet {b n : Nat} (h : s.Keeps P t) : s.Keeps P (State.quiet b n t) := by
  induction n generalizing t with
  | zero => exact h
  | succ n ih => exact .ite (ih h.fillDone) h

theorem State.Keeps.ownLine (h : s.Keeps P t) {r : CReq} : s.Keeps P (t.ownLine r) := by
  unfold State.ownLine
  extract_lets b t2 u
  have ht2 : s.Keeps P t2 := h.noClean
  have hu : s.Keeps P u := ht2.quiet
  split
  · exact (hu.tryReq _ ‹_›).fillDone
  · exact hu

theorem State.Keeps.cacheWrite {q n a : Nat} {b : Bytes} (h : s.Keeps P t) : s.Keeps P (State.cacheWrite q n a b t) := by
  induction n generalizing t a b with
  | zero => exact h
  | succ n ih => exact .ite h (ih h.ownLine)

theorem State.Keeps.cacheRead {q f a n : Nat} (h : s.Keeps P t) : s.Keeps P (State.cacheRead q f a n t).2 := by
  induction f generalizing t a n with
  | zero => exact h
  | succ f ih =>
    unfold State.cacheRead
    split
    · exact h
    · exact ih h.ownLine

theorem State.Keeps.putBytes (h : s.Keeps P t) {q a : Nat} {b : Bytes} : s.Keeps P (t.putBytes q a b) := h.cacheWrite

theorem State.Keeps.getBytes (h : s.Keeps P t) {q a n : Nat} : s.Keeps P (t.getBytes q a n).2 := h.cacheRead

theorem State.Keeps.zeroBytesAt (h : s.Keeps P t) {q a n : Nat} : s.Keeps P (t.zeroBytesAt q a n) := h.putBytes

end OfCacheOps

/-! ### Pool -/

section OfPool
variable {P : Nat → Prop} {s t : State}

theorem State.Keeps.poolRun (h : s.Keeps P t) {m : PoolMsg} {iv : Bytes} : s.Keeps P (t.poolRun m iv).2.2 := by
  unfold State.poolRun
  extract_lets key before body all n givenIv givenTag
  split
  case h_4 =>
    split
    · exact h
    · exact h
  case h_10 =>
    split
    · exact h.loadSlot
    · exact h.raise
  case h_11 => exact h.loadSlot.drawn
  all_goals exact h

theorem State.Keeps.poolResult (h : s.Keeps P t) {m : PoolMsg} {status done : Nat} {iv out : Bytes} : s.Keeps P (t.poolResult m status done iv out)
  := by
  unfold State.poolResult
  extract_lets t1
  dsimp only
  have ht1 : s.Keeps P t1 := h.pass.modKeys
  split
  · exact ht1
  · split
    · exact ht1
    · split
      · exact ht1
      · split
        · exact ht1.modCore.putBytes
        · exact ht1.modCore

theorem State.Keeps.poolTake (h : s.Keeps P t) {m : PoolMsg} : s.Keeps P (t.poolTake m) := h.pass.modKeys

theorem State.Keeps.lockSettle (h : s.Keeps P t) : s.Keeps P t.lockSettle := h.modKeys

theorem State.Keeps.poolNext (h : s.Keeps P t) : s.Keeps P t.poolNext := h.modKeys.lockSettle

theorem State.Keeps.poolDenied (h : s.Keeps P t) {m : PoolMsg} {i : Nat} : s.Keeps P (t.poolDenied m i) := h.poolResult.raise.freeze

theorem State.Keeps.poolRequest (h : s.Keeps P t) {m : PoolMsg} : s.Keeps P (t.poolRequest m) := by
  unfold State.poolRequest
  extract_lets kern u
  have hu : s.Keeps P u := .ite h.modKeys h
  clear_value kern
  refine .ite h ?_
  split
  · exact .ite h.poolDenied (.ite h.poolResult h.poolTake)
  · exact .ite h (.ite hu.poolResult.lockSettle hu.poolTake)

theorem State.Keeps.execServicePoolRequest (h : s.Keeps P t) {requester w0 : Nat} {w1 w2 w3 : Nat} {data : Bytes} : s.KeepsOut P
    (execServicePoolRequest requester w0 w1 w2 w3 data t) :=
  .next (.ite h.poolRequest.goOn h)

theorem State.Keeps.execServicePoolUrgentRequest (h : s.Keeps P t) {requester w0 w1 w2 w3 : Nat} {data : Bytes} :
    s.KeepsOut P (execServicePoolUrgentRequest requester w0 w1 w2 w3 data t) := by
  unfold Machine.execServicePoolUrgentRequest
  refine .next (.ite h (.ite h.poolResult ?_))
  dsimp only
  split
  · exact h.pass.passBytes.modKeys
  · exact .ite h.pass.passBytes.modKeys h.pass.passBytes.modKeys.bumpPv

theorem State.Keeps.execServicePoolMessageDone (h : s.Keeps P t) : s.KeepsOut P (execServicePoolMessageDone t) := by
  unfold Machine.execServicePoolMessageDone
  split
  · exact .next h
  · extract_lets first
    have hfirst : s.KeepsSome P Prod.snd first := .ite h.takeIv (.some_snd h)
    clear_value first
    refine .ite (.next h) ?_
    split
    · exact .ite (.next h.poolResult.poolNext.goOn) (.next h)
    · exact .next (hfirst _ rfl).poolRun.modKeys.poolResult.poolNext.goOn

theorem State.Keeps.execCphLockTimeout (h : s.Keeps P t) : s.KeepsOut P (execCphLockTimeout t) := by
  unfold Machine.execCphLockTimeout
  refine .next (.ite h ?_)
  extract_lets o t1 u v
  have ht : s.Keeps P t1 := h.raise.bumpPv
  have hu : s.Keeps P u := by
    dsimp only [u]
    split
    · exact .ite ht.poolResult.modKeys ht
    · exact ht
  exact .goOn (.freeze (.ite hu.modKeys.poolNext hu.modKeys))

end OfPool

/-! ### Compute -/

section OfCompute
variable {P : Nat → Prop} {s t : State}

theorem State.Keeps.createInst (h : s.Keeps P t) {q : Nat} {img : Bytes} {rom : Option Nat} : s.Keeps P (t.createInst q img rom) := by
  unfold State.createInst
  dsimp only
  split
  · exact .ite h.done ((h.modComp.foldl (fun _ h _ => h.loadSlot.drawn)).putBytes.complete)
  · exact h.done

theorem State.Keeps.execKernelLoad (h : s.Keeps P t) {h' : Hdr} {d10 : Nat} {image : Bytes} : s.KeepsOut P (execKernelLoad h' d10 image t) := by
  unfold Machine.execKernelLoad
  dsimp only
  refine .next ?_
  refine (h.adminCmd (fun _ _ h => ?_)).goOn
  split
  · exact h.raise.done
  · exact h.createInst

theorem State.Keeps.execKernelLoadRom (h : s.Keeps P t) {h' : Hdr} {number : Nat} : s.KeepsOut P (execKernelLoadRom h' number t) :=
  .next ((h.adminCmd (fun _ _ h => .ite h.done h.createInst)).goOn)

theorem State.Keeps.zeroInvoc (h : s.Keeps P t) {v : Invoc} : s.Keeps P (t.zeroInvoc v) := h.zeroBytesAt

theorem State.Keeps.unloadInst (h : s.Keeps P t) {i : Nat} {k : Kern} : s.Keeps P (t.unloadInst i k) := by
  unfold State.unloadInst
  exact ((h.doneAll.modComp.foldl (fun _ h _ => h.zeroInvoc)).zeroBytesAt.modComp.foldl (fun _ h _ => h.clearSlot)).modKeys

theorem State.Keeps.execKernelUnload (h : s.Keeps P t) {h' : Hdr} {inst : Nat} : s.KeepsOut P (execKernelUnload h' inst t) := by
  unfold Machine.execKernelUnload
  refine .next ?_
  refine (h.adminCmd (fun _ _ h => ?_)).goOn
  split
  · exact h.done
  · exact h.unloadInst.dropUnwanted.done

theorem State.Keeps.execKernelInvoke (h : s.Keeps P t) {h' : Hdr} {nsid d10 : Nat} {block : Bytes} : s.KeepsOut P (execKernelInvoke h' nsid d10
  block t) := by
  unfold Machine.execKernelInvoke
  dsimp only
  refine .next ?_
  refine (h.ioCmd (fun _ _ h => .ite h.done (.ite h.done ?_))).goOn
  split
  · exact h.done
  · split
    · exact h.done
    · split
      · exact h.done
      · split
        · exact h.done
        · split
          · exact h.done
          · split
            · exact h.done
            · exact h.modComp.modNv.putBytes

theorem State.Keeps.execInvocationStart (h : s.Keeps P t) : s.KeepsOut P (execInvocationStart t) := by
  unfold Machine.execInvocationStart
  refine .next ?_
  split
  · exact h
  · split
    · split
      · exact h
      · exact h.pass.modComp.modCore
    · exact h

theorem State.Keeps.finishInvocation (h : s.Keeps P t) {c : Nat} : s.Keeps P (t.finishInvocation c) := by
  unfold State.finishInvocation
  split
  · extract_lets n r
    have hr : s.Keeps P r.2 := by
      dsimp only [r]
      split
      · exact h.getBytes
      · exact h
    exact hr.bumpPv.complete.modCore
  · exact h

theorem State.Keeps.startDma {c n : Nat} (h : s.Keeps P t) : s.Keeps P (State.startDma c n t) := by
  induction n generalizing t with
  | zero => exact h
  | succ n ih =>
    unfold State.startDma
    dsimp only
    split
    · exact h
    · split
      · exact h
      · split
        · exact h.freeze
        · split
          · exact h.getBytes.freeze
          · refine .ite (ih (.poolRequest ?_)) (ih h.getBytes.pass.modCore)
            split
            · exact h.getBytes.pass.modCore.getBytes
            · exact h.getBytes.pass.modCore

theorem State.Keeps.runDma (h : s.Keeps P t) {c : Nat} : s.Keeps P (t.runDma c) := .goOn (.readAll (.ite h.startDma h))

theorem State.Keeps.execKdsqtDoorbell (h : s.Keeps P t) {core sqb : Nat} {sqsz cqb : Nat} {cqsz tail : Nat} : s.KeepsOut P (execKdsqtDoorbell core
  sqb sqsz cqb cqsz tail t) := by
  unfold Machine.execKdsqtDoorbell
  refine .next ?_
  split
  · exact h
  · exact .ite h (.ite h.freeze.goOn (.ite h.freeze.goOn h.modCore.runDma))

theorem State.Keeps.execKdcqhWrite (h : s.Keeps P t) {core head : Nat} : s.KeepsOut P (execKdcqhWrite core head t) := .next (.ite h h.modCore.runDma)

theorem State.Keeps.putLbas (h : s.Keeps P t) {a : Nat} {bs : List (Nat × Bytes)} : s.Keeps P (t.putLbas a bs) := h.foldl (fun _ h _ => h.putBytes)

theorem State.Keeps.dmaTake (h : s.Keeps P t) {a lba n : Nat} : s.Keeps P (t.dmaTake a lba n).2 := by
  unfold State.dmaTake
  extract_lets rs good t3
  have ht3 : s.Keeps P t3 := h.putLbas
  split
  · exact .ite ht3.drawn ht3
  · exact ht3

theorem State.Keeps.dmaSide (h : s.Keeps P t) {a lba n : Nat} : s.Keeps P (t.dmaSide a lba n).2 := by
  unfold State.dmaSide
  extract_lets via t2
  have ht2 : s.Keeps P t2 := .ite h.drawn h
  split
  · exact ht2.modCar.raise
  · exact ht2.putLbas

theorem State.Keeps.dmaWrite (h : s.Keeps P t) {c : Nat} {d : Dma} {a lba : Nat} : s.Keeps P (t.dmaWrite c d a lba).2 := by
  unfold State.dmaWrite
  split
  · exact h
  · split
    · exact h
    · extract_lets r app bs ents t1 p w
      have hp : s.Keeps P p.2 := by
        dsimp only [p]
        split
        · exact h
        · split
          · exact h
          · exact h.getBytes.modNv.modCar.sideWrite.modCore
      clear_value p
      split
      · exact h
      · split
        · exact hp
        · split
          · dsimp only
            exact hp.modCar
          · exact hp

theorem State.Keeps.dmaOutcome (h : s.Keeps P t) {c : Nat} {v : Invoc} {k : Kern} {d : Dma} : s.Keeps P (t.dmaOutcome c v k d).2 := by
  unfold State.dmaOutcome
  dsimp only
  split
  · exact h
  · split
    · split
      · exact h.dmaWrite
      · split
        · split
          · exact h
          · exact h.dmaSide
        · split
          · split
            · exact h.dmaTake
            · exact h
          · split
            · split
              · exact h.putBytes
              · exact h
            · exact h
    · exact h

/-- The first descriptor with an outcome, or one whose write has begun, and the state in which it was found. -/
theorem State.Keeps.dmaFound (h : s.Keeps P t) {core : Nat} {v : Invoc} {k : Kern} {x : Core} {ds : List (Dma × Nat)} :
    s.KeepsSome P (fun a => a.2.2.2) (ds.findSome? (fun (e : Dma × Nat) =>
      match t.dmaOutcome core v k e.1 with
      | (some r, t) => some (e.2, e.1.tag, r, t)
      | (none, t) => if e.1.op = 2 && e.1.app = 0 && t.core core != x then some (1024, 0, (0, 0, 0, []), t) else none)) := by
  intro a ha
  obtain ⟨e, -, he⟩ := List.exists_of_findSome?_eq_some ha
  have hd : s.Keeps P (t.dmaOutcome core v k e.1).2 := h.dmaOutcome
  split at he
  · next hout =>
    rw [hout] at hd
    cases he
    exact hd
  · next hout =>
    rw [hout] at hd
    split at he
    · cases he
      exact hd
    · cases he

theorem State.Keeps.execDmaDescriptorComplete (h : s.Keeps P t) {core : Nat} : s.KeepsOut P (execDmaDescriptorComplete core t) := by
  unfold Machine.execDmaDescriptorComplete
  refine .next ?_
  split
  · exact h
  · refine .ite h ?_
    split
    · exact h
    · next hfound =>
      have hf := h.dmaFound _ hfound
      dsimp only at hf
      refine .ite hf.goOn ?_
      split
      · exact hf
      · extract_lets u w y z
        have hu : s.Keeps P u := hf.pass.putBytes.modCore
        have hw : s.Keeps P w := .ite hu.startDma hu
        have hz : s.Keeps P z := .ite hw.finishInvocation hw
        exact hz.dropUnwanted.readAll.goOn

theorem State.Keeps.trap (h : s.Keeps P t) {core code pc : Nat} : s.Keeps P (t.trap core code pc) := .ite h h.raise.endInvocation.dropUnwanted

theorem State.Keeps.execEcallExit (h : s.Keeps P t) {core a7 : Nat} {a0 a1 pc : Nat} : s.KeepsOut P (execEcallExit core a7 a0 a1 pc t) := by
  unfold Machine.execEcallExit
  refine .next ?_
  split
  · exact h
  · exact .ite h (.ite h.trap.goOn (.goOn (.ite h.modCore.finishInvocation h.modCore)))

theorem State.Keeps.execWfiWait (h : s.Keeps P t) {core pc : Nat} : s.KeepsOut P (execWfiWait core pc t) := .next (.ite h.modCore h)

theorem State.Keeps.execWindowViolation (h : s.Keeps P t) {core kind addr : Nat} : s.KeepsOut P (execWindowViolation core kind addr t) := by
  unfold Machine.execWindowViolation
  refine .next ?_
  split
  · exact .ite h.freeze.dropUnwanted.goOn h
  · exact h

theorem State.Keeps.execKernelTrap (h : s.Keeps P t) {core code pc : Nat} : s.KeepsOut P (execKernelTrap core code pc t) := .next (.ite h.trap.goOn h)

theorem State.Keeps.execInvocationTimeLimit (h : s.Keeps P t) {core : Nat} : s.KeepsOut P (execInvocationTimeLimit core t) :=
  .next (.ite h.raise.endInvocation.dropUnwanted.goOn h)

theorem State.Keeps.execCoreIdlePowerDown (h : s.Keeps P t) {core : Nat} : s.KeepsOut P (execCoreIdlePowerDown core t) := .next (.ite h.modCore h)

theorem State.Keeps.execKlockRequest (h : s.Keeps P t) {core : Nat} : s.KeepsOut P (execKlockRequest core t) := by
  unfold Machine.execKlockRequest
  refine .next ?_
  split
  · exact .ite h.modKeys h
  · exact h

theorem State.Keeps.execKlockRelease (h : s.Keeps P t) {core : Nat} : s.KeepsOut P (execKlockRelease core t) := by
  unfold Machine.execKlockRelease
  refine .next ?_
  split
  · exact .ite h.modKeys.lockSettle h
  · exact h

end OfCompute

/-! ### FifoFaults -/

section OfFifoFaults
variable {P : Nat → Prop} {s t : State}

theorem State.Keeps.packZone (h : s.Keeps P t) {z : Nat} {last : Bool} : s.Keeps P (t.packZone z last) := by
  unfold State.packZone
  extract_lets bound t2 u
  have ht2 : s.Keeps P t2 := .ite h h.bindCtx
  have hu : s.Keeps P u := ht2.foldl (fun _ h _ => h.packLba)
  exact .ite hu hu.closeRec.releaseCtx

theorem State.Keeps.packAll (h : s.Keeps P t) {marked : List Nat} : s.Keeps P (t.packAll marked) := h.foldl (fun _ h _ => h.packZone)

theorem State.Keeps.skipSectors (h : s.Keeps P t) {x : Nat × Nat} : s.Keeps P (t.skipSectors x) := h.modSp

theorem State.Keeps.recut (h : s.Keeps P t) : s.Keeps P t.recut := (h.foldl (fun _ h _ => h.skipSectors)).modSp.modRc.packAll

theorem State.Keeps.fillQueue (h : s.Keeps P t) : s.Keeps P t.fillQueue := h.modFifo.feed

theorem State.Keeps.regroup (h : s.Keeps P t) : s.Keeps P t.regroup := by
  unfold State.regroup
  exact h.modSp

theorem State.Keeps.restartPass (h : s.Keeps P t) : s.Keeps P t.restartPass := by
  unfold State.restartPass
  extract_lets t1
  have ht1 : s.Keeps P t1 := h.clearCapture.modRc
  split
  · exact ht1
  · split
    · exact ht1
    · split
      · exact ht1.modRc.serve
      · split
        · exact ht1.modRc.startMove.modCtl
        · exact ht1

theorem State.Keeps.abandonMessages (h : s.Keeps P t) : s.Keeps P t.abandonMessages := (h.foldl (fun _ h _ => h.poolResult)).modKeys.poolNext

theorem State.Keeps.abandonCompute (h : s.Keeps P t) : s.Keeps P t.abandonCompute := (h.foldl (fun _ h _ => h.done)).modComp.dropUnwanted

theorem State.Keeps.dropRecords (h : s.Keeps P t) {n lost : Nat} : s.Keeps P (t.dropRecords n lost) :=
  .ite (.traceArm (.ite h.modFifo.modEv h.modFifo)) (.ite h.modFifo.modEv h.modFifo)

theorem State.Keeps.roleRestore (h : s.Keeps P t) {n lost : Nat} : s.Keeps P (t.roleRestore n lost) :=
  .ite h.recut (.ite h (.ite h.endCopy (.ite h.endCopy.regroup.modFifo (.ite h.endCopy.regroup.fillQueue (.ite h.restartPass (.ite h (.ite
    h.abandonGen (.ite h.abandonMessages (.ite h.abandonCompute h.dropRecords)))))))))

theorem State.Keeps.fifoFault (h : s.Keeps P t) {n cause : Nat} {f : Fifo → Fifo} : s.Keeps P (t.fifoFault n cause f) :=
  .ite h (.ite h.noteFault.modFifo.raise.modFifo h.noteFault.modFifo.raise.modFifo.roleRestore.goOn)

theorem State.Keeps.execFifoPointerMismatch (h : s.Keeps P t) {n : Nat} : s.KeepsOut P (execFifoPointerMismatch n t) := .next h.fifoFault

theorem State.Keeps.execFifoExtendedBodyError (h : s.Keeps P t) {n : Nat} : s.KeepsOut P (execFifoExtendedBodyError n t) := .next (.ite h.fifoFault h)

theorem State.Keeps.restarted (h : s.Keeps P t) {n : Nat} : s.Keeps P (t.restarted n) :=
  .ite h.fillQueue (.ite h.routeFifo (.ite h.packAll (.ite (.ite h.actOnResults h) (.ite h.sideFlush h.readAll))))

theorem State.Keeps.fifoRestarted (h : s.Keeps P t) {n : Nat} : s.Keeps P (t.fifoRestarted n) := .ite h h.fifoRestart.restarted

theorem State.Keeps.execSfqRestart (h : s.Keeps P t) {w : Option Hdr} {n : Nat} : s.KeepsOut P (execSfqRestart w n t) :=
  .next ((h.regWrite (fun _ h => h.fifoRestarted)).goOn)

theorem State.Keeps.execSfqStickyClear (h : s.Keeps P t) {w : Option Hdr} {n bits : Nat} : s.KeepsOut P (execSfqStickyClear w n bits t) :=
  .next ((h.regWrite (fun _ h => h.fifoClear)).goOn)

end OfFifoFaults

/-! ### Health -/

section OfHealth
variable {P : Nat → Prop} {s t : State}

theorem State.Keeps.execEventRecord (h : s.Keeps P t) {evt cause : Nat} {data : Bytes} : s.KeepsOut P (execEventRecord evt cause data t) :=
  .next (.ite h.raise h)

theorem State.Keeps.summary (h : s.Keeps P t) {evt n : Nat} : s.Keeps P (t.summary evt n) := .ite h.journal.asyncEvent h.journal

theorem State.Keeps.execEventRateSecondEnd (h : s.Keeps P t) : s.KeepsOut P (execEventRateSecondEnd t) :=
  .next (.ite ((h.foldl (fun _ h _ => h.summary)).modEv) h)

theorem State.Keeps.persistEvents (h : s.Keeps P t) : s.Keeps P t.persistEvents := .ite h h.mapCommit

theorem State.Keeps.execEventJournalPersist (h : s.Keeps P t) : s.KeepsOut P (execEventJournalPersist t) := .next (.ite h.persistEvents.goOn h)

theorem State.Keeps.execPercentageUsedCompute (h : s.Keeps P t) : s.KeepsOut P (execPercentageUsedCompute t) := .next (.ite h.lifeCompute h)

theorem State.Keeps.execHealthRecordWrite (h : s.Keeps P t) : s.KeepsOut P (execHealthRecordWrite t) := .next (.ite h.writeHealth h)

end OfHealth

/-! ### Rails -/

section OfRails
variable {P : Nat → Prop} {s t : State}

theorem State.Keeps.ramLost (h : s.Keeps P t) {rails : Bool} : s.Keeps P (t.ramLost rails) where
  queue := h.queue
  fuses := h.fuses
  params hs := ⟨(h.params hs).1, rfl, rfl, rfl, (h.params hs).2.2.2.2⟩
  buffer _ := rfl

theorem State.Keeps.chvRaise (h : s.Keeps P t) {evt cause : Nat} {data : Bytes} : s.Keeps P (t.chvRaise evt cause data) := .ite h.raise h.modPw

theorem State.Keeps.railsOff (h : s.Keeps P t) : s.Keeps P t.railsOff := h.modPw.ramLost

theorem State.Keeps.powerUp (h : s.Keeps P t) : s.Keeps P t.powerUp := h.modMag.modPw

theorem State.Keeps.afterRails (h : s.Keeps P t) : s.Keeps P t.afterRails := .ite h.powerUp h.modMag

theorem State.Keeps.badInput (h : s.Keeps P t) {k : Nat} : s.Keeps P (t.badInput k) := h.modPw

theorem State.Keeps.execLinePresent (h : s.Keeps P t) {mv : Nat} : s.KeepsOut P (execLinePresent mv t) :=
  .next (.ite h (.ite h.badInput (.ite h (.ite h.modPw (.ite h.modPw.chvRaise.powerUp h.modPw.chvRaise)))))

theorem State.Keeps.execLineOvervoltage (h : s.Keeps P t) : s.KeepsOut P (execLineOvervoltage t) := .next (.ite h.chvRaise h)

theorem State.Keeps.execPowerUpStep (h : s.Keeps P t) {pgood : Bool} : s.KeepsOut P (execPowerUpStep pgood t) := by
  unfold Machine.execPowerUpStep
  refine .next ?_
  split
  · exact h
  · exact .ite h h.modPw

theorem State.Keeps.execPgoodTimeout (h : s.Keeps P t) {rail : Nat} : s.KeepsOut P (execPgoodTimeout rail t) :=
  .next (.ite h h.railsOff.chvRaise.ringAdd.modPw)

theorem State.Keeps.execPowerUpRetry (h : s.Keeps P t) : s.KeepsOut P (execPowerUpRetry t) := .next (.ite h.powerUp h)

theorem State.Keeps.execReferenceSettled (h : s.Keeps P t) : s.KeepsOut P (execReferenceSettled t) := .next (.ite h.modPw h)

theorem State.Keeps.latchLoss (h : s.Keeps P t) {cls : Nat} : s.Keeps P (t.latchLoss cls) := h.noteFault.modPw

theorem State.Keeps.interruptTest (h : s.Keeps P t) : s.Keeps P t.interruptTest := .ite h h.modPw.chvRaise

theorem State.Keeps.powerDownDrain (h : s.Keeps P t) : s.Keeps P t.powerDownDrain := h.modRc.modComp

theorem State.Keeps.startDrain (h : s.Keeps P t) {cls : Nat} : s.Keeps P (t.startDrain cls) := by
  unfold State.startDrain
  extract_lets a b c d e
  have ha : s.Keeps P a := h.latchLoss.enter.modNv
  have hb : s.Keeps P b := ha.endCopy.dropInvocations.endSession.dropGen.modMag.modNor
  have hc : s.Keeps P c := hb.modSp.modRc
  have hd : s.Keeps P d := hc.modCtl.powerDownDrain
  have he : s.Keeps P e := .ite hd (.ite hd.modCtl (.ite hd.stopTape.modCtl hd.letGo))
  exact he.flushWhere.drainLook

theorem State.Keeps.loseLine (h : s.Keeps P t) {cls : Nat} : s.Keeps P (t.loseLine cls) :=
  .ite h.interruptTest.railsOff.afterRails (.ite h.interruptTest.startDrain h.interruptTest)

theorem State.Keeps.execLineLoss (h : s.Keeps P t) : s.KeepsOut P (execLineLoss t) := .next (.ite h h.modPw.chvRaise.ringAdd.loseLine)

theorem State.Keeps.cutRails (h : s.Keeps P t) {cls : Nat} : s.Keeps P (t.cutRails cls) :=
  .afterRails (.railsOff (.modNv (.modPw (.ringAdd (.ite h.settleLoss.modPw h.latchLoss)))))

theorem State.Keeps.execPgoodLost (h : s.Keeps P t) {rail : Nat} : s.KeepsOut P (execPgoodLost rail t) :=
  .next (.ite h (.ite h.modPw.chvRaise.ringAdd.loseLine (.ite h.modPw.chvRaise.ringAdd.loseLine (.ite h.modPw.chvRaise.ringAdd
    h.modPw.chvRaise.ringAdd.interruptTest.cutRails))))

theorem State.Keeps.execDrainComplete (h : s.Keeps P t) : s.KeepsOut P (execDrainComplete t) := .next (.ite h.settleLoss.modPw.railsOff.afterRails h)

theorem State.Keeps.execBankBelowMinimum (h : s.Keeps P t) : s.KeepsOut P (execBankBelowMinimum t) :=
  .next (.ite h (.ite (.ite h.emergency h) (.cutRails (.ite h.emergency h))))

theorem State.Keeps.execBankBelowIslandMinimum (h : s.Keeps P t) : s.KeepsOut P (execBankBelowIslandMinimum t) :=
  .next (.ite h h.enter.modPw.modKeys.modCar)

theorem State.Keeps.execAonPorstNRise (h : s.Keeps P t) : s.KeepsOut P (execAonPorstNRise t) := .next (.ite h h.modPw.modCar)

theorem State.Keeps.execCrystalStable (h : s.Keeps P t) : s.KeepsOut P (execCrystalStable t) := .next (.ite h.modPw h)

end OfRails

/-! ### Boot -/

section OfBoot
variable {P : Nat → Prop} {s t : State}

theorem State.Keeps.cause (h : s.Keeps P t) {k : Nat} : s.Keeps P (t.cause k) := h.modMag

theorem State.Keeps.settleJournal (h : s.Keeps P t) : s.Keeps P t.settleJournal := h.modCar

theorem State.Keeps.bootStart (h : s.Keeps P t) {env : BootEnv} : s.Keeps P (t.bootStart env) := by
  unfold State.bootStart
  extract_lets warm t1 u v w
  have ht : s.Keeps P t1 := .ite h.ramLost h
  have hu : s.Keeps P u := ht.layers fun _ => ⟨rfl, rfl, rfl, rfl, rfl⟩
  exact .loadSlot (.modNv (.ite hu.modMag.modPw hu.modMag.modPw.modEv))

/-- The security level of a package that may be applied is a legal number of fuses. -/
theorem level_le_of_packageOk {fuses : Nat} {b : Bytes} (h : packageOk fuses b = true) : leAt b 7 1 ≤ 32 := by
  simp only [packageOk, packageFields, Bool.and_eq_true, decide_eq_true_eq] at h
  omega

theorem State.Keeps.blowFuses (h : s.Keeps P t) (hP : ∀ n k, k ≤ 32 → P n → P (max n k)) {k : Nat} (hk : k ≤ 32) :
    s.Keeps P (t.modNor fun n => { n with fuses := max n.fuses k }) where
  queue := h.queue
  fuses := hP _ _ hk h.fuses
  params := h.params
  buffer := h.buffer

/-- The package applied blows the fuses up to its level, so `P` has to allow that (R441). -/
theorem State.Keeps.bootPatch (h : s.Keeps P t) (hP : ∀ n k, k ≤ 32 → P n → P (max n k)) : s.Keeps P t.bootPatch := by
  unfold State.bootPatch
  extract_lets c stored u
  have hu : s.Keeps P u := h.modNv
  split
  · next hb =>
    exact (hu.blowFuses hP (level_le_of_packageOk (List.find?_some hb))).modNv
  · exact hu.raise
  · exact hu

theorem State.Keeps.bootNor (h : s.Keeps P t) (hP : ∀ n k, k ≤ 32 → P n → P (max n k)) {env : BootEnv} : s.Keeps P (t.bootNor env) :=
  .ite (h.modNor.bootPatch hP) h.modNor.cause

theorem State.Keeps.repairTo (h : s.Keeps P t) {area : Nat} {b : Bytes} : s.Keeps P (t.repairTo area b) := .ite h h.putCopies

theorem rising_presetsOf {m : NMap Nat} (h : NMap.rising m = true) : NMap.rising (presetsOf m) = true := NMap.rising_filter _ h

theorem rising_profileMap (es : List ProfEntry) : NMap.rising (profileMap es) = true :=
  List.foldlRecOn (motive := fun m => NMap.rising m = true) es _ rfl fun _ hm _ _ => NMap.rising_foldl_put _ _ _ hm

theorem State.Keeps.bootProfile (h : s.Keeps P t) : s.Keeps P t.bootProfile := by
  have note {u : State} (hu : s.Keeps P u) (f : Option (Nat × Nat)) :
      s.Keeps P (match f with
        | some (k, r) => u.raise 0x7E0 k (if k = 3 then leBytes 1 r else [])
        | none => u) := by
    split
    · exact hu.raise
    · exact hu
  unfold State.bootProfile
  extract_lets c f0 f1 noted t1
  have ht : s.Keeps P t1 := note (note h _) _
  clear_value t1
  split
  · exact ht.cause
  · extract_lets u v
    have hu : s.Keeps P u := ht.repairTo.modNor
    have hv : s.Keeps P v := hu.layers fun ⟨h1, h2, h3, h4, _⟩ => ⟨h1, h2, h3, h4, rising_presetsOf (rising_profileMap _)⟩
    exact hv.modMag

theorem State.Keeps.commission (h : s.Keeps P t) : s.Keeps P t.commission := h.drawn.putCopies.modCar.putCopies

theorem State.Keeps.bootLockout (h : s.Keeps P t) : s.Keeps P t.bootLockout := .ite h (.ite h.modKeys (.ite h.modKeys h))

theorem State.Keeps.bootKeys (h : s.Keeps P t) : s.Keeps P t.bootKeys := by
  unfold State.bootKeys
  extract_lets bad s2 t3
  have hs2 : s.Keeps P s2 := h.foldl (fun _ h _ => h.raise)
  have ht3 : s.Keeps P t3 := .ite hs2.commission hs2
  split
  · exact ht3
  · exact ht3.repairTo.modKeys.loadRecordSlots.bootLockout

theorem State.Keeps.bootRotation (h : s.Keeps P t) : s.Keeps P t.bootRotation := .ite h h.rewrapKeys.settleJournal.putCopies.modKeys.raise

theorem State.Keeps.bootRecord (h : s.Keeps P t) {ident : Nat} {pre : String} {area evt : Nat} : s.Keeps P (t.bootRecord ident pre area evt).2 := by
  unfold State.bootRecord
  dsimp only
  split
  · exact .ite h h.repairTo.raise
  · exact h.raise

theorem State.Keeps.bootPosition (h : s.Keeps P t) {radius : Option (Nat × Nat)} : s.Keeps P (t.bootPosition radius) := by
  unfold State.bootPosition
  extract_lets r t2
  have ht2 : s.Keeps P t2 := h.modCtl
  split
  · exact ht2.modCtl.modRc
  · exact ht2

theorem rising_overPresets {m : NMap Nat} (h : NMap.rising m = true) (es : List RecEntry) : NMap.rising (overPresets m es) = true := by
  refine rising_presetsOf (List.foldlRecOn (motive := fun m => NMap.rising m = true) es _ h fun m hm e _ => ?_)
  split
  · exact hm
  · exact NMap.rising_foldl_put _ _ _ hm

theorem State.Keeps.bootRecords (h : s.Keeps P t) : s.Keeps P t.bootRecords := by
  unfold State.bootRecords
  split
  next cal t1 hcal =>
  have ht : s.Keeps P t1 := by
    have h1 : s.Keeps P (t.bootRecord 0x52434855 "UHCR" 3 1).2 := h.bootRecord
    rwa [hcal] at h1
  extract_lets u
  have hu : s.Keeps P u := by
    dsimp only [u]
    split
    · exact ht.layers fun ⟨h1, h2, h3, h4, h5⟩ => ⟨h1, h2, h3, h4, rising_overPresets h5 _⟩
    · exact ht
  split
  next health v hrec =>
  have hv : s.Keeps P v := by
    have h1 : s.Keeps P ((u.bootPosition (cal.bind recordRadius)).bootRecord 0x52484855 "UHHR" 4 2).2 := hu.bootPosition.bootRecord
    rwa [hrec] at h1
  refine .ite hv ?_
  split
  · exact hv.applyHealth
  · exact hv.modSp.modEv

theorem State.Keeps.bootDies (h : s.Keeps P t) : s.Keeps P t.bootDies := .ite h.modCar h.modCar.modCar

theorem State.Keeps.bootTrain (h : s.Keeps P t) {env : BootEnv} : s.Keeps P (t.bootTrain env) :=
  .ite h (.ite h.cause (.ite ((h.bootDies.foldl (fun _ h _ => h.raise)).cause) (h.bootDies.foldl (fun _ h _ => h.raise))))

theorem State.Keeps.bootTest (h : s.Keeps P t) : s.Keeps P t.bootTest := .ite h h.modPw

theorem State.Keeps.bootReplay (h : s.Keeps P t) : s.Keeps P t.bootReplay := by
  unfold State.bootReplay
  extract_lets nv keep lost retired t5 u v w
  have ht5 : s.Keeps P t5 := h.modCar
  have hu : s.Keeps P u := ht5.foldl (fun _ h _ => h.freeIfEmpty)
  have hv : s.Keeps P v := hu.modKeys
  have hw : s.Keeps P w := hv.bootRotation.loadMacSlots
  exact .ite hw hw.raise

theorem State.Keeps.bootAge (h : s.Keeps P t) : s.Keeps P t.bootAge := .ite h.modCar h

theorem State.Keeps.bootCarousel (h : s.Keeps P t) {env : BootEnv} {first : Bool} : s.Keeps P (t.bootCarousel env first) := by
  unfold State.bootCarousel
  split
  · exact h
  · split
    · exact .cause (.ite h h.raise)
    · exact .ite (.cause (.ite h h.raise)) (.foldl (.bootReplay (.bootAge (.ite (.modCar (.ite h h.raise)) (.modCar (.ite h h.raise))))) (fun _ h _
        => h.raise))

theorem State.Keeps.copyRing (h : s.Keeps P t) {r : Ring} : s.Keeps P (t.copyRing r) := by
  unfold State.copyRing
  exact h.drawn.modEv

theorem State.Keeps.bootRing (h : s.Keeps P t) : s.Keeps P t.bootRing := by
  unfold State.bootRing
  extract_lets a b c d e
  have ha : s.Keeps P a := h.foldl (fun _ h _ => h.copyRing)
  have hb : s.Keeps P b := ha.foldl (fun _ h _ => h.raise)
  have hc : s.Keeps P c := .ite hb.raise hb
  have hd : s.Keeps P d := .ite hc.raise.raise hc
  have he : s.Keeps P e := .ite hd.raise hd
  exact he.modPw

theorem State.Keeps.bootTakes (h : s.Keeps P t) : s.Keeps P t.bootTakes := (h.modSp.modRc.foldl (fun _ h _ => h.noteTakes)).modSp.modCar.fillQueue

theorem State.Keeps.bootFlush (h : s.Keeps P t) : s.Keeps P t.bootFlush := (h.modCar.when (fun _ h => h.mapCommit)).modSp.packAll

theorem State.Keeps.countLoss (h : s.Keeps P t) {cls why : Nat} {n1 n2 : Nat} : s.Keeps P (t.countLoss cls why n1 n2) := .ite h h.modEv.raise

theorem State.Keeps.bootLoss (h : s.Keeps P t) {above : Nat} : s.Keeps P (t.bootLoss above) := by
  unfold State.bootLoss
  exact .modPw (.countLoss (.ite (.ite h h.noteFault) (.raise (.ite h h.noteFault))))

theorem State.Keeps.bootTake (h : s.Keeps P t) : s.Keeps P t.bootTake := .ite h h.bootTakes.bootFlush.bootLoss

theorem State.Keeps.bootEnd (h : s.Keeps P t) : s.Keeps P t.bootEnd := by
  unfold State.bootEnd
  extract_lets ms t2
  have ht2 : s.Keeps P t2 := h.drawn.traceArmWith.modEv.modNv
  exact .ite ht2.modMag.raise ht2.modMag.modSp.growZones.goOn

theorem State.Keeps.execBootSequence (h : s.Keeps P t) (hP : ∀ n k, k ≤ 32 → P n → P (max n k)) {env : BootEnv} :
    s.KeepsOut P (execBootSequence env t) := by
  unfold Machine.execBootSequence
  refine .next (.ite h (.ite (.modMag (.ite h h.ramLost)) ?_))
  extract_lets a b first c d e
  have ha : s.Keeps P a := h.bootStart.bootNor hP
  have hb : s.Keeps P b := .ite ha ha.bootProfile
  have hc : s.Keeps P c := .ite hb hb.bootKeys
  have hd : s.Keeps P d := .ite hc.bootPosition hc.bootRecords
  exact hd.bootTrain.bootTest.bootCarousel.bootRing.bootTake.bootEnd

end OfBoot

/-! ### CacheCmd -/

section OfCacheCmd
variable {P : Nat → Prop} {s t : State}

theorem State.Keeps.execCacheAccess (h : s.Keeps P t) {q : Nat} {wr : Bool} {addr : Nat} {data : Bytes} {err : Nat} : s.KeepsOut P (execCacheAccess
    q wr addr data err t) :=
  .next (.ite h.cacheReq.goOn h)

theorem State.Keeps.execCacheMissFillComplete (h : s.Keeps P t) {bank : Nat} : s.KeepsOut P (execCacheMissFillComplete bank t) :=
  .next (.ite h.fillDone.goOn h)

theorem State.Keeps.rangeStart (h : s.Keeps P t) {op : Nat} : s.Keeps P (t.rangeStart op) := h.modCache

theorem State.Keeps.rangeOwn (h : s.Keeps P t) {op : Nat} : s.Keeps P (t.rangeOwn op) := .ite h h.rangeStart

theorem State.Keeps.execCcaRangeClean (h : s.Keeps P t) {w : Option Hdr} : s.KeepsOut P (execCcaRangeClean w t) :=
  .next ((h.regWrite (fun _ h => h.rangeOwn)).goOn)

theorem State.Keeps.execCcaRangeCleanInvalidate (h : s.Keeps P t) {w : Option Hdr} : s.KeepsOut P (execCcaRangeCleanInvalidate w t) :=
  .next ((h.regWrite (fun _ h => h.rangeOwn)).goOn)

theorem State.Keeps.execRangeOperationComplete (h : s.Keeps P t) : s.KeepsOut P (execRangeOperationComplete t) := .next h.rangeEnd

theorem State.Keeps.setWays (h : s.Keeps P t) {ws : List Nat} {off : Bool} : s.Keeps P (t.setWays ws off) := .ite h.modCache h.modCache.startClean

theorem State.Keeps.wayEnable (h : s.Keeps P t) {v : Nat} : s.Keeps P (t.wayEnable v) := .ite h.setElem.setWays h.setElem

theorem State.Keeps.cacheEnable (h : s.Keeps P t) {v : Nat} : s.Keeps P (t.cacheEnable v) := .ite h.setElem (.ite h.setElem.setWays h.setElem.setWays)

theorem State.Keeps.execCcaWayEnWrite (h : s.Keeps P t) {w : Option Hdr} {value : Nat} : s.KeepsOut P (execCcaWayEnWrite w value t) :=
  .next ((h.regWrite (fun _ h => .ite h h.wayEnable)).goOn)

theorem State.Keeps.execCcaEnableWrite (h : s.Keeps P t) {w : Option Hdr} {value : Nat} : s.KeepsOut P (execCcaEnableWrite w value t) :=
  .next ((h.regWrite (fun _ h => .ite h h.cacheEnable)).goOn)

theorem State.Keeps.execCacheCleanComplete (h : s.Keeps P t) : s.KeepsOut P (execCacheCleanComplete t) := .next h.cleanEnd.goOn

theorem State.Keeps.execWayWakeComplete (h : s.Keeps P t) : s.KeepsOut P (execWayWakeComplete t) := .next h.modCache

theorem State.Keeps.execHardwareWayDisable (h : s.Keeps P t) {way : Nat} : s.KeepsOut P (execHardwareWayDisable way t) :=
  .next (.ite h (.goOn (.cleanDue (.ite h.modCache.raise.raise h.modCache.raise))))

end OfCacheCmd

/-! ### Chervil -/

section OfChervil
variable {P : Nat → Prop} {s t : State}

theorem State.Keeps.persistExcess (h : s.Keeps P t) : s.Keeps P t.persistExcess := .ite h h.flushWhere

theorem State.Keeps.setCredit (h : s.Keeps P t) {c : Nat} : s.Keeps P (t.setCredit c) :=
  .goOn (.persistExcess (.ite h.modPw.raise (.ite h.modPw.raise h.modPw)))

theorem State.Keeps.takeBank (h : s.Keeps P t) {mv : Nat} : s.Keeps P (t.takeBank mv) := .ite h.badInput h.modPw

theorem State.Keeps.execCreditRecompute (h : s.Keeps P t) {mv : Nat} : s.KeepsOut P (execCreditRecompute mv t) :=
  .next (.ite (.ite h.takeBank h) h.applyPend.takeBank.setCredit)

theorem State.Keeps.testStart (h : s.Keeps P t) : s.Keeps P t.testStart := .ite h h.modPw

theorem State.Keeps.testFail (h : s.Keeps P t) {cause : Nat} : s.Keeps P (t.testFail cause) := h.modPw.raise.setCredit

theorem State.Keeps.execBankTestStart (h : s.Keeps P t) {mv : Nat} : s.KeepsOut P (execBankTestStart mv t) := .next (.ite h h.takeBank.testStart)

theorem State.Keeps.execPwrTestNow (h : s.Keeps P t) {w : Option Hdr} : s.KeepsOut P (execPwrTestNow w t) :=
  .next ((h.regWrite (fun _ h => h.testStart)).goOn)

theorem State.Keeps.execBankTestCharged (h : s.Keeps P t) {mv : Nat} : s.KeepsOut P (execBankTestCharged mv t) := .next (.ite h h.modPw)

theorem State.Keeps.execBankTestChargeTimeout (h : s.Keeps P t) : s.KeepsOut P (execBankTestChargeTimeout t) := .next (.ite h.testFail h)

theorem State.Keeps.execBankTestV1Sample (h : s.Keeps P t) {mv : Nat} : s.KeepsOut P (execBankTestV1Sample mv t) := by
  unfold Machine.execBankTestV1Sample
  refine .next ?_
  split
  · exact .ite h.modPw.testFail h.modPw.modPw
  · exact h

theorem State.Keeps.execBankTestEnd (h : s.Keeps P t) {mv us : Nat} : s.KeepsOut P (execBankTestEnd mv us t) := by
  unfold Machine.execBankTestEnd
  refine .next ?_
  split
  · exact .ite h (.ite h.modPw.drawn.testFail (.ite h.modPw.drawn.testFail h.modPw.drawn.modPw))
  · exact h

theorem State.Keeps.crossing (h : s.Keeps P t) {evt kind th : Nat} {was now : Bool} {value : Nat} : s.Keeps P (t.crossing evt kind th was now
    value) :=
  .ite h h.ringAdd.chvRaise

theorem State.Keeps.takeTemp (h : s.Keeps P t) {t' : Int} : s.Keeps P (t.takeTemp t') :=
  .ite h.modPw.crossing.crossing (.ite h.modPw.crossing.crossing.noteFault h.modPw.crossing.crossing)

theorem State.Keeps.badTemp (h : s.Keeps P t) : s.Keeps P t.badTemp := .ite h.badInput.modPw.modPw.noteFault.chvRaise h.badInput.modPw

theorem State.Keeps.takeHumidity (h : s.Keeps P t) {h' : Nat} : s.Keeps P (t.takeHumidity h') := .ite h.badInput h.modPw.crossing

theorem State.Keeps.takeShock (h : s.Keeps P t) {ps : List Nat} : s.Keeps P (t.takeShock ps) :=
  .ite h.badInput (.ite h.modPw.ringAdd.chvRaise h.modPw)

theorem State.Keeps.noteThreshold (_ : s.Keeps P t) {u : State} (hu : s.Keeps P u) : s.Keeps P (t.noteThreshold u) := .ite hu.asyncEvent hu

theorem State.Keeps.execTemperatureSample (h : s.Keeps P t) {centi : Option Int} {humidity : Nat} {shocks : List Nat} : s.KeepsOut P
  (execTemperatureSample centi humidity shocks t) := by
  unfold Machine.execTemperatureSample
  refine .next ?_
  split
  · exact h
  · refine h.noteThreshold (.takeShock (.takeHumidity (?_)))
    split
    · exact .ite h.applyPend.takeTemp h.applyPend.badTemp
    · exact h.applyPend.badTemp

theorem State.Keeps.execShockInterrupt (h : s.Keeps P t) {x y z : Int} : s.KeepsOut P (execShockInterrupt x y z t) := .next (.ite h.takeShock h)

theorem State.Keeps.execCompositeTemperatureSample (h : s.Keeps P t) {deci : Int} : s.KeepsOut P (execCompositeTemperatureSample deci t) :=
  .next (.ite h ((h.noteThreshold (.ite (.raise (.modPw (.ite (.raise (.modPw (.ite h.modPw.modPw.raise.asyncEvent h.modPw))) (.ite
    h.modPw.modPw.raise.asyncEvent h.modPw)))) (.ite (.raise (.modPw (.ite h.modPw.modPw.raise.asyncEvent h.modPw))) (.ite
    h.modPw.modPw.raise.asyncEvent h.modPw)))).goOn))

theorem State.Keeps.execThermalTrip (h : s.Keeps P t) : s.KeepsOut P (execThermalTrip t) := .next (.ite h h.modPw.loseLine)

end OfChervil

/-! ### Transport -/

section OfTransport
variable {P : Nat → Prop} {s t : State}

theorem State.Keeps.addTask (h : s.Keeps P t) {q : Nat} {t' : Task} : s.Keeps P (t.addTask q t') := h.modNv.modCtl

theorem State.Keeps.transport (h : s.Keeps P t) {h' : Hdr} {check : State → Option Status} {task : Nat → Task} : s.Keeps P (t.transport h' check
  task) := by
  unfold State.transport
  refine (h.adminCmd (fun _ _ h => ?_)).goOn
  split
  · exact h.done
  · exact h.addTask

theorem State.Keeps.execTransportTensionOn (h : s.Keeps P t) {h' : Hdr} : s.KeepsOut P (execTransportTensionOn h' t) := .next h.transport

theorem State.Keeps.execTransportTensionOff (h : s.Keeps P t) {h' : Hdr} : s.KeepsOut P (execTransportTensionOff h' t) := .next h.transport

theorem State.Keeps.execTransportPark (h : s.Keeps P t) {h' : Hdr} {arg : Nat} : s.KeepsOut P (execTransportPark h' arg t) := .next h.transport

theorem State.Keeps.execTransportLocate (h : s.Keeps P t) {h' : Hdr} {d11 d12 : Nat} : s.KeepsOut P (execTransportLocate h' d11 d12 t) :=
  .next h.transport

theorem State.Keeps.execTransportShuttle (h : s.Keeps P t) {h' : Hdr} : s.KeepsOut P (execTransportShuttle h' t) := .next h.transport

theorem State.Keeps.execTransportCalibrate (h : s.Keeps P t) {h' : Hdr} {arg : Nat} : s.KeepsOut P (execTransportCalibrate h' arg t) :=
  .next h.transport

theorem State.Keeps.execTransportEjectPrepare (h : s.Keeps P t) {h' : Hdr} {arg : Nat} : s.KeepsOut P (execTransportEjectPrepare h' arg t) :=
  .next h.transport

theorem State.Keeps.execTransportServiceUnload (h : s.Keeps P t) {h' : Hdr} : s.KeepsOut P (execTransportServiceUnload h' t) := .next h.transport

theorem State.Keeps.execTransportServiceLoad (h : s.Keeps P t) {h' : Hdr} : s.KeepsOut P (execTransportServiceLoad h' t) := .next h.transport

theorem State.Keeps.execTransportResumeWriting (h : s.Keeps P t) {h' : Hdr} {arg : Nat} : s.KeepsOut P (execTransportResumeWriting h' arg t) :=
  .next ((h.adminCmd (fun _ _ h => .ite h.done (.ite h.done h.endSuspension.done))).goOn)

theorem State.Keeps.tensionFail (h : s.Keeps P t) {cause : Nat} : s.Keeps P (t.tensionFail cause) := h.release.raise.failHead.serve

theorem State.Keeps.rearmAll (h : s.Keeps P t) : s.Keeps P t.rearmAll.2 := by
  refine h.foldl_snd fun a h k => ?_
  dsimp only
  split
  · dsimp only
    exact .ite h.rearm.slotOff h.rearm
  · exact h

theorem State.Keeps.armReels (h : s.Keeps P t) : s.Keeps P t.armReels := h.armUnlessHeld.armUnlessHeld.modCtl

theorem State.Keeps.linksOn (h : s.Keeps P t) : s.Keeps P t.linksOn := h.foldl (fun _ h _ => h.modLink)

theorem State.Keeps.execTensionUp (h : s.Keeps P t) {pg10 pg11 : Bool} : s.KeepsOut P (execTensionUp pg10 pg11 t) :=
  .next (.ite h (.ite h.tapeState.raise.modPw.tensionFail (.ite h.tapeState.modCtl.modPw.rearmAll.tensionFail (.ite
    h.tapeState.modCtl.modPw.rearmAll.linksOn.modCtl.modRc.armReels h.tapeState.modCtl.modPw.rearmAll.linksOn.modCtl.modRc.modCtl))))

theorem State.Keeps.execRadiusProbeDone (h : s.Keeps P t) {ok : Bool} {supplyUm takeupUm : Nat} : s.KeepsOut P (execRadiusProbeDone ok supplyUm
    takeupUm t) :=
  .next (.ite h (.ite h.modCtl.modPw.armReels h.tensionFail))

theorem State.Keeps.probeWatch (h : s.Keeps P t) : s.Keeps P t.probeWatch := .ite h (.ite h.tensionFail (.ite h.modCtl h))

theorem State.Keeps.execTensionSettled (h : s.Keeps P t) : s.KeepsOut P (execTensionSettled t) := by
  unfold Machine.execTensionSettled
  refine .next (.ite h ?_)
  extract_lets t1 kept u v
  have ht : s.Keeps P t1 := (State.Keeps.ite h.arm h).foldl fun _ h _ => h.armUnlessHeld
  have hu : s.Keeps P u := ht.modCtl
  have hv : s.Keeps P v := by
    dsimp only [v]
    split
    · exact hu.finishTask
    · exact hu
  exact .ite hv.serve hv.modCtl

theorem State.Keeps.execTensionTimeout (h : s.Keeps P t) : s.KeepsOut P (execTensionTimeout t) :=
  .next (.ite h ((h.foldl (fun _ h _ => h.slotOff)).tensionFail))

theorem State.Keeps.startIndexRead (h : s.Keeps P t) {w : Nat} : s.Keeps P (t.startIndexRead w) := h.clearCapture.modRc.modSp.startMove.modCtl

theorem State.Keeps.execPositionValid (h : s.Keeps P t) {tpn frame boundary : Nat} : s.KeepsOut P (execPositionValid tpn frame boundary t) := by
  unfold Machine.execPositionValid
  dsimp only
  refine .next ?_
  split
  · exact h
  · split
    · exact .ite h.modRc.modCtl.modPw.startIndexRead h.modRc.modCtl.modPw.serve
    · exact h.modRc.modCtl.modPw.serve

theorem State.Keeps.execFindPositionFailed (h : s.Keeps P t) {cause : Nat} : s.KeepsOut P (execFindPositionFailed cause t) :=
  .next (.ite h h.raise.failHead.stopTape)

theorem State.Keeps.ramp (h : s.Keeps P t) {wrap : Nat} : s.Keeps P (t.ramp wrap) := by
  unfold State.ramp
  exact h.modCtl

theorem State.Keeps.parkArrived (h : s.Keeps P t) : s.Keeps P t.parkArrived := h.modCtl.letGo

theorem State.Keeps.releaseDone (h : s.Keeps P t) {m : MagState} : s.Keeps P (t.releaseDone m) := by
  unfold State.releaseDone
  extract_lets t1
  have ht1 : s.Keeps P t1 := h.toBraked
  split
  · exact .ite ht1.finishTask.serve ht1.serve
  · exact .ite ht1.serve (.ite (.serve (.ite ht1.parkWrites.sealJournal.modCtl.finishTask ht1.parkWrites.sealJournal.modCtl))
      ht1.parkWrites.finishTask.serve)
  · exact .ite ht1.serve ht1.parkWrites.forgetPosition.modMag.modCtl.serve
  · exact ht1.serve

theorem State.Keeps.execLimiterUpdate (h : s.Keeps P t) : s.KeepsOut P (execLimiterUpdate t) := by
  unfold Machine.execLimiterUpdate
  dsimp only
  refine .next ?_
  split
  · exact .ite h.superFrame.probeWatch.releaseDone h.superFrame.probeWatch
  · exact h.superFrame.probeWatch

theorem State.Keeps.execLocateArrival (h : s.Keeps P t) : s.KeepsOut P (execLocateArrival t) := by
  unfold Machine.execLocateArrival
  dsimp only
  refine .next ?_
  split
  · exact h
  · split
    · exact h.settle.tapeState.finishTask.serve
    · exact .ite h h.settle.tapeState.ramp.modCtl
    · exact .ite (.ite h h.settle.tapeState.ramp) (.ite h.settle.ramp h.settle.parkArrived)
    · exact .ite h.settle.ramp h.settle.parkArrived
    · exact .ite h.settle.tapeState.ramp.modCtl h.settle.tapeState.modRc.popTask.dropUnwanted.serve
    · exact h.settle.ramp.modCtl
    · exact h.settle.ramp
    · exact h.settle.tapeState.serve

theorem State.Keeps.execLocateTimeout (h : s.Keeps P t) : s.KeepsOut P (execLocateTimeout t) := .next (.ite h h.raise.failHead.stopTape)

theorem State.Keeps.resumePoint (h : s.Keeps P t) : s.Keeps P t.resumePoint := .ite h.modSp h.modSp

theorem State.Keeps.endSubstitutions (h : s.Keeps P t) : s.Keeps P t.endSubstitutions := h.foldl (fun _ h _ => .ite h.toHold h)

theorem State.Keeps.stillState (h : s.Keeps P t) : s.Keeps P t.stillState := .ite h h.tapeState

theorem State.Keeps.execStopComplete (h : s.Keeps P t) : s.KeepsOut P (execStopComplete t) := by
  unfold Machine.execStopComplete
  dsimp only
  refine .next ?_
  split
  · exact h
  · split
    · exact h
    · split
      · split
        · exact h.resumePoint.endSubstitutions.modCtl.settle.stillState.popTask.serve
        · exact .ite h.resumePoint.endSubstitutions.modCtl.settle.stillState.finishTask.serve
            h.resumePoint.endSubstitutions.modCtl.settle.stillState.serve
        · exact h.resumePoint.endSubstitutions.modCtl.settle.stillState.serve
      · exact h.resumePoint.endSubstitutions.modCtl.letGo
      · exact h.resumePoint.endSubstitutions.modCtl.settle.serve
      · exact .ite h.resumePoint.endSubstitutions.modCtl.endSequence.stopReads.dropUnwanted.release.serve
          h.resumePoint.endSubstitutions.modCtl.endSequence.settle.tapeState.modCtl.serve
      · exact h.resumePoint.endSubstitutions.modCtl.endSequence.dropTapeReads.release.serve
      · exact .ite h.resumePoint.endSubstitutions.modCtl.endSequence.release (.serve (.forgetPosition (.release (.ite
          h.resumePoint.endSubstitutions.modCtl.endSequence.stopReads.dropUnwanted
          h.resumePoint.endSubstitutions.modCtl.endSequence.dropTapeReads))))
      · exact h.resumePoint.endSubstitutions.modCtl.letGo

theorem State.Keeps.execTrapezeAutoRearm (h : s.Keeps P t) : s.KeepsOut P (execTrapezeAutoRearm t) := by
  unfold Machine.execTrapezeAutoRearm
  refine .next (.ite h ?_)
  extract_lets r
  have hr : s.Keeps P r.2 := by
    refine h.foldl_snd fun a h k => ?_
    dsimp only
    split
    · dsimp only
      exact h.rearm
    · exact h
  exact .ite hr.serve hr.dropTapeReads.letGo

theorem State.Keeps.execTensionedIdleTimeout (h : s.Keeps P t) : s.KeepsOut P (execTensionedIdleTimeout t) := .next (.ite h.modCtl.serve h)

theorem State.Keeps.execPlaybackIdleTimeout (h : s.Keeps P t) : s.KeepsOut P (execPlaybackIdleTimeout t) :=
  .next (.ite (.serve (.ite h.enter.modRc.stopTape h.enter.modRc)) h)

theorem State.Keeps.execLidSwChange (h : s.Keeps P t) {opened : Bool} : s.KeepsOut P (execLidSwChange opened t) := by
  unfold Machine.execLidSwChange
  dsimp only
  refine .next ?_
  split
  · exact h.modPw.ringAdd.drawn.modMag
  · split
    · exact h.modPw.ringAdd.drawn.finishTask.serve
    · exact .ite h.modPw.ringAdd.drawn (.ite h.modPw.ringAdd.drawn.endCopy.stopTape (.ite
        h.modPw.ringAdd.drawn.endSequence.dropTapeReads.release.serve h.modPw.ringAdd.drawn))

end OfTransport

/-! ### ReadChannel -/

section OfReadChannel
variable {P : Nat → Prop} {s t : State}

theorem State.Keeps.modLane (h : s.Keeps P t) {c : Nat} {f : Lane → Lane} : s.Keeps P (t.modLane c f) := h.modRc

theorem State.Keeps.seeHead (h : s.Keeps P t) {c : Nat} : s.Keeps P (t.seeHead c) := by
  unfold State.seeHead
  split
  · exact h.modSp
  · exact h

theorem State.Keeps.hear (h : s.Keeps P t) {c : Nat} {us : List Int} : s.Keeps P (t.hear c us) := h.modLane

theorem State.Keeps.applyZoneGroups (h : s.Keeps P t) : s.Keeps P t.applyZoneGroups := .ite h.applyPend.modRc h

theorem State.Keeps.passBegins (h : s.Keeps P t) : s.Keeps P t.passBegins := by
  unfold State.passBegins
  split
  · exact h
  · split
    · exact .ite h h.modRc.modCtl
    · exact h

theorem State.Keeps.search (h : s.Keeps P t) {c : Nat} : s.Keeps P (t.search c) := h.modLane

theorem State.Keeps.beginDs (h : s.Keeps P t) {c k : Nat} : s.Keeps P (t.beginDs c k) := h.modLane.seeHead

theorem State.Keeps.execDsSeparatorDetected (h : s.Keeps P t) {lane : Nat} {samples : List Int} : s.KeepsOut P (execDsSeparatorDetected lane
  samples t) := by
  unfold Machine.execDsSeparatorDetected
  dsimp only
  refine .next ?_
  split
  · exact h
  · split
    · exact h.hear.applyZoneGroups.passBegins.beginDs
    · exact h.hear

theorem State.Keeps.sendPtrs (h : s.Keeps P t) {ps : List Pointer} : s.Keeps P (t.sendPtrs ps) := h.feed

theorem State.Keeps.sendRow (h : s.Keeps P t) {lane slot cand : Nat} {p : RowPkt} : s.Keeps P (t.sendRow lane slot cand p) := h.feed

theorem State.Keeps.erasedRow (h : s.Keeps P t) {lane slot cause : Nat} : s.Keeps P (t.erasedRow lane slot cause) := h.sendPtrs.sendRow

theorem State.Keeps.powerLane (h : s.Keeps P t) {c : Nat} : s.Keeps P (t.powerLane c) := h.modLane.search

theorem State.Keeps.joinDs (h : s.Keeps P t) {r : Lane} {c : Nat} : s.Keeps P (t.joinDs r c) := h.modLane.seeHead.foldl (fun _ h _ => h.erasedRow)

theorem State.Keeps.execEngineGroupWake (h : s.Keeps P t) {g : Nat} : s.KeepsOut P (execEngineGroupWake g t) := by
  unfold Machine.execEngineGroupWake
  dsimp only
  refine .next ?_
  split
  · exact h
  · split
    · exact (h.modRc.foldl (fun _ h _ => h.powerLane)).foldl (fun _ h _ => h.joinDs)
    · exact h.modRc.foldl (fun _ h _ => h.powerLane)

theorem State.Keeps.laneEnd (h : s.Keeps P t) {lane : Nat} : s.Keeps P (t.laneEnd lane) := h.when (fun _ h => h.search)

theorem State.Keeps.missRow (h : s.Keeps P t) {lane slot cause : Nat} : s.Keeps P (t.missRow lane slot cause) := h.modLane.erasedRow.laneEnd

theorem State.Keeps.deadRow (h : s.Keeps P t) {lane slot cause : Nat} : s.Keeps P (t.deadRow lane slot cause) :=
  .ite (.missRow (.ite h.modLane.seeHead h)) h

theorem State.Keeps.execSyncWindowClose (h : s.Keeps P t) {lane slot : Nat} {samples : List Int} : s.KeepsOut P (execSyncWindowClose lane slot
  samples t) := by
  unfold Machine.execSyncWindowClose
  refine .next ?_
  split
  · exact h
  · split
    · exact h.deadRow
    · exact .ite h.hear (.ite h.hear.missRow (.ite h.hear.modLane.bumpPv.modSp.missRow h.hear.modLane))

theorem State.Keeps.execLockLost (h : s.Keeps P t) {lane : Nat} {samples : List Int} : s.KeepsOut P (execLockLost lane samples t) :=
  .next (.ite h (.ite h.hear ((h.hear.foldl (fun _ h _ => h.erasedRow)).modLane.search.raise)))

theorem State.Keeps.countSpan (h : s.Keeps P t) {lane : Nat} {x : Span} : s.Keeps P (t.countSpan lane x) := h.when (fun _ h => h.bumpPv.modSp)

theorem State.Keeps.tellSpan (h : s.Keeps P t) {lane : Nat} {x : Span} : s.Keeps P (t.tellSpan lane x) := by
  unfold State.tellSpan
  exact h.countSpan.modLane.sendPtrs.when (fun _ h => h.raise)

theorem State.Keeps.execDropoutSpan (h : s.Keeps P t) {lane slot : Nat} {kind first last : Nat} {samples : List Int} : s.KeepsOut P
  (execDropoutSpan lane slot kind first last samples t) := by
  unfold Machine.execDropoutSpan
  dsimp only
  refine .next ?_
  split
  · exact h
  · split
    · exact h.hear
    · exact .ite h.hear (.ite h.hear.tellSpan.modLane (.ite h.hear.countSpan.modLane h.hear))

theorem State.Keeps.tellRow (h : s.Keeps P t) {lane : Nat} : s.Keeps P (t.tellRow lane) := by
  unfold State.tellRow
  exact (h.foldl (fun _ h _ => h.tellSpan)).modLane

theorem State.Keeps.rowOver (h : s.Keeps P t) {lane : Nat} {gain offset asym : Int} : s.Keeps P (t.rowOver lane gain offset asym) :=
  ((h.modLane.when (fun _ h => h.raise)).when (fun _ h => h.raise)).laneEnd

theorem State.Keeps.execRowFramed (h : s.Keeps P t) {lane slot cand : Nat} {samples : List Int} {timeNs gain : Nat} {offset asym : Int} :
    s.KeepsOut P (execRowFramed lane slot cand samples timeNs gain offset asym t) :=
  .next (.ite h (.ite h.hear (.ite (.rowOver (.modLane (.sendRow (.when (.ite h.hear.tellRow h.hear) (fun _ h => h.sendPtrs.raise))))) (.modLane
    (.sendRow (.when (.ite h.hear.tellRow h.hear) (fun _ h => h.sendPtrs.raise)))))))

theorem State.Keeps.modServo (h : s.Keeps P t) {i : Nat} {f : Servo → Servo} : s.Keeps P (t.modServo i f) := h.modRc

theorem State.Keeps.lateralSample (h : s.Keeps P t) : s.Keeps P t.lateralSample := .ite h.modRc h.modRc

theorem State.Keeps.reportPos (h : s.Keeps P t) : s.Keeps P t.reportPos := by
  unfold State.reportPos
  split
  · exact h.modRc
  · exact h

theorem State.Keeps.execServoFrame (h : s.Keeps P t) {lane mark : Nat} {timeNs a b : Nat} : s.KeepsOut P (execServoFrame lane mark timeNs a b t) :=
  .next (.reportPos (.when (.modServo (.lateralSample (.ite h.modServo (h.modServo.when (fun _ h => h.raise))))) (fun _ h => h.raise)))

theorem State.Keeps.execServoFrameTimeout (h : s.Keeps P t) {lane : Nat} : s.KeepsOut P (execServoFrameTimeout lane t) :=
  .next (.ite h h.modServo.lateralSample.raise)

theorem State.Keeps.probeLook (h : s.Keeps P t) {tpn : Nat} : s.Keeps P (t.probeLook tpn) := .ite h (.ite h.modCtl (.ite h.tensionFail h.modCtl))

theorem State.Keeps.execTapePositionWord (h : s.Keeps P t) {lane bits : Nat} : s.KeepsOut P (execTapePositionWord lane bits t) :=
  .next (.ite h.modServo.reportPos.probeLook ((h.modServo.when (fun _ h => h.raise)).reportPos))

theorem State.Keeps.execSpeedMeasurement (h : s.Keeps P t) {reverse : Bool} {marks : List (Nat × Nat)} : s.KeepsOut P (execSpeedMeasurement reverse
    marks t) :=
  .next (.ite h.modRc.brakeLook ((h.modRc.when (fun _ h => h.noteMotion)).brakeLook))

theorem State.Keeps.execPreampTransaction (h : s.Keeps P t) {m : Nat} {rd : Bool} {reg data : Nat} {replies : List Nat} : s.KeepsOut P
  (execPreampTransaction m rd reg data replies t) := by
  unfold Machine.execPreampTransaction
  dsimp only
  refine .next ?_
  split
  · exact h
  · split
    · exact h.modRc.when (fun _ h => h.setElem)
    · exact .ite h h.modRc.bumpPv.raise

theorem State.Keeps.execPreampFault (h : s.Keeps P t) {m status : Nat} : s.KeepsOut P (execPreampFault m status t) :=
  .next (.ite h h.noteFault.modRc.setElem.raise)

theorem State.Keeps.execHmcFltRelease (h : s.Keeps P t) {m : Nat} : s.KeepsOut P (execHmcFltRelease m t) := .next h.modRc

end OfReadChannel

/-! ### Decoding -/

section OfDecoding
variable {P : Nat → Prop} {s t : State}

theorem State.Keeps.countC1 (h : s.Keeps P t) {lane : Nat} {a : Align} : s.Keeps P (t.countC1 lane a) := by
  unfold State.countC1
  exact h.bumpPv.modSp

theorem State.Keeps.tallyVerify (h : s.Keeps P t) {tag lane slot : Nat} {bad : Bool} : s.Keeps P (t.tallyVerify tag lane slot bad) := h.modSp

theorem State.Keeps.tallyCal (h : s.Keeps P t) {lane slot : Nat} {a : Align} : s.Keeps P (t.tallyCal lane slot a) := by
  unfold State.tallyCal
  exact h.modRc

theorem State.Keeps.intake (h : s.Keeps P t) {g : Nat} : s.Keeps P (t.intake g) := by
  unfold State.intake
  exact h.takeAll.takeAll.modRc

theorem State.Keeps.dropRow (h : s.Keeps P t) {lane slot tag : Nat} : s.Keeps P (t.dropRow lane slot tag) := h.modRc

theorem State.Keeps.confirm (h : s.Keeps P t) {lane slot tag : Nat} {offset : Int} : s.Keeps P (t.confirm lane slot tag offset) := h.modLane

theorem State.Keeps.acceptRow (h : s.Keeps P t) {lane slot tag : Nat} {a : Align} : s.Keeps P (t.acceptRow lane slot tag a) :=
  .ite h (.ite (h.countC1.tallyVerify.when (fun _ h => h.calAdd)) (.ite h.countC1.tallyCal (h.countC1.modRc.when (fun _ h => h.calAdd))))

theorem State.Keeps.execRowDecode (h : s.Keeps P t) {lane slot : Nat} : s.KeepsOut P (execRowDecode lane slot t) := by
  unfold Machine.execRowDecode
  refine .next (.ite h ?_)
  extract_lets u
  have hu : s.Keeps P u := h.intake
  split
  · exact hu
  · extract_lets here ex
    refine .ite (.ite hu hu.dropRow) ?_
    split
    · exact hu.dropRow.confirm.acceptRow
    · exact hu.dropRow.modRc

theorem State.Keeps.mergeCapture (h : s.Keeps P t) {key m : Nat} {cols : NMap Column} : s.Keeps P (t.mergeCapture key m cols) := by
  unfold State.mergeCapture
  dsimp only
  split
  · exact h.modRc
  · exact h

theorem State.Keeps.indexClass (h : s.Keeps P t) {cls f : Nat} : s.Keeps P (t.indexClass cls f) := .ite h.bumpPv h.bumpPv.noteFault.journalOpen

theorem State.Keeps.indexDsDone (h : s.Keeps P t) {key : Nat} : s.Keeps P (t.indexDsDone key) := by
  unfold State.indexDsDone
  exact .ite h (.ite h.modRc (.ite h.modRc.indexClass h.modRc))

theorem State.Keeps.capture (h : s.Keeps P t) : s.Keeps P t.capture := by
  unfold State.capture
  dsimp only
  split
  · exact h
  · split
    · exact h
    · split
      · exact .ite h.bumpPv.modSp.mergeCapture.indexDsDone h.bumpPv.modSp
      · exact .ite h.bumpPv.modSp.mergeCapture.tryAuth h.bumpPv.modSp
      · exact .ite h.bumpPv.modSp.mergeCapture.modRc h.bumpPv.modSp
      · exact h.bumpPv.modSp

theorem State.Keeps.assembleDs (h : s.Keeps P t) {q : Nat} : s.Keeps P (t.assembleDs q) := .ite h (.tryAuth (.ite h h.restoreC3))

theorem State.Keeps.ladderLook (h : s.Keeps P t) {q : Nat} : s.Keeps P (t.ladderLook q) := by
  unfold State.ladderLook
  extract_lets u
  have hu : s.Keeps P u := h.assembleDs
  split
  · exact .ite hu.dsClass hu
  · exact hu

theorem State.Keeps.dropColumns (h : s.Keeps P t) {q : Nat} : s.Keeps P (t.dropColumns q) := by
  unfold State.dropColumns
  exact h.modRc

theorem State.Keeps.readAhead (h : s.Keeps P t) {g : Nat} : s.Keeps P (t.readAhead g) := by
  unfold State.readAhead
  extract_lets held t2
  have ht2 : s.Keeps P t2 := h.modRc
  split
  · exact .ite ht2.modRc ht2.serve
  · exact ht2.serve

theorem State.Keeps.afterRead (h : s.Keeps P t) {kind g : Nat} : s.Keeps P (t.afterRead kind g) := by
  unfold State.afterRead
  split
  · exact .ite h (.ite h.popTask.readAhead h.popTask.serve)
  · exact .ite h.readAhead h.serve
  · exact h.serve

theorem State.Keeps.endReadPass (h : s.Keeps P t) {p : Pass} : s.Keeps P (t.endReadPass p) := by
  unfold State.endReadPass
  extract_lets qs made t3 u
  have ht3 : s.Keeps P t3 := h.clearCapture.modRc.bumpPv
  have hu : s.Keeps P u := ((ht3.foldl (fun _ h _ => h.ladderLook)).foldl (fun _ h _ => h.assembleDs)).readAll.settleHost
  exact hu.dropColumns.afterRead

theorem State.Keeps.cutIndex (h : s.Keeps P t) : s.Keeps P t.cutIndex := by
  unfold State.cutIndex
  dsimp only
  split
  · exact h
  · exact h.foldl (fun _ h _ => h.modRc)

theorem State.Keeps.countIndex (h : s.Keeps P t) : s.Keeps P t.countIndex := h.foldl (fun _ h _ => h.indexClass)

theorem State.Keeps.noteIncomplete (h : s.Keeps P t) : s.Keeps P t.noteIncomplete := by
  unfold State.noteIncomplete
  split
  · exact h.when (fun _ h => h.journalOpen)
  · exact h

theorem State.Keeps.loadDone (h : s.Keeps P t) : s.Keeps P t.loadDone := h.indexLoaded.finishTask.serve

theorem State.Keeps.indexNext (h : s.Keeps P t) : s.Keeps P t.indexNext :=
  .ite h.countIndex.noteIncomplete.modRc.startIndexRead h.countIndex.noteIncomplete.modRc.loadDone

theorem State.Keeps.giveUpIndex (h : s.Keeps P t) {w f : Nat} : s.Keeps P (t.giveUpIndex w f) := h.modRc.indexClass

theorem State.Keeps.endIndexPass (h : s.Keeps P t) : s.Keeps P t.endIndexPass := by
  unfold State.endIndexPass
  extract_lets w made t3 failed step u
  have ht3 : s.Keeps P t3 := h.clearCapture.modRc.bumpPv.cutIndex
  have hu : s.Keeps P u := ht3.foldl (fun _ h _ => .ite h.giveUpIndex h.modRc)
  exact .ite hu.indexNext hu.modRc

theorem State.Keeps.applyZone (h : s.Keeps P t) {z : Nat} : s.Keeps P (t.applyZone z) :=
  (h.setPv.foldl (fun _ h _ => h.setPv)).foldl (fun _ h _ => .ite h.setPv h)

theorem State.Keeps.calDone (h : s.Keeps P t) : s.Keeps P t.calDone := by
  unfold State.calDone
  exact (h.foldl (fun _ h _ => h.applyZone)).clearCapture.modRc.modSp.endSuspension.modCtl.stopTape.serve

theorem State.Keeps.endCalPass (h : s.Keeps P t) {p : Pass} : s.Keeps P (t.endCalPass p) := by
  unfold State.endCalPass
  split
  · split
    · exact h.startCal
    · exact h.calDone
  · exact h.calDone

theorem State.Keeps.execCaptureComplete (h : s.Keeps P t) : s.KeepsOut P (execCaptureComplete t) := by
  unfold Machine.execCaptureComplete
  refine .next ?_
  split
  · exact h
  · exact .ite h (.ite (.goOn (.readAll (.modRc (.ite h (.capture (.ite h.noteTaken h)))))) (.ite (.endIndexPass (.modRc (.ite h (.capture (.ite
      h.noteTaken h))))) (.ite (.endCalPass (.modRc (.ite h (.capture (.ite h.noteTaken h))))) (.endReadPass (.modRc (.ite h (.capture (.ite
      h.noteTaken h))))))))

theorem State.Keeps.beginVariant (h : s.Keeps P t) {v : Nat} : s.Keeps P (t.beginVariant v) := h.clearCapture.modRc

theorem State.Keeps.startReread (h : s.Keeps P t) {q : Nat} {l : Ladder} : s.Keeps P (t.startReread q l) := by
  unfold State.startReread
  split
  · exact h
  · exact h.tapeState.beginVariant.modRc.modCtl.startMove.modCtl

theorem State.Keeps.startIndexReread (h : s.Keeps P t) {l : Ladder} : s.Keeps P (t.startIndexReread l) := by
  unfold State.startIndexReread
  exact h.beginVariant.modRc.startMove.modCtl

theorem State.Keeps.execRereadPassStart (h : s.Keeps P t) {seq : Nat} : s.KeepsOut P (execRereadPassStart seq t) := by
  unfold Machine.execRereadPassStart
  refine .next ?_
  split
  · exact h
  · split
    · exact h
    · split
      · split
        · exact h.startIndexReread
        · exact h
      · split
        · exact h.startReread
        · exact h

theorem State.Keeps.execRetryTimeExpiry (h : s.Keeps P t) {seq : Nat} : s.KeepsOut P (execRetryTimeExpiry seq t) := by
  unfold Machine.execRetryTimeExpiry
  refine .next ?_
  split
  · exact h
  · exact .ite h (.ite h.modRc (.ite (.ite h.modRc.giveUpIndex.indexNext h.modRc.giveUpIndex) h.modRc.ladderLook.readAll.settleHost.afterRead))

theorem State.Keeps.execRecordDecompressStart (h : s.Keeps P t) : s.KeepsOut P (execRecordDecompressStart t) := by
  unfold Machine.execRecordDecompressStart
  refine .next ?_
  split
  · exact h
  · exact .ite h h.passBytes.modRc.bumpPv

theorem State.Keeps.execRecordCrcCheck (h : s.Keeps P t) : s.KeepsOut P (execRecordCrcCheck t) := by
  unfold Machine.execRecordCrcCheck
  refine .next ?_
  split
  · exact h
  · refine .goOn (.readAll (?_))
    split
    · exact h.modRc.bumpPv.recFails
    · exact .ite h.modRc.passBytes.modRc h.modRc.bumpPv.recFails

end OfDecoding

/-! ### Restart -/

section OfRestart
variable {P : Nat → Prop} {s t : State}

theorem State.Keeps.restartReset (h : s.Keeps P t) : s.Keeps P t.restartReset := h.drawn.controllerReset.modNv.flushWhere

theorem State.Keeps.restartDevice (h : s.Keeps P t) : s.Keeps P t.restartDevice := .goOn (.ite h.restartReset.modMag h.restartReset.modMag.modCtl)

theorem State.Keeps.endTape (h : s.Keeps P t) : s.Keeps P t.endTape := by
  unfold State.endTape
  extract_lets t1 u
  have ht1 : s.Keeps P t1 := h.endCopy.dropGen.modSp.modRc
  have hu : s.Keeps P u := ht1.modCtl
  exact .ite hu (.ite hu.stopTape hu.letGo)

theorem State.Keeps.importStat (h : s.Keeps P t) {f : Option (Nat × Nat)} : s.Keeps P (t.importStat f) := h.modNor

theorem State.Keeps.importCheck (h : s.Keeps P t) : s.Keeps P t.importCheck := h.importStat

theorem State.Keeps.importSeal (h : s.Keeps P t) : s.Keeps P t.importSeal := by
  unfold State.importSeal
  split
  · exact h.importStat
  · exact .ite h.norDone h.modNor.norWrite

theorem State.Keeps.acceptLoss (h : s.Keeps P t) : s.Keeps P t.acceptLoss :=
  .restartDevice (.ite h.noteFault.countLoss.clearTake.modCar h.noteFault.countLoss.clearTake.modCar.modCar.putCopies)

theorem State.Keeps.impAct (h : s.Keeps P t) {v : Nat} : s.Keeps P (t.impAct v) :=
  .ite h.importCheck (.ite h.importSeal (.ite h.restartDevice (.ite h.acceptLoss h)))

theorem State.Keeps.impWrite (h : s.Keeps P t) {w : Option Hdr} {v : Nat} : s.Keeps P (t.impWrite w v) := by
  unfold State.impWrite
  split
  · exact .ite h h.impAct
  · refine h.adminCmd (fun _ _ h => ?_)
    split
    · exact h.complete
    · exact .ite h.complete h.noteWrite.impAct.done

theorem State.Keeps.execBootImportCheck (h : s.Keeps P t) {w : Option Hdr} : s.KeepsOut P (execBootImportCheck w t) := .next h.impWrite.goOn

theorem State.Keeps.execBootImportSeal (h : s.Keeps P t) {w : Option Hdr} : s.KeepsOut P (execBootImportSeal w t) := .next h.impWrite.goOn

theorem State.Keeps.execBootImportRestart (h : s.Keeps P t) {w : Option Hdr} : s.KeepsOut P (execBootImportRestart w t) := .next h.impWrite.goOn

theorem State.Keeps.execBootImportAcceptLoss (h : s.Keeps P t) {w : Option Hdr} : s.KeepsOut P (execBootImportAcceptLoss w t) := .next h.impWrite.goOn

theorem State.Keeps.execLockstepMismatch (h : s.Keeps P t) : s.KeepsOut P (execLockstepMismatch t) :=
  .next (.ite h (.ite h.modPw.noteFault.raise.modMag (.ite h.modPw.noteFault.raise.modMag.flushWhere.endTape.modMag.goOn
    h.modPw.noteFault.raise.modMag.flushWhere.endTape.restartReset.modMag.goOn)))

theorem State.Keeps.bufferLost (h : s.Keeps P t) : s.Keeps P t.bufferLost := h.modCar

theorem State.Keeps.execBufferUncorrectableError (h : s.Keeps P t) {channel : Nat} : s.KeepsOut P (execBufferUncorrectableError channel t) :=
  .next (.ite h (.ite h.noteFault.raise.modPw.bufferLost.serve (.ite h.noteFault.raise
    h.noteFault.raise.latchLoss.modPw.bufferLost.endTape.restartReset.modMag.goOn)))

end OfRestart

/-! ### ParamWrite -/

section OfParamWrite
variable {P : Nat → Prop} {s t : State}

theorem State.Keeps.writeElem (h : s.Keeps P t) {d : PDesc} {i e : Nat} : s.Keeps P (t.writeElem d i e) := by
  unfold State.writeElem
  extract_lets p t2
  have ht2 : s.Keeps P t2 := h.noteWrite
  exact .ite (.ite ht2.requestRearm ht2) (.ite (.ite ht2.traceArm ht2.traceHit) (.ite ht2.rangeOwn (.ite ht2.wayEnable (.ite ht2.cacheEnable (.ite
    (.ite ht2.fifoRestarted ht2) (.ite ht2.fifoClear (.ite (.ite ht2.testStart ht2) (.ite ht2.impAct h.storeElem))))))))

theorem State.Keeps.paramWrite (h : s.Keeps P t) {q pid first : Nat} {vals : List Nat} : s.Keeps P (t.paramWrite q pid first vals) := by
  unfold State.paramWrite
  split
  · exact h.complete
  · split
    · exact h.complete
    · exact .ite h.complete ((h.foldl (fun _ h _ => h.writeElem)).done)

theorem State.Keeps.execParameterWrite (h : s.Keeps P t) {h' : Hdr} {d10 first count : Nat} {data : Bytes} : s.KeepsOut P (execParameterWrite h'
    d10 first count data t) :=
  .next ((h.adminCmd (fun _ _ h => h.paramWrite)).goOn)

end OfParamWrite

/-! ### Tick -/

section OfTick
variable {P : Nat → Prop} {s t : State}

theorem State.Keeps.tickClock (h : s.Keeps P t) : s.Keeps P t.tickClock := h.modPw.modMag

theorem State.Keeps.tickCount (h : s.Keeps P t) : s.Keeps P t.tickCount := .ite (.ite h.modMag.modNv.modEv h.modMag.modNv) h

theorem State.Keeps.tickLockout (h : s.Keeps P t) : s.Keeps P t.tickLockout := .ite h.lockoutEnd h.modKeys

theorem State.Keeps.tick (h : s.Keeps P t) : s.Keeps P t.tick := h.tickClock.tickCount.tickLockout.brakeLook

end OfTick

end Sys2Proof.Machine
end

section
/-!
# The commands keep the queue, the fuses and the canonical forms: settled

The operations' lemmas put together, one arm for each command, and what follows for a step.
-/
namespace Sys2Proof.Machine

set_option Elab.async false

section OfExec
variable {P : Nat → Prop} {s t : State}

/-- Every command keeps; of one that may be BOOT_SEQUENCE `P` has to allow legal fuses to be blown. -/
theorem State.Keeps.exec (h : s.Keeps P t) (i : Instr) (hi : (∀ env, i ≠ .bootSequence env) ∨ ∀ n k, k ≤ 32 → P n → P (max n k)) :
    s.KeepsOut P (exec i t) :=
  match i with
  | .createIoSubmissionQueue .. => h.execCreateIoSubmissionQueue
  | .createIoCompletionQueue .. => h.execCreateIoCompletionQueue
  | .deleteIoSubmissionQueue .. => h.execDeleteIoSubmissionQueue
  | .deleteIoCompletionQueue .. => h.execDeleteIoCompletionQueue
  | .getLogPage .. => h.execGetLogPage
  | .identify .. => h.execIdentify
  | .abort _ a b => h.execAbort (sqid := a) (cid := b)
  | .setFeatures .. => h.execSetFeatures
  | .setVolatileWriteCache .. => h.execSetVolatileWriteCache
  | .setHostMemoryBuffer .. => h.execSetHostMemoryBuffer
  | .setTimestamp .. => h.execSetTimestamp
  | .setSpeedPolicy .. => h.execSetSpeedPolicy
  | .setAcknowledgeCreditPolicy .. => h.execSetAcknowledgeCreditPolicy
  | .setCompressionPolicy .. => h.execSetCompressionPolicy
  | .setOperatingContext .. => h.execSetOperatingContext
  | .setRewritePolicy .. => h.execSetRewritePolicy
  | .setComputePolicy .. => h.execSetComputePolicy
  | .getFeatures .. => h.execGetFeatures
  | .asynchronousEventRequest .. => h.execAsynchronousEventRequest
  | .firmwareImageDownload .. => h.execFirmwareImageDownload
  | .firmwareCommitStore .. => h.execFirmwareCommitStore
  | .firmwareCommitStoreAndMark .. => h.execFirmwareCommitStoreAndMark
  | .firmwareCommitMark .. => h.execFirmwareCommitMark
  | .firmwareCommitActivate .. => h.execFirmwareCommitActivate
  | .formatNvm .. => h.execFormatNvm
  | .formatSecureEraseTake .. => h.execFormatSecureEraseTake
  | .parameterRead .. => h.execParameterRead
  | .parameterWrite .. => h.execParameterWrite
  | .parameterCommit .. => h.execParameterCommit
  | .parameterDiscard .. => h.execParameterDiscard
  | .keyDepositClaim .. => h.execKeyDepositClaim
  | .keyDepositReplaceOwnerKey .. => h.execKeyDepositReplaceOwnerKey
  | .keyDepositEscrowKey .. => h.execKeyDepositEscrowKey
  | .keyDepositRemoveEscrowKey _ b => h.execKeyDepositRemoveEscrowKey (data := b)
  | .keyDepositEraseTake .. => h.execKeyDepositEraseTake
  | .keyDepositRecoverAndAdopt .. => h.execKeyDepositRecoverAndAdopt
  | .ownerChallenge .. => h.execOwnerChallenge
  | .ownerChallengeQuery .. => h.execOwnerChallengeQuery
  | .ownerResponse .. => h.execOwnerResponse
  | .kernelLoad .. => h.execKernelLoad
  | .kernelLoadRom .. => h.execKernelLoadRom
  | .kernelUnload .. => h.execKernelUnload
  | .traceRead .. => h.execTraceRead
  | .transportTensionOn .. => h.execTransportTensionOn
  | .transportTensionOff .. => h.execTransportTensionOff
  | .transportPark .. => h.execTransportPark
  | .transportLocate .. => h.execTransportLocate
  | .transportShuttle .. => h.execTransportShuttle
  | .transportCalibrate .. => h.execTransportCalibrate
  | .transportEjectPrepare .. => h.execTransportEjectPrepare
  | .transportServiceUnload .. => h.execTransportServiceUnload
  | .transportServiceLoad .. => h.execTransportServiceLoad
  | .transportResumeWriting .. => h.execTransportResumeWriting
  | .unsupportedCommand _ _ a b => h.execUnsupportedCommand (n := a) (d10 := b)
  | .flush .. => h.execFlush
  | .write .. => h.execWrite
  | .zoneAppend .. => h.execZoneAppend
  | .read .. => h.execRead
  | .writeZeroes .. => h.execWriteZeroes
  | .datasetManagement .. => h.execDatasetManagement
  | .zoneOpen .. => h.execZoneOpen
  | .zoneClose .. => h.execZoneClose
  | .zoneFinish .. => h.execZoneFinish
  | .zoneReset .. => h.execZoneReset
  | .zoneResetAll .. => h.execZoneResetAll
  | .zoneOffline _ _ a => h.execZoneOffline (slba := a)
  | .zoneManagementReceive .. => h.execZoneManagementReceive
  | .kernelInvoke .. => h.execKernelInvoke
  | .spoolCommit .. => h.execSpoolCommit
  | .takeMark .. => h.execTakeMark
  | .ccEnSet .. => h.execCcEnSet
  | .ccEnClear => h.execCcEnClear
  | .shutdownNormal => h.execShutdownNormal
  | .shutdownAbrupt => h.execShutdownAbrupt
  | .sqTailDoorbell .. => h.execSqTailDoorbell
  | .cqHeadDoorbell .. => h.execCqHeadDoorbell
  | .perstNAssert => h.execPerstNAssert
  | .functionLevelReset => h.execFunctionLevelReset
  | .linkTrained .. => h.execLinkTrained
  | .linkDown .. => h.execLinkDown
  | .commandFetch => h.execCommandFetch
  | .writeDataTransfer .. => h.execWriteDataTransfer
  | .writeCreditGrant => h.execWriteCreditGrant
  | .creditWaitTimeout => h.execCreditWaitTimeout
  | .recordIdleTimeout .. => h.execRecordIdleTimeout
  | .compressionBlockCode .. => h.execCompressionBlockCode
  | .overflowBufferFreed .. => h.execOverflowBufferFreed
  | .xtsSectorEncrypt => h.execXtsSectorEncrypt
  | .dsAssembled => h.execDsAssembled
  | .ivCeilingRefresh => h.execIvCeilingRefresh
  | .ivCeilingWriteDone .. => h.execIvCeilingWriteDone
  | .speedRequestUpdate => h.execSpeedRequestUpdate
  | .fsyncEdge .. => h.execFsyncEdge
  | .fsyncTimeout => h.execFsyncTimeout
  | .dsPositionBoundary .. => h.execDsPositionBoundary
  | .verifyResult => h.execVerifyResult
  | .groupSpoolCommit => h.execGroupSpoolCommit
  | .crawlLimitExpiry => h.execCrawlLimitExpiry
  | .tensionedIdleTimeout => h.execTensionedIdleTimeout
  | .playbackIdleTimeout => h.execPlaybackIdleTimeout
  | .wrapTurnaround => h.execWrapTurnaround
  | .tapeTailScan .. => h.execTapeTailScan
  | .fifoWrite .. => h.execFifoWrite
  | .fifoRead .. => h.execFifoRead
  | .fifoAdvance => h.execFifoAdvance
  | .fifoRewindMark => h.execFifoRewindMark
  | .fifoRelease .. => h.execFifoRelease
  | .fifoRewindRelease => h.execFifoRewindRelease
  | .fifoPointerMismatch .. => h.execFifoPointerMismatch
  | .fifoExtendedBodyError .. => h.execFifoExtendedBodyError
  | .sfqRestart .. => h.execSfqRestart
  | .sfqStickyClear .. => h.execSfqStickyClear
  | .engineGroupWake .. => h.execEngineGroupWake
  | .dsSeparatorDetected .. => h.execDsSeparatorDetected
  | .syncWindowClose .. => h.execSyncWindowClose
  | .rowFramed .. => h.execRowFramed
  | .lockLost .. => h.execLockLost
  | .dropoutSpan .. => h.execDropoutSpan
  | .servoFrame .. => h.execServoFrame
  | .tapePositionWord .. => h.execTapePositionWord
  | .speedMeasurement .. => h.execSpeedMeasurement
  | .servoFrameTimeout .. => h.execServoFrameTimeout
  | .rowDecode .. => h.execRowDecode
  | .captureComplete => h.execCaptureComplete
  | .recordDecompressStart => h.execRecordDecompressStart
  | .recordCrcCheck => h.execRecordCrcCheck
  | .rereadPassStart .. => h.execRereadPassStart
  | .retryTimeExpiry .. => h.execRetryTimeExpiry
  | .slotSampleInstant .. => h.execSlotSampleInstant
  | .limiterUpdate => h.execLimiterUpdate
  | .dwellEnd => h.execDwellEnd
  | .supervisorFeedbackPeriod .. => h.execSupervisorFeedbackPeriod
  | .faultLineAsserted .. => h.execFaultLineAsserted
  | .substitutionEnd .. => h.execSubstitutionEnd
  | .stopComplete => h.execStopComplete
  | .ctlRearm .. => h.execCtlRearm
  | .trapezeAutoRearm => h.execTrapezeAutoRearm
  | .encoderEdge .. => h.execEncoderEdge
  | .shuttleCodeSample .. => h.execShuttleCodeSample
  | .linkSampleFrame .. => h.execLinkSampleFrame
  | .linkStatusFrame .. => h.execLinkStatusFrame
  | .traceSample => h.execTraceSample
  | .traceFreeze => h.execTraceFreeze
  | .ctlTrcArm .. => h.execCtlTrcArm
  | .ctlTrcSoftwareTrigger .. => h.execCtlTrcSoftwareTrigger
  | .preampTransaction .. => h.execPreampTransaction
  | .preampFault .. => h.execPreampFault
  | .tensionUp .. => h.execTensionUp
  | .radiusProbeDone .. => h.execRadiusProbeDone
  | .tensionSettled => h.execTensionSettled
  | .tensionTimeout => h.execTensionTimeout
  | .positionValid .. => h.execPositionValid
  | .findPositionFailed .. => h.execFindPositionFailed
  | .locateArrival => h.execLocateArrival
  | .locateTimeout => h.execLocateTimeout
  | .emergencyStop .. => h.execEmergencyStop
  | .emergencyBrakeApply => h.execEmergencyBrakeApply
  | .lidSwChange .. => h.execLidSwChange
  | .kdsqtDoorbell .. => h.execKdsqtDoorbell
  | .kdcqhWrite .. => h.execKdcqhWrite
  | .klockRequest .. => h.execKlockRequest
  | .klockRelease .. => h.execKlockRelease
  | .invocationStart => h.execInvocationStart
  | .ecallExit .. => h.execEcallExit
  | .wfiWait .. => h.execWfiWait
  | .dmaDescriptorComplete .. => h.execDmaDescriptorComplete
  | .windowViolation .. => h.execWindowViolation
  | .kernelTrap .. => h.execKernelTrap
  | .invocationTimeLimit .. => h.execInvocationTimeLimit
  | .coreIdlePowerDown .. => h.execCoreIdlePowerDown
  | .cacheAccess .. => h.execCacheAccess
  | .cacheMissFillComplete .. => h.execCacheMissFillComplete
  | .ccaRangeClean .. => h.execCcaRangeClean
  | .ccaRangeCleanInvalidate .. => h.execCcaRangeCleanInvalidate
  | .rangeOperationComplete => h.execRangeOperationComplete
  | .ccaWayEnWrite .. => h.execCcaWayEnWrite
  | .ccaEnableWrite .. => h.execCcaEnableWrite
  | .cacheCleanComplete => h.execCacheCleanComplete
  | .wayWakeComplete => h.execWayWakeComplete
  | .hardwareWayDisable .. => h.execHardwareWayDisable
  | .servicePoolRequest .. => h.execServicePoolRequest
  | .servicePoolUrgentRequest .. => h.execServicePoolUrgentRequest
  | .servicePoolMessageDone => h.execServicePoolMessageDone
  | .cphLockTimeout => h.execCphLockTimeout
  | .keySlotLoad .. => h.execKeySlotLoad
  | .challengeExpiry => h.execChallengeExpiry
  | .lockoutExpiry => h.execLockoutExpiry
  | .sessionIdleTimeout => h.execSessionIdleTimeout
  | .trngHealthFailure .. => h.execTrngHealthFailure
  | .trngRetest .. => h.execTrngRetest
  | .pageProgramStatus .. => h.execPageProgramStatus
  | .dieOperationTimeout .. => h.execDieOperationTimeout
  | .pageRead .. => h.execPageRead
  | .journalRecordPersisted => h.execJournalRecordPersisted
  | .checkpointWrite => h.execCheckpointWrite
  | .programSequenceCeiling .. => h.execProgramSequenceCeiling
  | .gcRun => h.execGcRun
  | .fold .. => h.execFold
  | .scrub => h.execScrub
  | .ageClockStep => h.execAgeClockStep
  | .hmbMapLoadDone => h.execHmbMapLoadDone
  | .linePresent .. => h.execLinePresent
  | .lineLoss => h.execLineLoss
  | .lineOvervoltage => h.execLineOvervoltage
  | .powerUpStep .. => h.execPowerUpStep
  | .pgoodTimeout .. => h.execPgoodTimeout
  | .powerUpRetry => h.execPowerUpRetry
  | .referenceSettled => h.execReferenceSettled
  | .bootSequence env => h.execBootSequence (hi.resolve_left fun hne => absurd rfl (hne env))
  | .pgoodLost .. => h.execPgoodLost
  | .bankTestStart .. => h.execBankTestStart
  | .pwrTestNow .. => h.execPwrTestNow
  | .bankTestCharged .. => h.execBankTestCharged
  | .bankTestChargeTimeout => h.execBankTestChargeTimeout
  | .bankTestV1Sample .. => h.execBankTestV1Sample
  | .bankTestEnd .. => h.execBankTestEnd
  | .creditRecompute .. => h.execCreditRecompute
  | .drainComplete => h.execDrainComplete
  | .bankBelowMinimum => h.execBankBelowMinimum
  | .bankBelowIslandMinimum => h.execBankBelowIslandMinimum
  | .crystalStable => h.execCrystalStable
  | .temperatureSample .. => h.execTemperatureSample
  | .shockInterrupt .. => h.execShockInterrupt
  | .compositeTemperatureSample .. => h.execCompositeTemperatureSample
  | .thermalTrip => h.execThermalTrip
  | .bootImportCheck .. => h.execBootImportCheck
  | .bootImportSeal .. => h.execBootImportSeal
  | .bootImportRestart .. => h.execBootImportRestart
  | .bootImportAcceptLoss .. => h.execBootImportAcceptLoss
  | .norProgramComplete .. => h.execNorProgramComplete
  | .lockstepMismatch => h.execLockstepMismatch
  | .bufferUncorrectableError .. => h.execBufferUncorrectableError
  | .eventRecord .. => h.execEventRecord
  | .eventRateSecondEnd => h.execEventRateSecondEnd
  | .eventJournalPersist => h.execEventJournalPersist
  | .percentageUsedCompute => h.execPercentageUsedCompute
  | .healthRecordWrite => h.execHealthRecordWrite
  | .aonPorstNRise => h.execAonPorstNRise
  | .hmcFltRelease .. => h.execHmcFltRelease
  | .linkPowerStateChange .. => h.execLinkPowerStateChange
  | .uncorrectableAerError => h.execUncorrectableAerError

/-- A step keeps all but the queue, of which it takes the front command. -/
theorem State.keeps_step (hs : P s.nor.fuses) (hP : ∀ n k, k ≤ 32 → P n → P (max n k)) (hstep : step s = .next t) :
    ∃ cs, State.Keeps P { s with pending := cs } t := by
  unfold step at hstep
  split at hstep
  · next hq =>
    cases hstep
    exact ⟨s.pending, (State.Keeps.refl hs).tick⟩
  · next c cs hq => exact ⟨cs, State.Keeps.exec (t := { s with pending := cs }) (.refl hs) c (.inr hP) t hstep⟩

end OfExec

/-- Settles O4. -/
theorem commandsLeaveTheQueue : Obligations.CommandsLeaveTheQueue := by
  unfold Obligations.CommandsLeaveTheQueue
  intro i s t ht
  exact ((State.Keeps.refl (P := fun _ => True) trivial).exec i (.inr fun _ _ _ h => h) t ht).queue

/-- Settles O5: with `P` the old number of fuses. -/
theorem fusesBlownOnlyAtBoot : Obligations.FusesBlownOnlyAtBoot := by
  unfold Obligations.FusesBlownOnlyAtBoot
  intro i s t hi ht
  exact ((State.Keeps.refl (P := (· = s.nor.fuses)) rfl).exec i (.inl hi) t ht).fuses

/-- Settles O6: a package applied takes the larger of the fuses blown and its level. -/
theorem fusesNeverFall : Obligations.FusesNeverFall := by
  unfold Obligations.FusesNeverFall
  intro s t ht
  obtain ⟨_, h⟩ := State.keeps_step (P := (s.nor.fuses ≤ ·)) (Nat.le_refl _) (fun n k _ hn => Nat.le_trans hn (Nat.le_max_left n k)) ht
  exact h.fuses

/-- Settles O7: a package that may be applied has a level of at most 32. -/
theorem fusesStayLegal : Obligations.FusesStayLegal := by
  unfold Obligations.FusesStayLegal
  intro s t hs ht
  obtain ⟨_, h⟩ := State.keeps_step (P := (· ≤ 32)) hs (fun n k hk hn => Nat.max_le.mpr ⟨hn, hk⟩) ht
  exact h.fuses

/-- Settles O59. -/
theorem canonicalFormsAreKept : Obligations.CanonicalFormsAreKept := by
  unfold Obligations.CanonicalFormsAreKept
  intro s t ⟨hp, hb⟩ ht
  obtain ⟨_, h⟩ := State.keeps_step (P := fun _ => True) trivial (fun _ _ _ h => h) ht
  exact ⟨h.params hp, h.buffer hb⟩

end Sys2Proof.Machine
end

section
/-!
# A command that breaks the order of FIFO pointers

A row decode takes every packet of the row FIFO of its lane's group, 36 behind the group's number, and does not ask whether the lane exists. For lane 960
that is FIFO 66, whose words go while P stands.
-/
namespace Sys2Proof.Machine

set_option Elab.async false

/-- A state whose FIFO 66 holds one word, which has been read, before the decoding of a row of lane 960. -/
def oneRead : State := { State.reset with pending := [.rowDecode 960 0] }.modFifo 66 (fun f => { f with words := [⟨7, true, 0⟩], p := 1 })

theorem oneRead_ordered : oneRead.FifosOrdered := by
  unfold State.FifosOrdered
  decide

/-- No row of lane 960 has come, so that its decoding ends with the intake. -/
theorem step_rowDecode_oneRead : step oneRead = .next ({ oneRead with pending := [] }.intake 30) := rfl

/-- The intake takes the word of FIFO 66 away and leaves P behind it. -/
theorem oneRead_intake_fifo : ∃ f : Fifo, (66, f) ∈ ({ oneRead with pending := [] }.intake 30).fifos ∧ f.words = [] ∧ f.p = 1 :=
  ⟨({ oneRead with pending := [] }.intake 30).fifo 66, by decide +kernel, by decide +kernel, by decide +kernel⟩

/-- Refutes O58: decoding a row of lane 960 takes a word of FIFO 66 that has been read, and leaves P at 1 of no words. -/
theorem not_fifoPointersStayInOrder : ¬ Obligations.FifoPointersStayInOrder := by
  unfold Obligations.FifoPointersStayInOrder
  intro h
  obtain ⟨f, hf, hwords, hp⟩ := oneRead_intake_fifo
  obtain ⟨-, hle, -⟩ := h _ _ oneRead_ordered step_rowDecode_oneRead (66, f) hf
  simp [hwords, hp] at hle

end Sys2Proof.Machine
end

section
/-!
# The step, the state after reset, and a word through a FIFO

A step and the state after reset by their definitions; a word written into an empty FIFO by the two clocks of that FIFO that write and read it.
-/
namespace Sys2Proof.Machine

set_option Elab.async false

/-- Settles O1. -/
theorem stepTakesFront : Obligations.StepTakesFront := by
  unfold Obligations.StepTakesFront
  intro c cs s h
  simp only [step, h]

/-! ### Every command answers a next state -/

theorem exists_next_ite {c : Prop} [Decidable c] {o p : Out} (ho : ∃ t, o = .next t) (hp : ∃ t, p = .next t) :
    ∃ t, (if c then o else p) = .next t := by
  split <;> assumption

theorem execWriteDataTransfer_next (sq cid : Nat) (data : Option Bytes) (s : State) : ∃ t, execWriteDataTransfer sq cid data s = .next t := by
  unfold execWriteDataTransfer
  split
  · split
    · refine exists_next_ite ?_ ⟨_, rfl⟩
      split
      · exact ⟨_, rfl⟩
      · exact ⟨_, rfl⟩
    · exact ⟨_, rfl⟩
  · exact ⟨_, rfl⟩

theorem execServicePoolMessageDone_next (s : State) : ∃ t, execServicePoolMessageDone s = .next t := by
  unfold execServicePoolMessageDone
  split
  · exact ⟨_, rfl⟩
  · dsimp only
    refine exists_next_ite ⟨_, rfl⟩ ?_
    split
    · exact exists_next_ite ⟨_, rfl⟩ ⟨_, rfl⟩
    · exact ⟨_, rfl⟩

theorem execNorProgramComplete_next (area copy : Nat) (ok : Bool) (s : State) : ∃ t, execNorProgramComplete area copy ok s = .next t := by
  unfold execNorProgramComplete
  split
  · exact ⟨_, rfl⟩
  · refine exists_next_ite ⟨_, rfl⟩ (exists_next_ite ⟨_, rfl⟩ ?_)
    split
    · exact ⟨_, rfl⟩
    · exact ⟨_, rfl⟩

/-- Settles O3: but for three commands `exec` is a next state whatever the state is; those look at the state first. -/
theorem noCommandStops : Obligations.NoCommandStops := by
  unfold Obligations.NoCommandStops
  intro i s
  cases i
  case writeDataTransfer sq cid data => exact execWriteDataTransfer_next sq cid data s
  case servicePoolMessageDone => exact execServicePoolMessageDone_next s
  case norProgramComplete area copy ok => exact execNorProgramComplete_next area copy ok s
  all_goals exact ⟨_, rfl⟩

/-! ### One tick -/

/-- Settles O8: the maps of the state after reset are empty or made in order. -/
theorem resetMeetsInvariants : Obligations.ResetMeetsInvariants := by
  unfold Obligations.ResetMeetsInvariants State.FusesLegal State.ParamsRising State.BufferCanonical State.FifosOrdered State.StagedInSession
  decide

/-- Settles O9. -/
theorem resetLeavesControllerInResetState : Obligations.ResetLeavesControllerInResetState := by
  unfold Obligations.ResetLeavesControllerInResetState
  decide

theorem State.step_empty {s : State} (h : s.pending = []) : step s = .next s.tick := by simp only [step, h]

/-- `t` differs from `s` in nothing that an idle step has to leave alone, and in no clock. -/
structure State.SameStores (s t : State) : Prop where
  pending : t.pending = s.pending
  sp : t.sp = s.sp
  car : t.car = s.car
  cache : t.cache = s.cache
  comp : t.comp = s.comp
  rtc : t.pw.rtc = s.pw.rtc

theorem State.SameStores.trans {s t u : State} (h : s.SameStores t) (g : t.SameStores u) : s.SameStores u :=
  ⟨g.pending.trans h.pending, g.sp.trans h.sp, g.car.trans h.car, g.cache.trans h.cache, g.comp.trans h.comp, g.rtc.trans h.rtc⟩

theorem State.sameStores_tickCount (s : State) : s.SameStores s.tickCount ∧ s.tickCount.fifos = s.fifos ∧ s.tickCount.keys = s.keys := by
  unfold State.tickCount
  split
  · dsimp only
    split
    · exact ⟨⟨rfl, rfl, rfl, rfl, rfl, rfl⟩, rfl, rfl⟩
    · exact ⟨⟨rfl, rfl, rfl, rfl, rfl, rfl⟩, rfl, rfl⟩
  · exact ⟨⟨rfl, rfl, rfl, rfl, rfl, rfl⟩, rfl, rfl⟩

/-- A write of the key record that nothing waits for changes NOR, and where NOR is dead the events. -/
theorem State.SameStores.keyWrite_plain {s t : State} (h : s.SameStores t) : s.SameStores (t.keyWrite .plain) := by
  refine h.trans ?_
  unfold State.keyWrite
  split
  · constructor <;> simp [State.norDone]
  · constructor <;> simp

theorem State.sameStores_tickLockout (s : State) : s.SameStores s.tickLockout := by
  unfold State.tickLockout State.lockoutEnd
  split
  · dsimp only
    split
    · exact State.SameStores.keyWrite_plain ⟨rfl, rfl, rfl, rfl, rfl, rfl⟩
    · exact ⟨rfl, rfl, rfl, rfl, rfl, rfl⟩
  · exact ⟨rfl, rfl, rfl, rfl, rfl, rfl⟩

theorem State.tickLockout_fifos {s : State} (h : s.keys.lockout ≠ 1) : s.tickLockout.fifos = s.fifos := by
  unfold State.tickLockout
  rw [if_neg h]
  rfl

theorem State.sameStores_brakeLook (s : State) : s.SameStores s.brakeLook ∧ s.brakeLook.fifos = s.fifos := by
  unfold State.brakeLook
  split
  · exact ⟨⟨rfl, rfl, rfl, rfl, rfl, rfl⟩, rfl⟩
  · exact ⟨⟨rfl, rfl, rfl, rfl, rfl, rfl⟩, rfl⟩

/-- Settles O2: only Chervil's clock moves before the counters; the end of a lockout writes the key record. -/
theorem idleStepIsATick : Obligations.IdleStepIsATick := by
  unfold Obligations.IdleStepIsATick
  intro s hpend
  obtain ⟨hcount, hcountFifos, hcountKeys⟩ := s.tickClock.sameStores_tickCount
  obtain ⟨hbrake, hbrakeFifos⟩ := s.tickClock.tickCount.tickLockout.sameStores_brakeLook
  have hall : s.tickClock.SameStores s.tick := (hcount.trans (State.sameStores_tickLockout _)).trans hbrake
  have hrtc : s.tickClock.pw.rtc = if s.pw.aon then s.pw.rtc + 1 else s.pw.rtc := apply_ite Power.rtc _ _ _
  refine ⟨_, State.step_empty hpend, hall.rtc.trans hrtc, hall.pending.trans hpend, hall.sp, hall.car, hall.cache, hall.comp, fun hlock => ?_⟩
  have hlock' : s.tickClock.tickCount.keys.lockout ≠ 1 := by rwa [hcountKeys]
  exact hbrakeFifos.trans ((State.tickLockout_fifos hlock').trans hcountFifos)

/-! ### A word through a FIFO -/

theorem State.modFifo_const {s : State} {n : Nat} {f : Fifo → Fifo} {g : Fifo} (h : g = f (s.fifo n)) :
    s.modFifo n (fun _ => g) = s.modFifo n f := by
  subst h
  rfl

/-- A write to a FIFO that takes it stores the word (R102). -/
theorem State.fifoWrite_stores {s : State} {n : Nat} (w : FWord) (hn : n < 96) (hh : (s.fifo n).held = []) (hd : (s.fifo n).dropping = false)
    (hhalt : (s.fifo n).halted = false) (hfull : fifoFull n (s.fifoDepth n) (s.fifo n) = false) :
    s.fifoWrite n w = s.modFifo n (fun f => { f.store (s.pni pSFQ_CT_THRESH n) w with held := [] }) := by
  refine (State.fifoAct_quiet s _ hn ?_).trans (State.modFifo_const rfl)
  simp [fifoClock, Fifo.clockReset, Fifo.clockRead, fifoPut_stores n _ _ w hh hd hhalt hfull]

/-- A read of a readable FIFO whose producer holds nothing delivers the head word (R104). -/
theorem State.fifoRead_readable {s : State} {n : Nat} {w : FWord} {ws : List FWord} (hn : n < 96) (hh : (s.fifo n).held = [])
    (hhalt : (s.fifo n).halted = false) (hr : fifoReadable n (s.fifo n) = true) (hw : (s.fifo n).words.drop (s.fifo n).p = w :: ws) :
    s.fifoRead n = s.modFifo n (fun f => fifoGet n (s.pni pSFQ_CT_THRESH n) f) := by
  refine (State.fifoAct_quiet s _ hn ?_).trans (State.modFifo_const rfl)
  have hheld : (fifoGet n (s.pni pSFQ_CT_THRESH n) (s.fifo n)).held = [] := by
    rw [fifoGet_readable n _ hhalt hr hw]
    split <;> exact hh
  simp [fifoClock, Fifo.clockReset, Fifo.clockRead, fifoPut_nothing, hheld]

theorem exec_fifoWrite (n payload : Nat) (last : Bool) (count : Nat) (s : State) :
    exec (.fifoWrite n payload last count) s = .next (s.fifoWrite n (fifoWord n payload last count)) := rfl

/-- Settles O30: the end-marked word makes the FIFO readable, and it is the head word. -/
theorem fifoWriteThenRead : Obligations.FifoWriteThenRead := by
  unfold Obligations.FifoWriteThenRead
  intro s n payload count hn h66 hwords hp hread hhalt hdrop hheld hfull
  have hn : n < 96 := of_decide_eq_true hn
  have hwrite := State.fifoWrite_stores (fifoWord n payload true count) hn hheld hdrop hhalt hfull
  obtain ⟨f, hf⟩ : ∃ f, f = { (s.fifo n).store (s.pni pSFQ_CT_THRESH n) (fifoWord n payload true count) with held := [] } := ⟨_, rfl⟩
  have hfwords : f.words = [fifoWord n payload true count] := by simp [hf, Fifo.store, hwords]
  have hfp : f.p = 0 := by simp [hf, Fifo.store, hp]
  have hfhalt : f.halted = false := by simp [hf, Fifo.store, hhalt]
  have hlast : (fifoWord n payload true count).last = true := rfl
  have hfread : fifoReadable n f = true := by simp [fifoReadable, Fifo.packets, hfwords, hfp, hlast]
  have hfheld : f.held = [] := by simp [hf]
  obtain ⟨t, ht⟩ : ∃ t, t = s.modFifo n (fun _ => f) := ⟨_, rfl⟩
  have htf : t.fifo n = f := by rw [ht, State.modFifo_fifo_same]
  have hread := State.fifoRead_readable (s := t) (ws := []) hn (by rw [htf, hfheld]) (by rw [htf, hfhalt]) (by rw [htf, hfread])
    (by rw [htf, hfp, hfwords]; rfl)
  have hget := fifoGet_readable n (t.pni pSFQ_CT_THRESH n) (w := fifoWord n payload true count) (ws := []) hfhalt hfread
    (by rw [hfp, hfwords]; rfl)
  rw [if_neg h66] at hget
  refine ⟨t, t.fifoRead n, ?_, exec_fifoRead n t, ?_, ?_, ?_, fun m hm => ?_, ?_⟩
  · rw [exec_fifoWrite, hwrite, ht, hf]
    rfl
  · rw [htf, hfwords]
  · rw [hread, State.modFifo_fifo_same, htf, hget]
    simp [hfwords]
  · rw [hread, State.modFifo_fifo_same, htf, hget]
  · rw [hread, State.modFifo_fifo_other _ _ hm, ht, State.modFifo_fifo_other _ _ hm]
  · rw [hread, ht]
    rfl

end Sys2Proof.Machine
end

section
/-!
# Queues, registers and the link (O10 to O14)

One lemma for each command and each case of it that a statement speaks of: the definition of the command with its checks decided by the hypotheses.
-/
namespace Sys2Proof.Machine

set_option Elab.async false

section Queues
variable {s t : State} {h : Hdr} {q : Nat} (k : s.AdminRuns h q t)
include k

theorem exec_createIoCompletionQueue_free {qid size vector : Nat} {ien : Bool} (hlo : 1 ≤ qid) (hhi : qid ≤ 1024)
    (hfree : NMap.find? t.nv.cqs qid = none) (h1 : 1 ≤ size) (h2 : size ≤ 4095) (hv : vector ≤ 2047)
    (hien : ien = true → t.pn pEVT_MSIX_VEC ≠ 0 → vector ≠ t.pn pEVT_MSIX_VEC) :
    exec (.createIoCompletionQueue h qid size vector ien true) s = .next (((t.modNv (fun n =>
      { n with cqs := NMap.put n.cqs qid { size := size + 1, head := 0, tail := 0, vector, ien, entries := [] } })).done q stOk).goOn) := by
  show execCreateIoCompletionQueue h qid size vector ien true s = _
  have hvec : ¬ ((2047 < vector || (ien && t.pn pEVT_MSIX_VEC != 0 && vector = t.pn pEVT_MSIX_VEC)) = true) := by
    simpa [Nat.not_lt.mpr hv] using hien
  unfold execCreateIoCompletionQueue
  rw [State.adminCmd_runs _ _ k, if_neg (by simp [hfree]; omega), if_neg (by simp; omega), if_neg (by simp), if_neg hvec]

theorem exec_createIoSubmissionQueue_free {qid size prio cqid : Nat} (hlo : 1 ≤ qid) (hhi : qid ≤ 1024)
    (hfree : NMap.find? t.nv.sqs qid = none) (hc : cqid ≠ 0) (hcq : (NMap.find? t.nv.cqs cqid).isSome = true) (h1 : 1 ≤ size) (h2 : size ≤ 4095) :
    exec (.createIoSubmissionQueue h qid size prio cqid true) s = .next (((t.modNv (fun n =>
      { n with sqs := NMap.put n.sqs qid { size := size + 1, cq := cqid, cls := prio, head := 0, tail := 0, frozen := false } })).done q stOk).goOn) := by
  show execCreateIoSubmissionQueue h qid size prio cqid true s = _
  unfold execCreateIoSubmissionQueue
  rw [State.adminCmd_runs _ _ k, if_neg (by simp [hfree, hc, Option.isSome_iff_ne_none.mp hcq]; omega), if_neg (by simp; omega), if_neg (by simp)]

theorem exec_deleteIoCompletionQueue_unused {qid : Nat} (h0 : qid ≠ 0) (hq : (NMap.find? t.nv.cqs qid).isSome = true)
    (hu : t.nv.sqs.any (fun e => e.2.cq = qid) = false) :
    exec (.deleteIoCompletionQueue h qid) s = .next (((t.modNv (fun n => { n with cqs := NMap.del n.cqs qid })).done q stOk).goOn) := by
  show execDeleteIoCompletionQueue h qid s = _
  unfold execDeleteIoCompletionQueue
  rw [State.adminCmd_runs _ _ k, if_neg (by simp [h0, Option.isSome_iff_ne_none.mp hq]), if_neg (by simp [hu])]

theorem exec_deleteIoSubmissionQueue_present {qid : Nat} (h0 : qid ≠ 0) (hq : (NMap.find? t.nv.sqs qid).isSome = true) :
    exec (.deleteIoSubmissionQueue h qid) s = .next ((((t.dropSq qid).dropUnwanted).modNv (fun n => n.setWait q (.deleteSq qid))).goOn) := by
  show execDeleteIoSubmissionQueue h qid s = _
  unfold execDeleteIoSubmissionQueue
  rw [State.adminCmd_runs _ _ k, if_neg (by simp [h0, Option.isSome_iff_ne_none.mp hq])]

theorem exec_abort_posted (sqid cid : Nat) (hl : t.nv.held.countP Held.isAborting < 4) :
    exec (.abort h sqid cid) s = .next (((t.complete q stOk 1 0 []).modNv (fun n => { n with held := n.held.map (Held.toAborting q) })).goOn) := by
  show execAbort h sqid cid s = _
  unfold execAbort
  rw [State.adminCmd_runs _ _ k, if_neg (Nat.not_le.mpr hl)]

theorem exec_asynchronousEventRequest_waiting {ty info log : Nat} {rest : List (Nat × Nat × Nat)} (hw : t.nv.asyncQ = (ty, info, log) :: rest) :
    exec (.asynchronousEventRequest h) s = .next (((t.modNv (fun n =>
      { n with asyncQ := rest, masked := (256 * ty + info) :: n.masked })).complete q stOk (ty + 256 * info + 65536 * log) 0 []).goOn) := by
  show execAsynchronousEventRequest h s = _
  unfold execAsynchronousEventRequest
  rw [State.adminCmd_runs _ _ k]
  simp only [hw]

theorem exec_asynchronousEventRequest_held (hw : t.nv.asyncQ = []) (hl : t.nv.held.countP (fun x => x.wait = .aer) < 16) :
    exec (.asynchronousEventRequest h) s = .next ((t.modNv (fun n => n.setWait q .aer)).goOn) := by
  show execAsynchronousEventRequest h s = _
  unfold execAsynchronousEventRequest
  rw [State.adminCmd_runs _ _ k]
  simp only [hw, if_neg (Nat.not_le.mpr hl)]

end Queues

/-- Settles O10. -/
theorem queueCommandsComplete : Obligations.QueueCommandsComplete := by
  unfold Obligations.QueueCommandsComplete
  intro s t h q k
  exact ⟨fun _ _ _ _ => exec_createIoCompletionQueue_free k, fun _ _ _ _ => exec_createIoSubmissionQueue_free k,
    fun _ => exec_deleteIoCompletionQueue_unused k, fun _ => exec_deleteIoSubmissionQueue_present k, fun _ _ => exec_abort_posted k _ _⟩

/-- Settles O11. -/
theorem asyncEventRequestCompletes : Obligations.AsyncEventRequestCompletes := by
  unfold Obligations.AsyncEventRequestCompletes
  intro s t h q k
  exact ⟨fun _ _ _ _ => exec_asynchronousEventRequest_waiting k, exec_asynchronousEventRequest_held k⟩

/-! ### Controller registers -/

section Registers
variable {s : State}

theorem exec_ccEnSet_off {ams css asqs acqs : Nat} (ha : s.mag.st.alive = true) (hen : s.nv.en = false) (hd : s.mag.st ≠ .drain) :
    exec (.ccEnSet ams css asqs acqs) s = .next (s.modNv (fun n =>
      { n with
        en := true, ams, css, rdy := s.readyNow
        sqs := NMap.put n.sqs 0 { size := asqs + 1, cq := 0, cls := 0, head := 0, tail := 0, frozen := false }
        cqs := NMap.put n.cqs 0 { size := acqs + 1, head := 0, tail := 0, vector := 0, ien := true, entries := [] } })) := by
  show execCcEnSet ams css asqs acqs s = _
  unfold execCcEnSet
  rw [if_neg (by simp [hen, ha, hd])]

/-- The three ways to a controller reset with Ringmaster running. -/
theorem exec_controllerReset (ha : s.mag.st.alive = true) {cause : Nat} {c : Instr} {t : State}
    (hc : (c = .ccEnClear ∧ cause = 1 ∧ s.nv.en = true ∧ t = s.modNv (fun n => { n with cfs := false }))
      ∨ (c = .perstNAssert ∧ cause = 2 ∧ t = s) ∨ (c = .functionLevelReset ∧ cause = 3 ∧ t = s)) :
    exec c s = .next (t.controllerReset cause).goOn := by
  rcases hc with ⟨rfl, rfl, hen, rfl⟩ | ⟨rfl, rfl, rfl⟩ | ⟨rfl, rfl, rfl⟩
  · show execCcEnClear s = _
    simp [execCcEnClear, ha, hen]
  · show execPerstNAssert t = _
    simp [execPerstNAssert, ha]
  · show execFunctionLevelReset t = _
    simp [execFunctionLevelReset, ha]

/-- The state a controller reset leaves, before a marked firmware is activated. -/
def State.resetController (s : State) (cause : Nat) : State :=
  (((((s.modNv Nvme.resetState).closeOpenZones.dropInvocations).modCar (fun c => { c with hmb := 0 })).endSession).raise 0x601 cause
    []).dropTransport.dropUnwanted

theorem State.controllerReset_unmarked {cause : Nat} (h : (s.resetController cause).nv.fwMarked = false ∨ (s.resetController cause).moves = true) :
    s.controllerReset cause = s.resetController cause := by
  refine if_neg fun hm => ?_
  obtain ⟨h1, h2⟩ : (s.resetController cause).nv.fwMarked = true ∧ (s.resetController cause).moves = false := by
    simpa [State.resetController] using hm
  simp [h1, h2] at h

theorem State.controllerReset_marked {cause : Nat} (h1 : (s.resetController cause).nv.fwMarked = true)
    (h2 : (s.resetController cause).moves = false) : s.controllerReset cause = (s.resetController cause).activateFw false :=
  if_pos (by simpa [State.resetController] using And.intro h1 h2)

theorem exec_shutdownNormal_ready (hen : s.nv.en = true) (hn : s.nv.shn = 0) :
    exec .shutdownNormal s = .next ((((s.modNv (fun n => { n with shn := 1, shst := 1 })).raise 0x602 1 []).flushWhere
      (fun _ w => w.acked)).goOn) := by
  show execShutdownNormal s = _
  simp [execShutdownNormal, hen, hn]

theorem exec_shutdownAbrupt_running (hen : s.nv.en = true) (hn : s.nv.shst ≠ 2) :
    exec .shutdownAbrupt s = .next (((((s.modNv (fun n =>
      { n with shn := 2, shst := 2, held := n.held.filter (fun h => h.wait = .aer), writes := [] })).closeOpenZones.dropInvocations).raise 0x602 2
        []).dropUnwanted).goOn) := by
  show execShutdownAbrupt s = _
  simp [execShutdownAbrupt, hen, hn]

end Registers

/-- Settles O12: each way to a reset is `State.controllerReset`, which activates a marked firmware on a still tape. -/
theorem controllerRegistersAct : Obligations.ControllerRegistersAct := by
  unfold Obligations.ControllerRegistersAct
  intro s ha
  refine ⟨fun _ _ _ _ => exec_ccEnSet_off ha, fun cause c t u hc hu => ?_, exec_shutdownNormal_ready, exec_shutdownAbrupt_running⟩
  have hreset : u = t.resetController cause := hu
  subst hreset
  rw [exec_controllerReset ha hc]
  exact ⟨fun h => by rw [State.controllerReset_unmarked h], fun h1 h2 => by rw [State.controllerReset_marked h1 h2]⟩

/-! ### The link -/

section Link
variable {s : State}

theorem exec_linkTrained_full {rate width : Nat} {flit : Bool} (ha : s.mag.st.alive = true) (hr : rate ≤ s.pn pHIF_LINK_MAX) (h4 : 4 ≤ rate)
    (hw : 4 ≤ width) :
    exec (.linkTrained rate width flit) s = .next (s.modNv (fun n => { n with link := some (rate, width, flit), linkPower := 0, wake := false })) := by
  show execLinkTrained rate width flit s = _
  simp [execLinkTrained, ha, Nat.not_lt.mpr hr, Nat.not_lt.mpr h4, Nat.not_lt.mpr hw]

theorem exec_linkTrained_slow {rate width : Nat} {flit : Bool} (ha : s.mag.st.alive = true) (hr : rate ≤ s.pn pHIF_LINK_MAX)
    (hlow : rate < 4 ∨ width < 4) :
    exec (.linkTrained rate width flit) s =
      .next ((s.modNv (fun n => { n with link := some (rate, width, flit), linkPower := 0, wake := false })).raise 0x600 1 []) := by
  show execLinkTrained rate width flit s = _
  simp [execLinkTrained, ha, Nat.not_lt.mpr hr, hlow]

theorem exec_linkDown_requested (hl : s.nv.link.isSome = true) :
    exec (.linkDown true) s = .next (s.modNv (fun n => { n with link := none })) := by
  show execLinkDown true s = _
  simp [execLinkDown, Option.isSome_iff_ne_none.mp hl]

theorem exec_linkDown_unrequested (hl : s.nv.link.isSome = true) :
    exec (.linkDown false) s = .next (((((s.modNv (fun n => { n with link := none })).raise 0x600 2 []).controllerReset 4)).goOn) := by
  show execLinkDown false s = _
  simp [execLinkDown, Option.isSome_iff_ne_none.mp hl]

theorem exec_linkPowerStateChange_present {p : Nat} (hp : p ≤ 4) (hl : s.nv.link.isSome = true) :
    exec (.linkPowerStateChange p) s = .next (s.modNv (fun n => { n with linkPower := p, wake := n.wake && p = 4 })) := by
  show execLinkPowerStateChange p s = _
  simp [execLinkPowerStateChange, Option.isSome_iff_ne_none.mp hl, Nat.not_lt.mpr hp]

theorem exec_uncorrectableAerError_alive (ha : s.mag.st.alive = true) : exec .uncorrectableAerError s = .next (s.raise 0x600 3 []) := by
  show execUncorrectableAerError s = _
  simp [execUncorrectableAerError, ha]

end Link

/-- Settles O13. -/
theorem linkCommandsAct : Obligations.LinkCommandsAct := by
  unfold Obligations.LinkCommandsAct
  intro s ha
  exact ⟨fun _ _ _ => exec_linkTrained_full ha, fun _ _ _ => exec_linkTrained_slow ha, exec_linkDown_requested, exec_linkDown_unrequested,
    fun _ => exec_linkPowerStateChange_present, exec_uncorrectableAerError_alive ha⟩

/-! ### Doorbells and fetching -/

section Doorbells
variable {s : State}

theorem exec_sqTailDoorbell_fits (hr : s.nv.rdy = true) {qid value : Nat} {x : Sq} (hx : NMap.find? s.nv.sqs qid = some x) (hv : value < x.size)
    (hfit : x.waiting + (value + x.size - x.tail) % x.size < x.size) :
    exec (.sqTailDoorbell qid value) s = .next (s.modNv (fun n => { n with sqs := NMap.put n.sqs qid { x with tail := value } })) := by
  show execSqTailDoorbell qid value s = _
  simp [execSqTailDoorbell, hr, hx, Nat.not_le.mpr hv, Nat.not_le.mpr hfit]

theorem exec_cqHeadDoorbell_posted (hr : s.nv.rdy = true) {qid value : Nat} {c : Cq} (hc : NMap.find? s.nv.cqs qid = some c) (hv : value < c.size)
    (hpost : (value + c.size - c.head) % c.size ≤ c.entries.length) :
    exec (.cqHeadDoorbell qid value) s = .next (((s.modNv (fun n =>
      { n with cqs := NMap.put n.cqs qid { c with head := value, entries := c.entries.drop ((value + c.size - c.head) % c.size) } })).postWaiting
        qid).goOn) := by
  show execCqHeadDoorbell qid value s = _
  simp [execCqHeadDoorbell, hr, hc, Nat.not_le.mpr hv, Nat.not_lt.mpr hpost]

theorem exec_commandFetch_chosen {qid : Nat} {n : Nvme} {x : Sq} (ha : s.arbitrate = some (qid, n)) (hx : NMap.find? n.sqs qid = some x) :
    exec .commandFetch s = .next (({ s with nv := n }).fetchFrom qid x) := by
  show execCommandFetch s = _
  simp [execCommandFetch, ha, hx]

end Doorbells

/-- Settles O14. -/
theorem doorbellsAndFetch : Obligations.DoorbellsAndFetch := by
  unfold Obligations.DoorbellsAndFetch
  intro s hr
  exact ⟨fun _ _ _ => exec_sqTailDoorbell_fits hr, fun _ _ _ => exec_cqHeadDoorbell_posted hr, fun _ _ _ => exec_commandFetch_chosen⟩

end Sys2Proof.Machine
end

section
/-!
# Reads, writes, zones and flushes (O15 to O18)

A command of a namespace runs that namespace's body; the sidecar's gate lets a range inside the namespace through when the Carousel may be written and the
sidecar is not limited by the host memory buffer.
-/
namespace Sys2Proof.Machine

set_option Elab.async false

/-! ### The sidecar -/

section Sidecar
variable {t : State} {q slba n : Nat}

/-- On a sidecar that is not C16 the gate is open inside the namespace. -/
theorem State.sideGate_open {change : Bool} {wait : Wait} {go : State → State} (hc : t.pn pCSL_CONFIG ≠ 16) (hr : slba + n ≤ t.sideLbas)
    (hw : change = true → t.car.readOnly = false) : t.sideGate q slba n change wait go = go t := by
  have hro : ¬ ((change && t.car.readOnly) = true) := by simpa using hw
  unfold State.sideGate
  rw [if_neg (Nat.not_lt.mpr hr), if_neg hro, if_neg (by simp [hc]), if_neg (by simp [State.capOn, hc])]

theorem State.sideReadCmd_readable (hc : t.pn pCSL_CONFIG ≠ 16) (hn : n ≤ 512) (hr : slba + n ≤ t.sideLbas)
    (hu : ((lbaList slba n).map t.sideLba).contains .unreadable = false) :
    t.sideReadCmd q slba n = (t.modNv (fun v => { v with readCmds := v.readCmds + 1, unitsRead := v.unitsRead + 8 * n })).complete q stOk 0 0
      (((lbaList slba n).map t.sideLba).flatMap (fun r => match r with | .data b => fitBytes 4096 b | _ => zeroBytes 4096)) := by
  have hvia : (lbaList slba n).any t.viaHmb = false := List.any_eq_false.mpr fun l _ => by simp [State.viaHmb, hc]
  unfold State.sideReadCmd
  rw [if_neg (Nat.not_lt.mpr hn), State.sideGate_open (change := false) hc hr (by simp)]
  unfold State.sideReadNow
  simp only [hvia, hu, Bool.false_and, Bool.false_eq_true, if_false]
    <;> rfl

theorem State.sideWriteCmd_waits {fua : Bool} (hc : t.pn pCSL_CONFIG ≠ 16) (hn : n ≤ 512) (hr : slba + n ≤ t.sideLbas) (hw : t.car.readOnly = false) :
    t.sideWriteCmd q slba n fua none = t.acceptSide q slba n fua := by
  unfold State.sideWriteCmd
  rw [if_neg (Nat.not_lt.mpr hn), State.sideGate_open hc hr fun _ => hw]

theorem State.deallocate_drops {ranges : List (Nat × Nat)} (hc : t.pn pCSL_CONFIG ≠ 16) (hw : t.car.readOnly = false)
    (hr : ranges.foldl (fun m r => if r.2 = 0 then m else max m (r.1 + r.2)) 0 ≤ t.sideLbas) :
    t.deallocate q ranges = (ranges.foldl (fun u r => u.sideDrop r.1 r.2) t).done q stOk := by
  unfold State.deallocate
  rw [State.sideGate_open (change := true) hc (by rwa [Nat.zero_add]) fun _ => hw]

end Sidecar

/-- Settles O15. -/
theorem readsAndWritesComplete : Obligations.ReadsAndWritesComplete := by
  unfold Obligations.ReadsAndWritesComplete
  intro s t h q
  refine ⟨fun k slba nlb fua cdw2 cdw3 data limited => ⟨?_, ?_, fun hread => ?_⟩,
    fun k hc slba nlb limited hn hr => ⟨fun hu => ?_, fun hw => ⟨fun fua cdw2 cdw3 => ?_, ?_⟩⟩, fun k hc hw ranges hr => ?_, fun k ranges => ?_⟩
  · show execWrite h 1 slba nlb fua cdw2 cdw3 data s = _
    rw [execWrite, State.ioNs_take _ _ k]
  · show execZoneAppend h 1 slba nlb fua cdw2 cdw3 data s = _
    rw [execZoneAppend, State.ioNs_take _ _ k]
  · show execRead h 1 slba nlb limited s = _
    rw [execRead, State.ioNs_take _ _ k, State.takeReadCmd, hread]
  · show execRead h 2 slba nlb limited s = _
    rw [execRead, State.ioNs_side _ _ k, State.sideReadCmd_readable (n := nlb + 1) hc hn hr hu]
      <;> rfl
  · show execWrite h 2 slba nlb fua cdw2 cdw3 none s = _
    rw [execWrite, State.ioNs_side _ _ k, State.sideWriteCmd_waits hc hn hr hw, State.acceptSide]
  · show execWriteZeroes h 2 slba nlb s = _
    rw [execWriteZeroes, State.ioNs_side _ _ k, State.deallocate_drops hc hw (by simpa using hr)]
    rfl
  · show execDatasetManagement h 2 true ranges s = _
    rw [execDatasetManagement, State.ioNs_side _ _ k, if_pos rfl, State.deallocate_drops hc hw hr]
  · show execDatasetManagement h 2 false ranges s = _
    rw [execDatasetManagement, State.ioNs_side _ _ k, if_neg Bool.false_ne_true]

/-! ### The take namespace -/

/-- A write that no Take Mark holds and no check refuses is accepted. -/
theorem State.takeWriteCmd_accepted {t : State} {q slba n cdw2 cdw3 : Nat} {append fua : Bool} (hm : t.behindMark q (zoneOf slba) = false)
    (hc : t.takeCheck append slba n cdw2 cdw3 = none) :
    t.takeWriteCmd q append slba n fua cdw2 cdw3 none = (t.openZone (zoneOf slba) false).modNv (fun v => { v.setWait q .write with
      writes := v.writes ++ [{ seq := q, nsid := 1, slba := if append then 65536 * zoneOf slba + t.nextWp (zoneOf slba) else slba, nlb := n, fua,
                               append, timecode := timecodeOf cdw2 cdw3, moved := false, app := 0 }] }) := by
  simp only [State.takeWriteCmd, State.acceptTake, hm, hc, Bool.false_eq_true, if_false]

/-- Settles O16. -/
theorem takeWriteIsAccepted : Obligations.TakeWriteIsAccepted := by
  unfold Obligations.TakeWriteIsAccepted
  refine ⟨fun s t h q slba nlb fua append cdw2 cdw3 k hm hc => ?_,
    fun s sq cid x w ha hd => ⟨fun hx hw hmay => ⟨fun d => ?_, ?_⟩, rfl, rfl⟩⟩
  · rw [← State.takeWriteCmd_accepted hm hc]
    cases append
    · show execWrite h 1 slba nlb fua cdw2 cdw3 none s = _
      rw [execWrite, State.ioNs_take _ _ k]
    · show execZoneAppend h 1 slba nlb fua cdw2 cdw3 none s = _
      rw [execZoneAppend, State.ioNs_take _ _ k]
  · show execWriteDataTransfer sq cid (some d) s = _
    simp only [execWriteDataTransfer, hx, hw]
    rw [if_pos (by simp [ha, hd, hmay])]
  · show execWriteDataTransfer sq cid none s = _
    simp only [execWriteDataTransfer, hx, hw]
    rw [if_pos (by simp [ha, hd, hmay])]

theorem State.zoneOpenCmd_openable {t : State} {q z : Nat} (hst : (t.zone z).st = .closed ∨ (t.zone z).st = .empty) (ho : t.openCheck z = none) :
    t.zoneOpenCmd q z = (t.openZone z true).done q stOk := by
  unfold State.zoneOpenCmd
  rcases hst with hst | hst <;> simp [hst, ho, ZState.isOpen]

/-- Settles O17. -/
theorem zoneCommandsComplete : Obligations.ZoneCommandsComplete := by
  unfold Obligations.ZoneCommandsComplete
  intro s t h q k
  refine ⟨fun hp slba hr hz => ⟨fun hst hopen => ?_, fun hst => ?_, fun hst => ?_, fun hst hwp => ?_⟩, fun hp => ?_, fun slba => ⟨?_, ?_⟩,
    fun slba dwords zrasf part hf hr => ?_⟩
  · show execZoneOpen h 1 slba false s = _
    rw [execZoneOpen, State.zoneCmd_runs _ k hp, if_neg Bool.false_ne_true, State.onZone_at _ hr hz, State.zoneOpenCmd_openable hst hopen]
  · show execZoneClose h 1 slba false s = _
    rw [execZoneClose, State.zoneCmd_runs _ k hp, if_neg Bool.false_ne_true, State.onZone_at _ hr hz, if_pos hst]
  · show execZoneFinish h 1 slba false s = _
    rw [execZoneFinish, State.zoneCmd_runs _ k hp, if_neg Bool.false_ne_true, State.onZone_at _ hr hz, if_pos (by simpa using hst)]
  · show execZoneReset h 1 slba s = _
    rw [execZoneReset, State.zoneCmd_runs _ k hp, State.onZone_at _ hr hz, if_pos (by simp [hst, hwp])]
  · show execZoneResetAll h 1 s = _
    rw [execZoneResetAll, State.zoneCmd_runs _ k hp]
  · show execZoneOffline h 1 slba s = _
    rw [execZoneOffline, State.ioNs_take _ _ k]
  · show execZoneOffline h 2 slba s = _
    rw [execZoneOffline, State.ioNs_side _ _ k.1]
  · show execZoneManagementReceive h 1 slba dwords 0 zrasf part s = _
    rw [execZoneManagementReceive, State.ioNs_take _ _ k, if_neg (by simpa using hf), if_neg (Nat.not_le.mpr hr)]

/-- Settles O18. -/
theorem flushCommandsWait : Obligations.FlushCommandsWait := by
  unfold Obligations.FlushCommandsWait
  rintro s t h q ⟨k, hcss⟩
  refine ⟨fun nsid hns => ?_, ?_, fun hctx => ?_⟩
  · show execFlush h nsid s = _
    rw [execFlush, State.ioCmd_runs _ k, if_pos (by rcases hns with rfl | rfl | rfl <;> simp [hcss])]
  · show execSpoolCommit h 1 s = _
    rw [execSpoolCommit, State.ioCmd_runs _ k, if_pos rfl]
  · show execTakeMark h 1 s = _
    rw [execTakeMark, State.ioCmd_runs _ k, if_neg (by simp), if_neg (by simp [hctx])]

end Sys2Proof.Machine
end

section
/-!
# Reports, firmware, formats, parameters and features (O19 to O22, O24, O25)

A taken admin command runs its body, in SAFE too where R325 allows it; each case of a body is its definition with the checks decided.
-/
namespace Sys2Proof.Machine

set_option Elab.async false

theorem State.Admin.runs {s t : State} {h : Hdr} {q : Nat} (k : s.Admin h q t) (hs : t.mag.st ≠ .safe) : s.AdminRuns h q t := ⟨k, hs⟩

/-! ### Reports -/

theorem exec_unsupportedCommand_taken {s t : State} {h : Hdr} {q : Nat} (k : s.Admin h q t)
    (hd : t.nv.held.any (fun x => x.wait = .deleteSq h.sq) = false) (op nsid d10 : Nat) :
    exec (.unsupportedCommand h op nsid d10) s = .next ((t.done q (unlistedStatus h.sq op)).goOn) := by
  show execUnsupportedCommand h op nsid d10 s = _
  simp only [execUnsupportedCommand, k.1, hd, Bool.false_eq_true, if_false]

/-- Settles O19. -/
theorem reportsComplete : Obligations.ReportsComplete := by
  unfold Obligations.ReportsComplete
  intro s t h q k
  refine ⟨fun cns nsid csi b hb => ?_, fun lid off dwords rae b h2 hb h4 h32 => ?_,
    fun hsafe hsess hst hflow d10 first src h16 hmax hsrc hend => ?_, fun hd op nsid d10 => ⟨fun hop => ?_, fun hop => ?_⟩⟩
  · show execIdentify h cns nsid csi s = _
    simp only [execIdentify, State.adminCmd_admin _ k, hb]
  · show execGetLogPage h lid off dwords rae s = _
    simp only [execGetLogPage, State.adminCmd_admin _ k, if_neg h2, hb]
    rw [if_neg (by simpa [h4] using h32)]
  · show execTraceRead h d10 first src s = _
    rw [execTraceRead, State.adminCmd_runs _ _ (k.runs hsafe), if_neg (by simp [hsess]), if_neg (by simp [hst]),
      if_neg (by simp [h16, hsrc]; omega), State.traceMove, if_pos hflow]
  · rw [exec_unsupportedCommand_taken k hd, unlistedStatus, if_neg (ne_true_of_eq_false hop)]
  · rw [exec_unsupportedCommand_taken k hd, unlistedStatus, if_pos hop]

/-! ### Firmware -/

/-- Of a working NOR a package is stored when it is valid. -/
theorem State.storePackage_slot2 {t : State} {q slot : Nat} {st : Status} (hslot : commitSlot slot = 2) (hd : t.nor.dead = false) :
    t.storePackage q slot st =
      if packageOk t.nor.fuses t.package then (t.norWrite 5 t.package (.patch q st.sct st.sc st.dnr)).modNv (fun n => n.setWait q .keyRecord)
      else (t.raise 0x604 2 []).done q stFwImage := by
  unfold State.storePackage
  rw [if_neg (by simp [hslot])]
  cases packageOk t.nor.fuses t.package <;> simp [hd]

/-- Settles O20. -/
theorem firmwareCommandsComplete : Obligations.FirmwareCommandsComplete := by
  unfold Obligations.FirmwareCommandsComplete
  intro s t h q k
  refine ⟨fun off data h4 hend => ?_, fun slot hslot hd => ⟨?_, ?_⟩, fun slot hslot hfull => ?_, fun slot hslot hfull hm => ?_⟩
  · show execFirmwareImageDownload h off data s = _
    rw [execFirmwareImageDownload, State.adminCmd_admin _ k, if_neg (by simp [h4]; omega)]
  · show execFirmwareCommitStore h slot s = _
    rw [execFirmwareCommitStore, State.adminCmd_admin _ k, State.storePackage_slot2 hslot hd]
  · show execFirmwareCommitStoreAndMark h slot s = _
    rw [execFirmwareCommitStoreAndMark, State.adminCmd_admin _ k, State.storePackage_slot2 hslot hd]
  · show execFirmwareCommitMark h slot s = _
    rw [execFirmwareCommitMark, State.adminCmd_admin _ k, if_neg (by simp [hslot]), if_neg (by simp [Option.isSome_iff_ne_none.mp hfull])]
  · show execFirmwareCommitActivate h slot s = _
    have himg : ¬ ((commitSlot slot = 2 && t.nv.fwSlot2.isNone) = true) := by
      simpa [Option.ne_none_iff_isSome] using hfull
    rw [execFirmwareCommitActivate, State.adminCmd_admin _ k, if_neg (Nat.not_lt.mpr hslot), if_neg himg, if_neg (by simp [hm])]

/-! ### Formats -/

/-- Settles O21. -/
theorem formatsAct : Obligations.FormatsAct := by
  unfold Obligations.FormatsAct
  intro s t h q k
  refine ⟨fun hw => ⟨?_, ?_⟩, fun hact hst hrot => ?_⟩
  · show execFormatNvm h 2 0 0 s = _
    simp [execFormatNvm, State.adminCmd_runs _ _ k, State.format, State.formatSide, hw]
  · show execFormatNvm h 2 1 0 s = _
    simp [execFormatNvm, State.adminCmd_runs _ _ k, State.format, State.formatSide, hw]
  · show execFormatSecureEraseTake h 1 0 s = _
    simp [execFormatSecureEraseTake, State.adminCmd_runs _ _ k, State.format, State.formatTake, hact, hst, hrot]

/-! ### Parameters -/

/-- Settles O22. -/
theorem parameterReadReturnsElements : Obligations.ParameterReadReturnsElements := by
  unfold Obligations.ParameterReadReturnsElements
  intro s t h q pid view first count d k hp hv hd hl
  have hpid : (pid + 2 ^ 16 * view) % 2 ^ 16 = pid := by omega
  have hview : (pid + 2 ^ 16 * view) / 2 ^ 16 % 4 = view := by omega
  have hdenied : ¬ ((d.level = 1 && !t.keys.session) = true) := by simpa using hl
  refine ⟨fun h3 => ?_, fun h3 hrange h1 => ?_⟩
  · show execParameterRead h (pid + 2 ^ 16 * view) first count s = _
    simp only [execParameterRead, State.adminCmd_admin _ k, hpid, hview, hd, if_neg hdenied, if_pos h3]
  · show execParameterRead h (pid + 2 ^ 16 * view) first count s = _
    have hro : ¬ ((view = 1 && d.access != .rws) = true) := by simpa using h1
    simp only [execParameterRead, State.adminCmd_admin _ k, hpid, hview, hd, if_neg hdenied, if_neg h3, hrange, Bool.false_eq_true, if_false,
      if_neg hro]
    obtain rfl | rfl | rfl : view = 0 ∨ view = 1 ∨ view = 2 := by omega
    · rfl
    · rfl
    · rfl

/-- Settles O24. -/
theorem parameterWriteIsAllOrNothing : Obligations.ParameterWriteIsAllOrNothing := by
  unfold Obligations.ParameterWriteIsAllOrNothing
  intro s t h q pid first count data d k hp hd himp hcount
  have hexec : exec (.parameterWrite h pid first count data) s = .next (t.paramWrite q pid first (elemsOf d.width count data)).goOn := by
    show execParameterWrite h pid first count data s = _
    simp only [execParameterWrite, State.adminCmd_runs _ _ k, Nat.mod_eq_of_lt hp, hd, Option.elim_some,
      Nat.min_eq_left (Nat.le_succ_of_le hcount)]
  refine ⟨fun st i hc => ?_, fun hc => ?_⟩
  · simp only [hexec, State.paramWrite, hd, hc]
  · simp only [hexec, State.paramWrite, hd, hc]
    rw [if_neg (by simp [himp])]

/-! ### Features -/

theorem State.setVendor_fits {t : State} {q fid bits value : Nat} (hf : t.vendorFits fid bits value = true) (hb : t.vendorBusy fid value = false)
    (hc : t.commitCheck (vendorStaged fid value) = none) : t.setVendor q fid bits value = (t.vendorWrite fid value).done q stOk := by
  simp [State.setVendor, hf, hb, hc]

theorem writtenFields_credit (value : Nat) : writtenFields 0xC1 value = [(pHIF_CREDIT_LIMIT, value % 2 ^ 16)] := by
  simp [writtenFields, featureFields]

theorem writtenFields_compression (value : Nat) :
    writtenFields 0xC2 value = [(pCMP_MODE, value % 2 ^ 2), (pCMP_ACTIVE, value / 2 ^ 8 % 2 ^ 6)] := by
  simp [writtenFields, featureFields]

theorem writtenFields_compute (value : Nat) :
    writtenFields 0xC5 value = [(pCCL_CORES, value % 2 ^ 5), (pCCL_INST_MAX, value / 2 ^ 8 % 2 ^ 9)] := by
  simp [writtenFields, featureFields]

/-- The parameters of features C1h, C2h and C5h act at once. -/
theorem isStagedField_at_once {p : Nat} (v : Nat) (hp : p ∈ [pHIF_CREDIT_LIMIT, pCMP_MODE, pCMP_ACTIVE, pCCL_CORES, pCCL_INST_MAX]) :
    isStagedField (p, v) = false := by
  have hall : ∀ p ∈ [pHIF_CREDIT_LIMIT, pCMP_MODE, pCMP_ACTIVE, pCCL_CORES, pCCL_INST_MAX], isStagedField (p, 0) = false := by decide +kernel
  exact hall p hp

/-- A Set whose fields all act at once stages nothing. -/
theorem vendorStaged_at_once {fid value : Nat} (h : ∀ f ∈ writtenFields fid value, isStagedField f = false) : vendorStaged fid value = [] := by
  rw [vendorStaged, List.filter_eq_nil_iff.mpr fun f hf => by simp [h f hf]]
  rfl

theorem State.vendorWrite_at_once {t : State} {fid value : Nat} (h : ∀ f ∈ writtenFields fid value, isStagedField f = false) :
    t.vendorWrite fid value = (writtenFields fid value).foldl (fun u f => (u.noteWrite f.1 0).setElem f.1 0 f.2) t := by
  have hstaged : (writtenFields fid value).filter isStagedField = [] := List.filter_eq_nil_iff.mpr fun f hf => by simp [h f hf]
  have hrest : (writtenFields fid value).filter (fun f => !isStagedField f) = writtenFields fid value :=
    List.filter_eq_self.mpr fun f hf => by simp [h f hf]
  simp only [State.vendorWrite, hstaged, hrest, List.isEmpty_nil, if_true]

theorem State.setVendor_at_once {t : State} {q fid bits value : Nat} (h : ∀ f ∈ writtenFields fid value, isStagedField f = false)
    (hf : t.vendorFits fid bits value = true) (hb : t.vendorBusy fid value = false) (hc : t.commitCheck [] = none) :
    t.setVendor q fid bits value =
      ((writtenFields fid value).foldl (fun u f => (u.noteWrite f.1 0).setElem f.1 0 f.2) t).done q stOk := by
  rw [State.setVendor_fits hf hb (by rw [vendorStaged_at_once h]; exact hc), State.vendorWrite_at_once h]

/-- Settles O25. -/
theorem setFeaturesComplete : Obligations.SetFeaturesComplete := by
  unfold Obligations.SetFeaturesComplete
  intro s t h q k
  refine ⟨fun fid d11 d12 data hfid => ?_, fun d11 d12 data => ?_, fun d11 => ?_, fun d11 size hon hhmb hmin hpre hcfg => ?_, fun d11 size hoff => ?_,
    fun ms hsess => ?_, fun hst => ⟨?_, ?_, fun hsess => ?_⟩, fun data v hv hfits hbusy hcheck => ?_, fun data v hv hfits hbusy hcheck => ?_,
    fun d11 hfits hbusy hcheck => ?_, fun d11 hfits hbusy hcheck => ?_, fun d11 hfits hbusy hcheck => ?_, fun fid d11 d12 data hknown => ?_,
    fun fid d11 hknown => ?_, fun fid sel d11 v hknown hsel h0E hC0 hC4 hv => ?_, fun d11 => ?_⟩
  · refine (State.setFeatures_runs _ k ?_).trans ?_
    · rcases hfid with rfl | rfl | rfl <;> rfl
    · rcases hfid with rfl | rfl | rfl <;> rfl
  · exact State.setFeatures_runs _ k rfl
  · exact State.setFeatures_runs _ k rfl
  · refine (State.setFeatures_runs _ k rfl).trans ?_
    rw [State.setHmb, if_neg (by omega), if_neg (by simp [hhmb]), if_neg (Nat.not_lt.mpr hmin), if_neg (by simp [hcfg]),
      if_neg (Nat.not_lt.mpr hpre)]
  · refine (State.setFeatures_runs _ k rfl).trans ?_
    rw [State.setHmb, if_pos hoff]
  · refine (State.setFeatures_runs _ k rfl).trans ?_
    rw [State.setTime, if_neg (by simp [hsess])]
  · refine (State.setFeatures_runs _ k rfl).trans ?_
    rcases hst with hst | hst <;> simp [State.setContext, hst]
  · refine (State.setFeatures_runs _ k rfl).trans ?_
    rcases hst with hst | hst <;> simp [State.setContext, hst]
  · refine (State.setFeatures_runs _ k rfl).trans ?_
    rcases hst with hst | hst <;> simp [State.setContext, hst, hsess]
  · refine (State.setFeatures_runs _ k rfl).trans ?_
    subst hv
    rw [← State.setVendor_fits hfits hbusy hcheck]
    rfl
  · refine (State.setFeatures_runs _ k rfl).trans ?_
    subst hv
    rw [← State.setVendor_fits hfits hbusy hcheck]
    rfl
  · refine (State.setFeatures_runs _ k rfl).trans ?_
    have hact : ∀ f ∈ writtenFields 0xC1 d11, isStagedField f = false := by
      simp [writtenFields_credit, isStagedField_at_once]
    have hset := State.setVendor_at_once (q := q) hact hfits hbusy hcheck
    rw [writtenFields_credit] at hset
    exact congrArg (fun u : State => (.next u.goOn : Out)) hset
  · refine (State.setFeatures_runs _ k rfl).trans ?_
    have hact : ∀ f ∈ writtenFields 0xC2 d11, isStagedField f = false := by
      simp [writtenFields_compression, isStagedField_at_once]
    have hset := State.setVendor_at_once (q := q) hact hfits hbusy hcheck
    rw [writtenFields_compression] at hset
    exact congrArg (fun u : State => (.next u.goOn : Out)) hset
  · refine (State.setFeatures_runs _ k rfl).trans ?_
    have hact : ∀ f ∈ writtenFields 0xC5 d11, isStagedField f = false := by
      simp [writtenFields_compute, isStagedField_at_once]
    have hset := State.setVendor_at_once (q := q) hact hfits hbusy hcheck
    rw [writtenFields_compute] at hset
    exact congrArg (fun u : State => (.next u.goOn : Out)) hset
  · show execSetFeatures h fid true d11 d12 data s = _
    simp [execSetFeatures, State.setFeatures, State.adminCmd_runs _ _ k, hknown]
  · show execGetFeatures h fid 3 d11 s = _
    simp [execGetFeatures, State.adminCmd_runs _ _ k, hknown]
  · show execGetFeatures h fid sel d11 s = _
    have h3 : sel ≠ 3 := by omega
    have h3' : ¬ 3 < sel := by omega
    simp [execGetFeatures, State.adminCmd_runs _ _ k, hknown, h0E, hC0, hC4, hv, h3, h3']
  · show execGetFeatures h 0x0E 0 d11 s = _
    rw [execGetFeatures, State.adminCmd_runs _ _ k]
    rfl

end Sys2Proof.Machine
end

section
/-!
# The owner's access and the keys (O26 to O28)

The commands of authentication and of the key deposits, case by case. A change of the key record is a NOR write while NOR answers, so each deposit ends in
`State.keyWrite`.
-/
namespace Sys2Proof.Machine

set_option Elab.async false

/-! ### Authentication -/

/-- Settles O26. -/
theorem ownerAuthentication : Obligations.OwnerAuthentication := by
  unfold Obligations.OwnerAuthentication
  intro s t h q k
  refine ⟨fun hlock htrng => ⟨_, rfl, ?_⟩, fun hlock => ?_, fun hlock => ?_, fun data hc => ?_,
    fun data nonce hc hfails hdirty hclaimed hnum hmac => ?_, fun data nonce hc hbad => ?_⟩
  · show execOwnerChallenge h s = _
    rw [execOwnerChallenge, State.adminCmd_admin _ k, if_neg (by simp [hlock]), if_neg (by simp [htrng])]
  · show execOwnerChallenge h s = _
    rw [execOwnerChallenge, State.adminCmd_admin _ k, if_pos (by simpa using hlock)]
  · show execOwnerChallengeQuery h s = _
    rw [execOwnerChallengeQuery, State.adminCmd_admin _ k, if_neg (by simp [hlock])]
  · show execOwnerResponse h data s = _
    simp only [execOwnerResponse, State.adminCmd_admin _ k, hc]
  · show execOwnerResponse h data s = _
    simp only [execOwnerResponse, State.adminCmd_admin _ k, hc]
    rw [if_pos (by simp [hclaimed, hnum, hmac]), if_pos (by simp [hfails, hdirty])]
  · show execOwnerResponse h data s = _
    simp only [execOwnerResponse, State.adminCmd_admin _ k, hc]
    rw [if_neg]
    simp only [Bool.and_eq_true, decide_eq_true_eq]
    rintro ⟨⟨h1, h2⟩, h3⟩
    rcases hbad with hb | hb | hb
    · rw [hb] at h1
      cases h1
    · exact hb h2
    · exact hb h3

/-! ### Timers, the TRNG and the key slots -/

/-- With NOR answering a change of the key record is a NOR write. -/
theorem State.keyWrite_alive {t : State} {act : NorAct} (hd : t.nor.dead = false) : t.keyWrite act = t.norWrite 1 (t.keyImage act).bytes act :=
  if_neg (by simp [hd])

theorem State.lockoutEnd_unrecorded {s : State} (h : s.krec.lockLen = 0) : s.lockoutEnd = s.modKeys (fun k => { k with lockout := 0 }) :=
  if_neg (by simp [h])

theorem State.lockoutEnd_recorded {s : State} (h : s.krec.lockLen ≠ 0) (ha : s.mag.st.alive = true) (hd : s.mag.st ≠ .drain) :
    s.lockoutEnd = ((s.modKeys (fun k => { k with lockout := 0 })).modKeys (fun k => { k with krec := some { s.krec with lockLen := 0 } })).keyWrite
      .plain :=
  if_pos (by simp [h, ha, hd])

theorem exec_lockoutExpiry {s : State} (h : s.keys.lockout ≠ 0) : exec .lockoutExpiry s = .next s.lockoutEnd := by
  show execLockoutExpiry s = _
  rw [execLockoutExpiry, if_neg h]

/-- Settles O27. -/
theorem authenticationTimersAndTrng : Obligations.AuthenticationTimersAndTrng := by
  unfold Obligations.AuthenticationTimersAndTrng
  intro s
  refine ⟨rfl, fun hlock t ht => ⟨fun hlen => ?_, fun hlen ha hd hnor u hu => ?_⟩, fun hsess => ?_, fun htrng p => ⟨?_, ?_⟩, rfl, fun id i hi => ?_,
    fun id i m hi hm hfree => ⟨fun key hkey => ?_, fun hkey => ?_⟩⟩
  · rw [exec_lockoutExpiry hlock, State.lockoutEnd_unrecorded hlen, ht]
  · have hnoru : u.nor.dead = false := by rw [hu, ht]; exact hnor
    rw [exec_lockoutExpiry hlock, State.lockoutEnd_recorded hlen ha hd, ← ht, ← hu, State.keyWrite_alive hnoru]
  · show execSessionIdleTimeout s = _
    rw [execSessionIdleTimeout, State.endSession, if_pos hsess]
  · show execTrngHealthFailure true p s = _
    rw [execTrngHealthFailure, if_pos (by simp [htrng])]
    rfl
  · show execTrngHealthFailure false true s = _
    rw [execTrngHealthFailure, if_pos (by simp [htrng])]
    rfl
  · show execKeySlotLoad id s = _
    simp only [execKeySlotLoad, State.keySlotLoad, hi]
  · show execKeySlotLoad id s = _
    simp only [execKeySlotLoad, State.keySlotLoad, hi, hm, hfree, hkey, State.loadSlot]
  · show execKeySlotLoad id s = _
    simp only [execKeySlotLoad, State.keySlotLoad, hi, hm, hfree, hkey]

/-! ### Key Deposit -/

/-- In an owner session a deposit runs its body; its command is held while the key record is written. -/
theorem State.deposit_runs {s t : State} {h : Hdr} {q : Nat} (body : Nat → State → State) (k : s.AdminRuns h q t) (hs : t.keys.session = true) :
    s.deposit h body = .next ((body q t).holdForRecord q).goOn := by
  simp [State.deposit, State.adminCmd_runs _ _ k, hs]

section Unwrap
variable {t : State} {q : Nat} {data key : Bytes} {body : Bytes → State → State}

theorem State.withDeposit_unwraps (h : kwUnwrap t.ownerKey (depositKey data) = some key) : t.withDeposit q data body = body key t := by
  simp only [State.withDeposit, h]

theorem State.withDeposit_fails (h : kwUnwrap t.ownerKey (depositKey data) = none) :
    t.withDeposit q data body = (t.raise 0x7C3 4 []).authFail q := by
  simp only [State.withDeposit, h]

end Unwrap

theorem State.tellEscrow_none {t : State} {label key : Bytes} (h : t.escrowFails label key = 0) : t.tellEscrow label key = t := by
  rw [State.tellEscrow, h]
  rfl

/-- Settles O28. -/
theorem keyDepositsAct : Obligations.KeyDepositsAct := by
  unfold Obligations.KeyDepositsAct
  intro s t h q
  refine ⟨fun k hclaimed hnor data act hact => ?_, fun k hsess data => ⟨fun hnor act hact => ?_,
    fun key act hkey hnor => ⟨fun hact => ?_, fun hact => ?_⟩, fun hkey bad hbad => ⟨?_, ?_⟩,
    fun hst hrot hclosed => ⟨fun hzero => ?_, fun key hzero hkey => ?_⟩,
    fun hst hload hrot key hkey => ⟨fun hfails num w c macs medias hgen => ⟨fun hroom => ?_, fun hfull => ?_⟩, fun u hu hgen => ?_⟩⟩⟩
  · show execKeyDepositClaim h data s = _
    rw [execKeyDepositClaim, State.adminCmd_admin _ k, if_neg (by simp [hclaimed])]
    subst hact
    exact congrArg (fun u : State => (.next u.goOn : Out)) (State.keyWrite_alive hnor)
  · refine (State.deposit_runs _ k hsess).trans ?_
    rw [← hact, State.keyWrite_alive hnor]
  · refine (State.deposit_runs _ k hsess).trans ?_
    rw [State.withDeposit_unwraps hkey, ← hact, State.keyWrite_alive hnor]
  · refine (State.deposit_runs _ k hsess).trans ?_
    rw [State.withDeposit_unwraps hkey, ← hact, State.keyWrite_alive hnor]
  · refine (State.deposit_runs _ k hsess).trans ?_
    rw [State.withDeposit_fails hkey, hbad]
  · refine (State.deposit_runs _ k hsess).trans ?_
    rw [State.withDeposit_fails hkey, hbad]
  · refine (State.deposit_runs _ k hsess).trans ?_
    dsimp only
    rw [if_neg (by simp [hst, hrot, hclosed]), if_pos hzero]
  · refine (State.deposit_runs _ k hsess).trans ?_
    dsimp only
    rw [if_neg (by simp [hst, hrot, hclosed]), if_neg (by simp [hzero]), State.withDeposit_unwraps hkey]
  · refine (State.deposit_runs _ k hsess).trans ?_
    dsimp only
    rw [if_neg (by simp [hst, hrot, hload]), State.withDeposit_unwraps hkey]
    simp only [State.tellEscrow_none hfails, hgen, if_neg (Nat.not_le.mpr hroom)]
  · refine (State.deposit_runs _ k hsess).trans ?_
    dsimp only
    rw [if_neg (by simp [hst, hrot, hload]), State.withDeposit_unwraps hkey]
    simp only [State.tellEscrow_none hfails, hgen, if_pos hfull]
  · refine (State.deposit_runs _ k hsess).trans ?_
    dsimp only
    rw [if_neg (by simp [hst, hrot, hload]), State.withDeposit_unwraps hkey]
    have htell : t.tellEscrow (slice data 0 8) key = u := hu.symm
    simp only [htell, hgen]

end Sys2Proof.Machine
end

section
/-!
# The commands of the stream FIFOs (O29)

Each command is one clock of its FIFO, a fault of it, or a register write. The clocks that tell nobody change that FIFO alone (`State.fifoAct_quiet`); the
others raise the event of the FIFO.
-/
namespace Sys2Proof.Machine

set_option Elab.async false

section Writes
variable {s : State} {n : Nat} (hn : n < 96) (w : FWord)
include hn

/-- A FIFO that stands still leaves the word with its producer (R105, R111). -/
theorem State.fifoWrite_stalls (h : fifoStalls n (s.fifoDepth n) (s.fifo n) = true) :
    s.fifoWrite n w = s.modFifo n (fun f => { f with held := f.held ++ [w] }) := by
  refine (State.fifoAct_quiet s _ hn ?_).trans (State.modFifo_const rfl)
  simp [fifoClock, Fifo.clockReset, Fifo.clockRead, fifoPut_held n _ _ w h]

/-- A full overrun FIFO ignores a packet that starts (R106); its event is raised at the first only. -/
theorem State.fifoWrite_ignores (h80 : 80 ≤ n) (hh : (s.fifo n).held = []) (hd : (s.fifo n).dropping = false) (hhalt : (s.fifo n).halted = false)
    (hstart : (s.fifo n).atStart = true) (hfull : fifoFull n (s.fifoDepth n) (s.fifo n) = true) (hsticky : (s.fifo n).sticky % 2 = 1) :
    s.fifoWrite n w = s.modFifo n (fun f =>
      { f with dropping := !w.last, drops := min 65535 (f.drops + 1), sticky := f.sticky ||| 1, held := [] }) := by
  refine (State.fifoAct_quiet s _ hn ?_).trans (State.modFifo_const rfl)
  simp [fifoClock, Fifo.clockReset, Fifo.clockRead, fifoPut, fifoFeed, fifoStalls, fifoAdmit, fifoOverrun, h80, hh, hd, hhalt, hstart, hfull, hsticky]

end Writes

theorem State.modFifo_congr {s : State} {n : Nat} {f g : Fifo → Fifo} (h : f (s.fifo n) = g (s.fifo n)) : s.modFifo n f = s.modFifo n g :=
  (State.modFifo_const h.symm).symm.trans (State.modFifo_const rfl)

/-- What a retention operation that is carried out leaves, written as a change of FIFO 66. -/
theorem exec_retain_done {s : State} {o : RetOp} {f : Fifo → Fifo} (hh : (s.fifo 66).held = []) (h : (s.fifo 66).retain o = some (f (s.fifo 66))) :
    (.next (s.retain o) : Out) = .next (s.modFifo 66 f) := by
  rw [State.retain_done hh h]
  rfl

theorem State.fifoEvent_modFifo (s : State) {n cause : Nat} {f : Fifo → Fifo} (h : (f (s.fifo n)).words = (s.fifo n).words) :
    (s.modFifo n f).fifoEvent n cause = (s.modFifo n f).raise (0x400 + n) cause (leBytes 4 (s.fifo n).fill) := by
  rw [State.fifoEvent, State.modFifo_fifo_same, Fifo.fill, h]
  rfl

theorem exec_retain_refused {s : State} {o : RetOp} (hh : (s.fifo 66).held = []) (h : (s.fifo 66).retain o = none) :
    (.next (s.retain o) : Out) = .next ((s.modFifo 66 (fun f => { f with sticky := f.sticky ||| 4, held := [] })).fifoEvent 66 3) := by
  have hsame : s.modFifo 66 (fun f => { f with sticky := f.sticky ||| 4, held := [] }) = s.modFifo 66
    (fun f => { f with sticky := f.sticky ||| 4 }) :=
    State.modFifo_congr (by simp [hh])
  rw [State.retain_refused hh h, hsame, State.fifoEvent_modFifo s rfl]

/-- A fault of a FIFO with Ringmaster running: the FIFO is reset and halted, and outside DRAIN its role is restored (R112). -/
theorem State.fifoFault_alive {s t : State} {n cause : Nat} {f : Fifo → Fifo} (hn : n < 96) (ha : s.mag.st.alive = true)
    (ht : t = (((s.noteFault 0x0A).modFifo n f).raise (0x400 + n) cause (leBytes 4 (s.fifo n).words.length)).modFifo n (fun x => { x with halted := true })) :
    (s.mag.st = .drain → s.fifoFault n cause f = t) ∧ (s.mag.st ≠ .drain → s.fifoFault n cause f = (t.roleRestore n (s.fifo n).packets).goOn) := by
  have hgo : ¬ ((!fifoExists n || !s.mag.st.alive) = true) := by simp [fifoExists, hn, ha]
  subst ht
  unfold State.fifoFault
  rw [if_neg hgo]
  exact ⟨fun hd => if_pos hd, fun hd => if_neg hd⟩

/-- A restart of a halted FIFO whose producer holds nothing. -/
theorem State.fifoRestart_idle {s : State} {n : Nat} (hn : n < 96) (hh : (s.fifo n).held = []) :
    s.fifoRestart n = s.modFifo n (fun f => { f with halted := false, held := [] }) := by
  have hput : fifoPut n (s.fifoDepth n) (s.pni pSFQ_CT_THRESH n) { s.fifo n with halted := false } [] = ({ s.fifo n with halted := false }, false) :=
    fifoPut_nothing _ _ _ hh
  simp only [State.fifoRestart, fifoExists, decide_eq_true hn, if_true, hput, State.when, Bool.false_eq_true, if_false]
  exact State.modFifo_const (by simp [hh])

theorem State.fifoClear_of_lt {s : State} {n : Nat} (hn : n < 96) (bits : Nat) : s.fifoClear n bits =
    s.modFifo n (fun f => { f with sticky := f.sticky &&& (15 - bits % 16), drops := if bits % 2 = 1 then 0 else f.drops }) :=
  if_pos (decide_eq_true hn)

/-- A host's Parameter Write of a register that passes its checks is noted, acts and completes. -/
theorem State.regWrite_host {s t : State} {h : Hdr} {q pid i e : Nat} {act : State → State} (k : s.AdminRuns h q t)
    (hc : t.writeCheck pid i [e] = none) : s.regWrite (some h) pid i e act = (act (t.noteWrite pid i)).done q stOk := by
  simp only [State.regWrite, State.adminCmd_runs _ _ k, hc]

/-- One that fails its checks completes with their status and changes nothing. -/
theorem State.regWrite_refused {s t : State} {h : Hdr} {q pid i e j : Nat} {st : Status} {act : State → State} (k : s.AdminRuns h q t)
    (hc : t.writeCheck pid i [e] = some (st, j)) : s.regWrite (some h) pid i e act = t.complete q st j 0 [] := by
  simp only [State.regWrite, State.adminCmd_runs _ _ k, hc]

/-- Settles O29: each command's one clock, fault or register write. -/
theorem fifoCommandsAct : Obligations.FifoCommandsAct := by
  unfold Obligations.FifoCommandsAct
  intro s n
  refine ⟨fun hn payload last count w hw => ⟨fun hh hd hstall hfull => ?_, fun hstall => ?_, fun h80 hh hd hhalt hstart hfull hsticky => ?_⟩,
    fun hn hh => ⟨fun w rest h66 hhalt hr hw => ?_, fun hr => ?_⟩,
    fun hh => ⟨fun w rest hhalt hr hw => ?_, fun j hmp hj => ?_, fun hmp => ?_, ?_, fun k j h1 h64 hj => ?_, fun k hk => ?_, ?_⟩,
    fun hn ha f cause hf t ht => ⟨fun hc => ?_, fun hc hext hsize => ?_⟩, fun hn hhalt hd hh => ?_, fun hn bits => ?_,
    fun h q t hn k => ⟨fun hc hhalt => ?_, fun bits hc => ?_⟩⟩
  · have hhalt : (s.fifo n).halted = false := (Bool.or_eq_false_iff.mp hstall).1
    rw [exec_fifoWrite, State.fifoWrite_stores _ hn hh hd hhalt hfull, hw]
    rfl
  · rw [exec_fifoWrite, State.fifoWrite_stalls hn _ hstall, hw]
  · rw [exec_fifoWrite, State.fifoWrite_ignores hn _ h80 hh hd hhalt hstart hfull hsticky, hw]
  · rw [exec_fifoRead, State.fifoRead_readable hn hh hhalt hr hw]
    refine congrArg _ (State.modFifo_congr ?_)
    rw [fifoGet_readable n _ hhalt hr hw, if_neg h66]
    simp [hh]
  · rw [exec_fifoRead, State.fifoRead_unreadable s hn hh hr]
    exact congrArg _ (State.modFifo_congr (by simp [hh]))
  · rw [exec_fifoRead, State.fifoRead_readable (by decide) hh hhalt hr hw]
    refine congrArg _ (State.modFifo_congr ?_)
    rw [fifoGet_readable 66 _ hhalt hr hw, if_pos rfl]
    simp [hh]
  · refine exec_retain_done hh ?_
    simp [Fifo.retain, Fifo.advance, hmp, hj, hh]
  · exact exec_retain_refused hh (Fifo.advance_refused hmp)
  · refine exec_retain_done hh ?_
    simp [Fifo.retain, Fifo.rewindMark, hh]
  · refine exec_retain_done hh ?_
    have hlim : ¬ ((k = 0 || 64 < k) = true) := by simp; omega
    simp only [Fifo.retain, Fifo.release, if_neg hlim, hj, hh]
  · refine exec_retain_refused hh ?_
    show (s.fifo 66).release k = none
    unfold Fifo.release
    rcases hk with hk | hk | hk
    · rw [if_pos (by simp [hk])]
    · rw [if_pos (by simp [hk])]
    · rw [hk]
      exact ite_self _
  · refine exec_retain_done hh ?_
    simp [Fifo.retain, Fifo.rewindRelease, hh]
  · subst hc hf
    obtain ⟨hdrain, hrestore⟩ := State.fifoFault_alive hn ha ht
    exact ⟨fun hd => congrArg _ (hdrain hd), fun hd => congrArg _ (hrestore hd)⟩
  · subst hc hf
    obtain ⟨hdrain, hrestore⟩ := State.fifoFault_alive hn ha ht
    have hexec : exec (.fifoExtendedBodyError n) s = .next (s.fifoFault n 4 Fifo.bufferError) := by
      show execFifoExtendedBodyError n s = _
      rw [execFifoExtendedBodyError, if_pos (by simp [hext, hsize])]
    rw [hexec]
    exact ⟨fun hd => congrArg _ (hdrain hd), fun hd => congrArg _ (hrestore hd)⟩
  · show execSfqRestart none n s = _
    have hgo : ¬ ((!(s.fifo n).halted || s.mag.st = .drain) = true) := by simp [hhalt, hd]
    rw [execSfqRestart, State.regWrite, State.fifoRestarted, if_neg hgo, State.fifoRestart_idle hn hh]
  · show execSfqStickyClear none n bits s = _
    rw [execSfqStickyClear, State.regWrite, State.fifoClear_of_lt hn]
  · show execSfqRestart (some h) n s = _
    have hrun : ((t.noteWrite pSFQ_RESTART n).fifo n).halted = false := hhalt
    rw [execSfqRestart, State.regWrite_host k hc, State.fifoRestarted, if_pos (by simp [hrun])]
  · show execSfqStickyClear (some h) n bits s = _
    rw [execSfqStickyClear, State.regWrite_host k hc, State.fifoClear_of_lt hn]

end Sys2Proof.Machine
end

section
/-!
# The commands of the packer (O31)

Each command by its definition. The parts of a DS assembly and of a sector that depend on the state are first shown to be those the statement names.
-/
namespace Sys2Proof.Machine

set_option Elab.async false

section Packer
variable {s : State}

theorem exec_recordIdleTimeout_open {zone : Nat} (h : (s.openRec? zone).isSome = true) :
    exec (.recordIdleTimeout zone) s = .next ((s.pass 65 1 1).modSp (fun p =>
      { p with
        closings := p.closings + 1, arrivals := p.arrivals + 1
        recs := p.recs.map (fun r =>
          if r.zone = zone && r.closed.isNone then
            { r with closed := some p.closings, arrived := if r.at_ = r.data.length then some p.arrivals else none, crc := crc32c r.data }
          else r) })).serve := by
  show execRecordIdleTimeout zone s = _
  rw [execRecordIdleTimeout, State.closeRec, if_neg (by simp [Option.isSome_iff_ne_none.mp h])]
  rfl

/-- A block of a record in mode 0 is its own code. -/
theorem exec_compressionBlockCode_plain {engine : Nat} {r : PackRec} (hfind : s.sp.recs.find? (fun r => r.engine = engine && decide (0 < r.nextBlock)) = some r)
    (hmode : r.mode = 0) (hfree : s.engineFree engine = true) {b : Bytes} (hb : b = slice r.data r.at_ r.nextBlock) :
    exec (.compressionBlockCode engine) s = .next (((((((s.passBytes (8 + engine) b.length).modRec r (fun x =>
        { x with
          at_ := x.at_ + r.nextBlock, coded := x.coded ++ b, carried := none
          arrived := if r.closed.isSome && r.at_ + r.nextBlock = r.data.length then some s.sp.arrivals else none })).modSp (fun p =>
        { p with ovf := NMap.set 0 p.ovf engine 0, ovfWait := p.ovfWait.filter (fun e => e != engine), arrivals := p.arrivals + 1 })).bumpPv
          pCMP_IN_BYTES engine r.nextBlock).bumpPv pCMP_OUT_BYTES engine b.length)).notePeak) := by
  show execCompressionBlockCode engine s = _
  subst hb
  simp [execCompressionBlockCode, hfind, hmode, hfree]

theorem State.takeIv_ready (h : s.ivReady = true) : s.takeIv = some (s.ivBytes, s.modKeys (fun k => { k with iv := k.iv + 1 })) := if_pos h

theorem State.needMac_current {id : Nat} (h : s.keys.macCur = some id) : s.needMac = some s := if_pos (by simp [h])

theorem State.filledStream_modKeys (f : Keys → Keys) : (s.modKeys f).filledStream = s.filledStream := rfl

theorem State.stamp_modKeys (f : Keys → Keys) : (s.modKeys f).stamp = s.stamp := rfl

theorem exec_dsAssembled_ready {d : OpenDs} {rest : List OpenDs} {id : Nat} {key : Bytes} (hfilled : s.sp.filled = d :: rest)
    (hspool : s.spoolStalled = false) (hflow : s.ingestFlows = true) (hroom : s.stageRoom dsInfo = true) (hmac : s.keys.macCur = some id)
    (hkey : s.slotKey (259 + id) = some key) (hiv : s.ivReady = true) {s3 s4 : State} {img : DsImage}
    (h3 : s3 = (((s.modKeys (fun k => { k with iv := k.iv + 1 })).modSp (fun p =>
        { p with filled := rest, nextSeq := s.sp.nextSeq + 1, stageFull := false })).modRc (fun r => { r with dirs := NMap.put r.dirs s.sp.nextSeq d.dir })).noteTakes
          s.sp.nextSeq)
    (himg : img = { bytes := tagged key s.ivBytes (fitBytes dsPayload d.payload) (fun tag =>
              dsTable d s.sp.nextSeq s.sp.cartridge s.filledStream s.ivBytes id tag s.stamp s.sp.initCount)
                    group := none, persisted := false, committed := false, logOff := 0, lbas := s3.endingIn s.sp.nextSeq })
    (h4 : s3.appendImage s.sp.nextSeq img = some s4) :
    exec .dsAssembled s = .next (((((((s4.passBytes 17 dsInfo).passBytes 18 dsInfo).noteDs s.sp.nextSeq img.lbas).mapCommit (s4.sectorRecs d) []).groupAdd
      s.sp.nextSeq)).serve) := by
  show execDsAssembled s = _
  simp only [State.modKeys_sp, State.modKeys_keys, State.filledStream_modKeys, State.stamp_modKeys, execDsAssembled, State.assemble, hfilled, hspool,
    hflow, hroom, State.needMac_current hmac, hmac, Option.getD_some, hkey,
    State.takeIv_ready hiv, Bool.not_true, Bool.or_self, Bool.false_eq_true, if_false]
  have hlbas : img.lbas = s3.endingIn s.sp.nextSeq := by rw [himg]
  rw [← h3, ← himg, h4, hlbas]

theorem exec_ivCeilingRefresh_near {c : Nat} (hc : s.keys.ceiling = some c) (hnear : c ≤ s.keys.iv + 2 ^ 16) (hbusy : s.keys.ceilingBusy = none)
    (hdead : s.keys.ivDead = false) : exec .ivCeilingRefresh s = .next (s.modKeys (fun k => { k with ceilingBusy := some (c + 2 ^ 20) })) := by
  show execIvCeilingRefresh s = _
  simp only [execIvCeilingRefresh, hc]
  rw [if_pos (by simpa [hbusy, hdead] using hnear)]

section Ceiling
variable {c : Nat} {k : KeyRec} (hc : s.keys.ceilingBusy = some c) (hk : s.keys.krec = some k) (hops : s.nor.ops.any (fun o => o.area = 1) = false)
  (ha : s.mag.st.alive = true)
include hc hk hops ha

theorem exec_ivCeilingWriteDone_written {ok0 ok1 : Bool} (hok : (ok0 || ok1) = true) :
    exec (.ivCeilingWriteDone ok0 ok1) s = .next ((((s.putCopies 1 ({ k with ceiling := c, seq := (k.seq + 1) % 2 ^ 32 } : KeyRec).bytes ok0 ok1).modKeys
      (fun y => { y with ceilingBusy := none })).modKeys (fun y =>
        { y with krec := some { k with ceiling := c, seq := (k.seq + 1) % 2 ^ 32 }, ceiling := some c, recDirty := false })).serve) := by
  show execIvCeilingWriteDone ok0 ok1 s = _
  simp only [execIvCeilingWriteDone, hc, hk]
  rw [if_neg (by simp [ha, ne_true_of_eq_false hops]), if_pos hok]

theorem exec_ivCeilingWriteDone_lost :
    exec (.ivCeilingWriteDone false false) s = .next ((((((s.putCopies 1 ({ k with ceiling := c, seq := (k.seq + 1) % 2 ^ 32 } : KeyRec).bytes false
      false).modKeys (fun y => { y with ceilingBusy := none })).modKeys (fun y => { y with ivDead := true })).noteFault 8).raise 0x7C4 1 []).raise 0x7F3
        1 []) := by
  show execIvCeilingWriteDone false false s = _
  simp only [execIvCeilingWriteDone, hc, hk]
  rw [if_neg (by simp [ha, ne_true_of_eq_false hops]), if_neg (by simp)]

end Ceiling

end Packer

/-- What a sector of record `r` makes of the state in which its key has been looked for: the part of XTS_SECTOR_ENCRYPT behind the choice of the record. -/
def State.encryptSector (t : State) (r : PackRec) : State :=
  match t.xtsKey r.keyId with
  | none => t
  | some key =>
    let len := bodyLen r.coded.length
    let next := (NMap.find? t.sp.ctxs r.ctx).elim 0 (fun c => c.next)
    let first := if r.body.isEmpty then next else r.sector0
    let u := if r.body.isEmpty then t.modSp (fun p => { p with ctxs := NMap.modify p.ctxs r.ctx (fun c => { c with next := c.next + (len + 4095) / 4096 }) }) else t
    let plain := slice (fitBytes len r.coded) r.body.length 4096
    let sec := xtsEncrypt key (r.ctx * 2 ^ 64 + first + r.body.length / 4096) plain
    let done := decide (len ≤ r.body.length + sec.length)
    let v := u.modRec r (fun x => { x with sector0 := first, body := x.body ++ sec, done })
    if done then (State.enterRecs v.sp.recs.length v).serve else v

section Sector
variable {t : State} {r : PackRec} {key : Bytes} (hkey : t.xtsKey r.keyId = some key)
include hkey

/-- The first sector takes the next sector indices of the context, as many as the body has. -/
theorem State.encryptSector_first (hbody : r.body = []) {len next : Nat} {sec : Bytes} {v : State} (hlen : len = bodyLen r.coded.length)
    (hnext : next = (NMap.find? t.sp.ctxs r.ctx).elim 0 (fun c => c.next))
    (hsec : sec = xtsEncrypt key (r.ctx * 2 ^ 64 + next) (slice (fitBytes len r.coded) r.body.length 4096))
    (hv : v = (t.modSp (fun p => { p with ctxs := NMap.modify p.ctxs r.ctx (fun c => { c with next := c.next + (len + 4095) / 4096 }) })).modRec r
      (fun x => { x with sector0 := next, body := x.body ++ sec, done := decide (len ≤ sec.length) })) :
    t.encryptSector r = if len ≤ sec.length then (State.enterRecs v.sp.recs.length v).serve else v := by
  subst hlen hnext hsec hv
  simp [State.encryptSector, hkey, hbody]

/-- Each later sector takes the next index behind the first. -/
theorem State.encryptSector_next (hbody : r.body ≠ []) {len : Nat} {sec : Bytes} {v : State} (hlen : len = bodyLen r.coded.length)
    (hsec : sec = xtsEncrypt key (r.ctx * 2 ^ 64 + r.sector0 + r.body.length / 4096) (slice (fitBytes len r.coded) r.body.length 4096))
    (hv : v = t.modRec r (fun x => { x with sector0 := r.sector0, body := x.body ++ sec, done := decide (len ≤ r.body.length + sec.length) })) :
    t.encryptSector r = if len ≤ r.body.length + sec.length then (State.enterRecs v.sp.recs.length v).serve else v := by
  subst hlen hsec hv
  have hempty : r.body.isEmpty = false := by simpa using hbody
  simp [State.encryptSector, hkey, hempty]

end Sector

/-- Settles O31. -/
theorem packerCommandsAct : Obligations.PackerCommandsAct := by
  unfold Obligations.PackerCommandsAct
  refine ⟨fun s => ⟨fun zone => exec_recordIdleTimeout_open, fun engine r hfind hmode hfree b => exec_compressionBlockCode_plain hfind hmode hfree, fun _ => rfl,
    fun d rest id key hfilled hspool hflow hroom hmac hkey hiv s3 s4 img => exec_dsAssembled_ready hfilled hspool hflow hroom hmac hkey hiv,
    fun c => exec_ivCeilingRefresh_near,
    fun c k hc hk hops ha => ⟨fun ok0 ok1 => exec_ivCeilingWriteDone_written hc hk hops ha, exec_ivCeilingWriteDone_lost hc hk hops ha⟩⟩,
    fun s r hback hnext => ?_⟩
  intro t len next plain
  have hexec : exec .xtsSectorEncrypt s = .next (t.encryptSector r) := by
    show execXtsSectorEncrypt s = _
    simp only [execXtsSectorEncrypt, hback, hnext, Bool.false_eq_true, if_false]
      <;> rfl
  rw [hexec]
  refine ⟨fun hkey => ?_, fun key sec v hkey hbody hsec hv => ?_, fun key sec v hkey hbody hsec hv => ?_⟩
  · simp only [State.encryptSector, hkey]
  · rw [State.encryptSector_first hkey hbody rfl rfl hsec hv]
    exact ⟨fun hlt => by rw [if_neg (Nat.not_le.mpr hlt)], fun hle => by rw [if_pos hle]⟩
  · rw [State.encryptSector_next hkey hbody rfl hsec hv]
    exact ⟨fun hlt => by rw [if_neg (Nat.not_le.mpr hlt)], fun hle => by rw [if_pos hle]⟩

end Sys2Proof.Machine
end

section
/-!
# Kernels and the compute cluster (O32 to O34)

Loading, invoking and unloading kernels; what ends or holds an invocation; the rings of a core and the cipher lock.
-/
namespace Sys2Proof.Machine

set_option Elab.async false

/-! ### Kernel commands -/

/-- A kernel is created when a number, a place, the key slots and, for keys, the TRNG are there (R364). -/
theorem State.createInst_room {t : State} {q i base nslots : Nat} {img : Bytes} {rom : Option Nat} {k0 : Kern}
    (hslots : nslots = if rom.isSome then 0 else leAt img 0x80 1)
    (hk : k0 = { image := img, rom, wins := imageWins img, entry := 0x10000 + leAt img 0x1C 4, sp := 0x10000 + imageRegion img
                 region := imageRegion img, base := 0, slots := t.freeKernSlots.take nslots, frozen := false, count := 0 })
    (hi : (List.range 256).find? (fun i => (NMap.find? t.comp.kerns i).isNone) = some i) (hb : t.compAlloc k0.bytes = some base)
    (hmax : t.comp.kerns.length < t.pn pCCL_INST_MAX) (hfree : nslots ≤ t.freeKernSlots.length) (htrng : nslots ≠ 0 → t.keys.trngOk = true) :
    t.createInst q img rom = ((k0.slots.foldl (fun v x => (v.loadSlot x (v.trngBytes 32) 0).drawn 1) (t.modComp (fun p =>
      { p with kerns := NMap.put p.kerns i { k0 with base } }))).putBytes 16 base (fitBytes k0.region (img.take (imageDataEnd img)))).complete
        q stOk i 0 [] := by
  have hroom : ¬ ((t.pn pCCL_INST_MAX ≤ t.comp.kerns.length || t.freeKernSlots.length < nslots || (nslots != 0 && !t.keys.trngOk)) = true) := by
    simpa [Nat.not_le.mpr hmax, Nat.not_lt.mpr hfree] using htrng
  unfold State.createInst
  dsimp only
  rw [← hslots, ← hk, hi, hb]
  dsimp only
  rw [if_neg hroom, hk]

/-- Settles O32. -/
theorem kernelCommandsComplete : Obligations.KernelCommandsComplete := by
  unfold Obligations.KernelCommandsComplete
  intro s t h q
  refine ⟨fun k => ⟨fun d10 image c hc => ?_, fun i base nslots img rom k0 hk hi hb hmax hfree htrng u hu =>
      ⟨fun d10 image himg hrom hslots hc => ?_, fun number hn himg hrom hslots => ?_⟩, fun inst x hx => ?_⟩,
    fun k d10 block h1 h2 h4 => ⟨fun hx => ?_, fun x hx hfrozen => ?_, fun x bs base hx hfrozen hbinds htape hside hcores halloc => ?_⟩⟩
  · show execKernelLoad h d10 image s = _
    simp only [execKernelLoad, State.adminCmd_runs _ _ k, hc]
  · show execKernelLoad h d10 image s = _
    subst hrom
    simp only [execKernelLoad, State.adminCmd_runs _ _ k, himg.symm, hc]
    rw [hu, State.createInst_room (by rw [hslots]; rfl) hk hi hb hmax hfree htrng]
  · show execKernelLoadRom h number s = _
    rw [execKernelLoadRom, State.adminCmd_runs _ _ k, if_neg (Nat.not_lt.mpr hn), hu, ← hrom, ← himg,
      State.createInst_room (by rw [hslots, hrom]; rfl) hk hi hb hmax hfree htrng]
  · show execKernelUnload h inst s = _
    simp only [execKernelUnload, State.adminCmd_runs _ _ k, hx]
  · show execKernelInvoke h 0xFFFFFFFF d10 block s = _
    rw [execKernelInvoke, State.ioCmd_runs _ k]
    dsimp only
    rw [if_neg (by simp), if_neg (by simp [h4]; omega), hx]
  · show execKernelInvoke h 0xFFFFFFFF d10 block s = _
    rw [execKernelInvoke, State.ioCmd_runs _ k]
    dsimp only
    rw [if_neg (by simp), if_neg (by simp [h4]; omega), hx]
    exact congrArg (fun u : State => (.next u.goOn : Out)) (if_pos hfrozen)
  · show execKernelInvoke h 0xFFFFFFFF d10 block s = _
    rw [execKernelInvoke, State.ioCmd_runs _ k]
    dsimp only
    rw [if_neg (by simp), if_neg (by simp [h4]; omega), hx]
    dsimp only
    rw [if_neg (by simp [hfrozen]), hbinds]
    dsimp only
    rw [if_neg (by simpa using htape), if_neg (by simpa using hside), if_neg hcores, halloc]

/-! ### A core and what runs on it -/

@[simp] theorem State.core_modCore (s : State) (c : Nat) (f : Core → Core) : (s.modCore c f).core c = f (s.core c) := NMap.get_upd_same _ _ _ _

/-- A change of a core that leaves its invocation leaves what runs on it. -/
theorem State.running_modCore {s : State} {c : Nat} {f : Core → Core} (h : (f (s.core c)).run = (s.core c).run) :
    (s.modCore c f).running c = s.running c := by
  unfold State.running
  rw [State.core_modCore, h]
  rfl

section Executing
variable {s : State} {core : Nat} {v : Invoc} {k : Kern}

theorem State.running_of_executing (h : s.executing core = some (v, k)) : s.running core = some (v, k) := by
  unfold State.executing at h
  split at h
  · cases h
  · exact h

theorem State.run_of_running (h : s.running core = some (v, k)) : (s.core core).run = some v ∧ NMap.find? s.comp.kerns v.inst = some k := by
  obtain ⟨w, hw, h⟩ := Option.bind_eq_some_iff.mp h
  obtain ⟨x, hx, h⟩ := Option.map_eq_some_iff.mp h
  cases h
  exact ⟨hw, hx⟩

theorem State.endInvocation_running {st : Status} {dw0 dw1 : Nat} (h : (s.core core).run = some v) :
    s.endInvocation core st dw0 dw1 = (s.complete v.seq st dw0 dw1 []).modCore core (fun x => x.stop none) := by
  simp only [State.endInvocation, h]

theorem State.core_raise (evt cause : Nat) (data : Bytes) : (s.raise evt cause data).core core = s.core core := by
  simp only [State.core, State.raise_comp]

/-- A trap ends the invocation with its code and address (R377). -/
theorem State.trap_running {code pc : Nat} (h : s.running core = some (v, k)) : s.trap core code pc =
    ((((s.raise 0x711 1 []).complete v.seq stKernelTrap code (pc % 2 ^ 32) []).modCore core (fun x => x.stop none)).dropUnwanted) := by
  have hrun : ((s.raise 0x711 1 []).core core).run = some v := by rw [State.core_raise]; exact (State.run_of_running h).1
  rw [State.trap, if_neg (by simp [h]), State.endInvocation_running hrun]

/-- An invocation that returns no result ends with `a0`. -/
theorem State.finishInvocation_plain {a0 a1 : Nat} (h : s.running core = some (v, k)) (hex : (s.core core).exiting = some (a0, a1))
    (hwb : v.wb = false) : s.finishInvocation core =
      ((s.bumpPv pCCL_INVOKES 0 1).complete v.seq stOk (a0 % 2 ^ 32) 0 []).modCore core (fun x => x.stop none) := by
  simp only [State.finishInvocation, h, hex, hwb, Bool.false_eq_true, if_false]
  cases (k.winOf 3).bind (fun w => k.inWindow (some v) (winAddr w) 0 1) with
  | none => rfl
  | some a => rfl

/-- An access without the right freezes the kernel. -/
theorem State.freeze_running {addr cause c : Nat} (hk : NMap.find? s.comp.kerns v.inst = some k) (hf : k.frozen = false)
    (hc : s.runCore v.inst = some c) : s.freeze v.inst addr cause =
      ((s.freezeInst v.inst addr).noteFault 0x0E).raise (0x700 + c) cause (leBytes 1 v.inst ++ leBytes 8 addr) := by
  simp only [State.freeze, hk, hf, hc, Bool.false_eq_true, if_false]

end Executing

/-! ### Invocations -/

/-- Settles O33. -/
theorem invocationsRun : Obligations.InvocationsRun := by
  unfold Obligations.InvocationsRun
  intro s
  refine ⟨fun v c k ha hd hth hflow hv hc hk => ?_, fun core v k hexec => ⟨fun a0 a1 pc hex hfit t ht => ⟨fun hleft => ?_, fun hdma hsq hwb => ?_⟩,
    fun a7 a0 a1 pc hex hbad => ?_, fun pc hex => ?_, fun code pc => ?_, ?_, fun kind addr hviol hfrozen c hc => ?_, fun kind addr hviol => ?_⟩,
    fun core hpow hrun hfrozen => ?_⟩
  · show execInvocationStart s = _
    rw [execInvocationStart, if_neg (by simp [ha, hd, hth, hflow])]
    simp only [hv, hc, hk]
  · show execEcallExit core 0 a0 a1 pc s = _
    subst ht
    simp only [execEcallExit, hexec]
    rw [if_neg (by simp [hex]), if_neg (by simpa using hfit), State.core_modCore, if_neg (by simpa [or_iff_not_imp_left] using hleft)]
  · show execEcallExit core 0 a0 a1 pc s = _
    have hrun := State.running_of_executing hexec
    subst ht
    simp only [execEcallExit, hexec]
    rw [if_neg (by simp [hex]), if_neg (by simpa using hfit), State.core_modCore, if_pos (by simp [hdma, hsq]),
      State.finishInvocation_plain ((State.running_modCore rfl).trans hrun) (by rw [State.core_modCore]) hwb]
  · show execEcallExit core a7 a0 a1 pc s = _
    simp only [execEcallExit, hexec]
    rw [if_neg (by simp [hex]), if_pos (by simpa using hbad), State.trap_running (State.running_of_executing hexec)]
  · show execWfiWait core pc s = _
    rw [execWfiWait, if_pos (by simp [hexec, hex])]
  · show execKernelTrap core code pc s = _
    rw [execKernelTrap, if_pos (by simp [hexec]), State.trap_running (State.running_of_executing hexec)]
  · show execInvocationTimeLimit core s = _
    have hrun : ((s.raise 0x711 2 []).core core).run = some v := by
      rw [State.core_raise]
      exact (State.run_of_running (State.running_of_executing hexec)).1
    rw [execInvocationTimeLimit, if_pos (by simp [hexec]), State.endInvocation_running hrun]
  · show execWindowViolation core kind addr s = _
    simp only [execWindowViolation, hexec]
    rw [if_pos hviol, State.freeze_running (State.run_of_running (State.running_of_executing hexec)).2 hfrozen hc]
  · show execWindowViolation core kind addr s = _
    simp only [execWindowViolation, hexec]
    rw [if_neg (by simp [hviol])]
  · show execCoreIdlePowerDown core s = _
    rw [execCoreIdlePowerDown, if_pos (by simp [hpow, hrun, hfrozen])]

/-! ### Rings and the cipher lock -/

section Rings
variable {s : State} {core : Nat}

/-- With FIFO 77 halted no descriptor starts. -/
theorem State.runDma_halted (h : s.flows 77 = false) : s.runDma core = s.readAll.goOn := by
  simp only [State.runDma, h, Bool.false_eq_true, if_false]

/-- With no descriptor behind the head none starts. -/
theorem State.startDma_empty (h : (s.core core).sqh = (s.core core).sqt) (n : Nat) : State.startDma core n s = s := by
  cases n with
  | zero => rfl
  | succ n =>
    unfold State.startDma
    split
    · rfl
    · exact if_pos (by simp [h])

theorem State.runDma_empty (h : (s.core core).sqh = (s.core core).sqt) : s.runDma core = s.readAll.goOn := by
  unfold State.runDma
  rw [State.startDma_empty h, ite_self]

end Rings

theorem State.modKeys_congr {s : State} {f g : Keys → Keys} (h : f s.keys = g s.keys) : s.modKeys f = s.modKeys g := by
  simp only [State.modKeys, h]

/-- Settles O34. -/
theorem computeDmaActs : Obligations.ComputeDmaActs := by
  unfold Obligations.ComputeDmaActs
  intro s core
  refine ⟨fun v k sqb sqsz cqb cqsz tail hexec hex => ⟨fun hbad => ?_, fun hsq htail hcq t ht => ?_⟩, fun head hexec hhead t ht => ?_,
    fun v k d r t a hrun hsz hfull hflow hex hdma hout hwin u w hu hw hwex => ?_,
    fun v k hexec => ⟨fun hlock => ?_, fun hlock => ⟨fun hmsg hsusp hqueue => ?_, fun hqueue => ?_⟩⟩⟩
  · show execKdsqtDoorbell core sqb sqsz cqb cqsz tail s = _
    simp only [execKdsqtDoorbell, hexec]
    rw [if_neg (by simp [hex]), if_pos (by simpa using hbad)]
  · have hbell : exec (.kdsqtDoorbell core sqb sqsz cqb cqsz tail) s = .next (t.runDma core) := by
      show execKdsqtDoorbell core sqb sqsz cqb cqsz tail s = _
      simp only [execKdsqtDoorbell, hexec]
      rw [if_neg (by simp [hex]), if_neg (by simp [hsq, htail]), if_neg (by simp [hcq]), ht]
    have htail' : (t.core core).sqt = tail := by rw [ht, State.core_modCore]
    refine ⟨hbell, fun hflow => ?_, fun hempty => ?_⟩
    · have hflow' : t.flows 77 = false := by rw [ht]; exact hflow
      rw [hbell, State.runDma_halted hflow']
    · rw [hbell, State.runDma_empty (hempty.trans htail'.symm)]
  · have hhw : exec (.kdcqhWrite core head) s = .next (t.runDma core) := by
      show execKdcqhWrite core head s = _
      rw [execKdcqhWrite, if_neg (by simp [Option.isSome_iff_ne_none.mp hexec, hhead]), ht]
    refine ⟨hhw, fun hempty => ?_⟩
    have hempty' : (t.core core).sqh = (t.core core).sqt := by rw [ht, State.core_modCore]; exact hempty
    rw [hhw, State.runDma_empty hempty']
  · show execDmaDescriptorComplete core s = _
    simp only [execDmaDescriptorComplete, hrun]
    rw [if_neg (by simp [hsz, hfull, hflow])]
    simp only [hdma, List.zipIdx_cons, List.zipIdx_nil, List.findSome?_cons, hout, hwin]
    rw [if_neg (by decide), ← hu, ← hw, if_neg (by simp [hwex])]
  · show execKlockRequest core s = _
    simp only [execKlockRequest, hexec]
    rw [if_pos hlock]
  · show execKlockRelease core s = _
    simp only [execKlockRelease, hexec]
    rw [if_pos hlock]
    unfold State.lockSettle
    refine congrArg _ ((State.modKeys_modKeys _ _ _).trans (State.modKeys_congr ?_))
    dsimp only
    rw [if_pos (by simp [hlock, hmsg, hsusp, ne_true_of_eq_false hqueue])]
  · show execKlockRelease core s = _
    simp only [execKlockRelease, hexec]
    rw [if_pos hlock]
    unfold State.lockSettle
    refine congrArg _ ((State.modKeys_modKeys _ _ _).trans (State.modKeys_congr ?_))
    dsimp only
    rw [if_neg (by simp [hlock, hqueue])]

end Sys2Proof.Machine
end

section

/-! # The cluster cache -/

namespace Sys2Proof.Machine

set_option Elab.async false

/-! ## One access at a bank where nothing waits, and the end of a fill -/

/-- An access without an error leaves the array as it is. -/
theorem State.cacheError_zero (s : State) {r : CReq} (h : r.err = 0) : s.cacheError r = s := by
  simp only [State.cacheError, h, OfNat.zero_ne_ofNat, decide_false, Bool.false_and, Bool.false_eq_true, zero_ne_one, if_false]
  cases s.entry r.line <;> rfl

/-- The only request of a bank is tried once, while no clean runs. -/
theorem State.cacheReq_alone {s t u : State} {r : CReq} (hc : s.cache.clean = none) (hq : s.bankQueue (lineBank r.line) = [])
    (ht : t = (s.setQueue (lineBank r.line) [r]).setQueue (lineBank r.line) []) (hu : t.tryReq r = some u) : s.cacheReq r = u := by
  have hq' : (s.setQueue (lineBank r.line) [r]).bankQueue (lineBank r.line) = [r] := by
    simp [State.bankQueue, State.setQueue]
  have hc' : (s.setQueue (lineBank r.line) [r]).cache.clean.isSome = false := by simp [State.setQueue, hc]
  simp only [State.cacheReq, hq, List.nil_append, hq', List.length_singleton]
  rw [State.pump, if_neg (by simp [hc'])]
  simp only [hq', ← ht, hu]
  rfl

/-- Hits of a way. -/
theorem State.tryReq_way {s : State} {r : CReq} {w : Nat} {x : CLine} (he : r.err = 0) (hl : s.lookup r.line = .way w)
    (hx : NMap.find? (s.cset r.line).lines w = some x) :
    s.tryReq r = some (((s.useLine r x).2.install r.line w (s.useLine r x).1 true).2.bumpPv pCCA_HITS r.q 1) := by
  simp only [State.tryReq, State.cacheError_zero s he, State.serveHit, hl, hx, Option.map_some]

/-- A miss of a bank whose miss slot is free. -/
theorem State.tryReq_miss {s : State} {r : CReq} (he : r.err = 0) (hl : s.lookup r.line = .absent) (hm : s.missOf (lineBank r.line) = none) :
    s.tryReq r = some (s.startMiss r) := by
  simp only [State.tryReq, State.cacheError_zero s he, State.serveHit, hl, hm]

/-- Where nothing waits nothing is served. -/
theorem State.pump_nil (s : State) {b : Nat} (h : s.bankQueue b = []) : s.pump b (s.bankQueue b).length = s := by
  rw [h]
  rfl

/-- A fill that nothing waits for puts its line as the buffer holds it. -/
theorem State.fillLine_unawaited {s u : State} {b : Nat} {m : Miss} (hm : s.missOf b = some m) (hw : m.wait = [])
    (hu : (s.modCache (fun c => { c with miss := NMap.del c.miss b })).allocate m.q m.line
      { tag := lineTag m.line, dirty := false, data := s.bufLine m.line } (!m.pf) = some u) : s.fillLine b = u := by
  have hb : (s.modCache (fun c => { c with miss := NMap.del c.miss b })).bufLine m.line = s.bufLine m.line := rfl
  simp only [State.fillLine, hm, hw, List.foldl_nil, List.isEmpty_nil, Bool.and_true, hb, hu]

theorem State.fillLine_of_miss_nil {s : State} (h : s.cache.miss = []) (b : Nat) : s.fillLine b = s := by
  simp [State.fillLine, State.missOf, h]

/-! ## Range operations and cleans with no fill outstanding -/

/-- With no clean due nothing starts. -/
theorem State.cleanDue_of_nil {s : State} (h : s.cache.due = []) : s.cleanDue = s := by
  simp only [State.cleanDue, h, ite_self]

theorem State.rangeEnd_no_miss {s : State} {op first n : Nat} (hm : s.cache.miss = []) (hd : s.cache.due = [])
    (hr : s.cache.range = some (op, first, n)) :
    s.rangeEnd = s.modCache (fun c =>
      { c.writeBack (fun l _ => decide (first ≤ l) && decide (l < first + n)) (fun l => decide (first ≤ l) && decide (l < first + n)) (op = 2) with
        range := none }) := by
  have hmiss (b : Nat) : s.missOf b = none := by simp [State.missOf, hm]
  simp only [State.rangeEnd, hr]
  rw [List.foldl_fixed' (fun b => by simp [hmiss])]
  exact State.cleanDue_of_nil hd

theorem State.cleanEnd_no_miss {s : State} {ws : List Nat} {vict : Bool} (hm : s.cache.miss = []) (hd : s.cache.due = [])
    (hw : s.cache.wait = []) (hc : s.cache.clean = some (ws, vict)) :
    s.cleanEnd = s.modCache (fun c =>
      { c.writeBack (fun _ w => ws.contains w) (fun _ => vict) true with
        ways := wayBits ((wayList c.ways).filter (fun w => !ws.contains w)), clean := none }) := by
  simp only [State.cleanEnd, hc]
  rw [List.foldl_fixed' (fun b => State.fillLine_of_miss_nil hm b), State.cleanDue_of_nil,
    List.foldl_fixed' (fun b => State.pump_nil _ (by simp [State.bankQueue, Cache.writeBack, hw, NMap.get]))]
  exact hd

/-! ## The registers -/

/-- A way mask with no way to clean only wakes ways. -/
theorem State.setWays_on {s : State} {ws : List Nat} (h : (wayList s.cache.ways).filter (fun w => !ws.contains w) = []) :
    s.setWays ws false = s.modCache (fun c => { c with waking := wayBits (ws.filter (fun w => !Nat.testBit c.ways w)) }) := by
  simp only [State.setWays, h]
  rfl

/-- Ways that go, or the cache switched off, start a clean. -/
theorem State.setWays_clean {s : State} {ws : List Nat} {off : Bool}
    (h : off = true ∨ (wayList s.cache.ways).filter (fun w => !ws.contains w) ≠ []) :
    s.setWays ws off = s.modCache (fun c =>
      { c with
        waking := wayBits (ws.filter (fun w => !Nat.testBit c.ways w))
        clean := some ((wayList s.cache.ways).filter (fun w => !ws.contains w), off) }) := by
  rw [State.setWays]
  refine if_neg ?_
  rcases h with h | h
  · simp [h]
  · simp only [List.isEmpty_eq_false_iff.mpr h, Bool.false_and, Bool.false_eq_true, not_false_eq_true]

theorem State.rangeOwn_free {s : State} {op : Nat} (hc : s.cache.clean = none) (hr : s.cache.range = none) :
    s.rangeOwn op = s.modCache (fun c => { c with range := some (op, (compBase + s.pn pCCA_RNG_BASE) / 64, s.pn pCCA_RNG_LEN / 64) }) := by
  rw [State.rangeOwn, if_neg (by simp [hc, hr]), State.rangeStart]

/-- Settles O35: the bank's only request, the end of a fill, and what each register write and completion does. -/
theorem cacheCommandsAct : Obligations.CacheCommandsAct := by
  unfold Obligations.CacheCommandsAct
  refine ⟨fun s => ⟨fun hal hcl => ⟨fun q addr w x data hreg hq r hr t ht hl hx => ⟨?_, ?_⟩, fun q addr wr data hreg hq r hr t ht hl hm => ?_,
      fun bank m u hm hw hu hb => ?_⟩,
    fun hcl hrg t ht => ⟨?_, ?_⟩, fun hcl value h16 h2 t gone ht hg => ⟨fun hen => ?_, fun hen u hu => ⟨fun h0 => ?_, fun h0 => ?_⟩⟩,
    fun hcl value t ht => ⟨fun hv he => ?_, fun hv he => ?_, fun want hv he hw h0 => ?_⟩,
    fun h q t k => ⟨fun hcl hrg u hu => ⟨fun hc => ?_, fun hc => ?_⟩, fun value st j => ⟨fun hc => ?_, fun hc => ?_⟩⟩,
    fun hm hd => ⟨fun op first n hr => ?_, fun ws vict hc hw => ?_⟩, rfl⟩, fun s way h16 hf hmany => ?_⟩
  · subst hr
    show execCacheAccess q false addr data 0 s = _
    rw [execCacheAccess, if_pos (by simp [hal, hreg]), State.cacheReq_alone (r := ⟨_, _, addr, data, 0⟩) hcl hq ht (State.tryReq_way rfl hl hx)]
    rfl
  · subst hr
    show execCacheAccess q true addr data 0 s = _
    have hlook : ((s.setQueue (lineBank (addr / 64)) [⟨q, true, addr, data, 0⟩]).setQueue (lineBank (addr / 64)) []).lookup (addr / 64) = .way w := by
      rw [← hl, ht]
      rfl
    rw [execCacheAccess, if_pos (by simp [hal, hreg]),
      State.cacheReq_alone (r := ⟨_, _, addr, data, 0⟩) hcl hq rfl (State.tryReq_way rfl hlook (by rw [← hx, ht]; rfl))]
    rfl
  · subst hr
    show execCacheAccess q wr addr data 0 s = _
    rw [execCacheAccess, if_pos (by simp [hal, hreg]), State.cacheReq_alone (r := ⟨_, _, addr, data, 0⟩) hcl hq ht (State.tryReq_miss rfl hl hm)]
  · show execCacheMissFillComplete bank s = _
    rw [execCacheMissFillComplete, if_pos hal, State.fillDone, State.fillLine_unawaited hm hw hu, State.pump_nil u hb]
  · subst ht
    exact congrArg (fun u => Host.Outcome.next u.goOn) (State.rangeOwn_free hcl hrg)
  · subst ht
    exact congrArg (fun u => Host.Outcome.next u.goOn) (State.rangeOwn_free hcl hrg)
  · show execCcaWayEnWrite none value s = _
    simp [execCcaWayEnWrite, State.regWrite, hcl, Nat.not_le.mpr h16, Nat.not_lt.mpr h2, State.wayEnable, ← ht, hen]
  · subst hg hu
    show execCcaWayEnWrite none value s = _
    simp [execCcaWayEnWrite, State.regWrite, hcl, Nat.not_le.mpr h16, Nat.not_lt.mpr h2, State.wayEnable, ← ht, hen, State.setWays_on h0]
  · subst hg hu
    show execCcaWayEnWrite none value s = _
    simp [execCcaWayEnWrite, State.regWrite, hcl, Nat.not_le.mpr h16, Nat.not_lt.mpr h2, State.wayEnable, ← ht, hen, State.setWays_clean (.inr h0)]
    rfl
  · show execCcaEnableWrite none value s = _
    simp [execCcaEnableWrite, State.regWrite, hcl, Nat.not_le.mpr hv, State.cacheEnable, ← ht, ← he]
  · subst hv
    show execCcaEnableWrite none 0 s = _
    simp [execCcaEnableWrite, State.regWrite, hcl, State.cacheEnable, ← ht, he, State.setWays_clean (.inl rfl)]
  · subst hv hw
    show execCcaEnableWrite none 1 s = _
    simp [execCcaEnableWrite, State.regWrite, hcl, State.cacheEnable, ← ht, he, State.setWays_on h0]
  · subst hu
    show execCcaRangeClean (some h) s = _
    rw [execCcaRangeClean, State.regWrite_host k hc, State.rangeOwn_free (s := t.noteWrite pCCA_RNG_OP 0) hcl hrg]
    rfl
  · subst hu
    show execCcaRangeCleanInvalidate (some h) s = _
    rw [execCcaRangeCleanInvalidate, State.regWrite_host k hc, State.rangeOwn_free (s := t.noteWrite pCCA_RNG_OP 0) hcl hrg]
    rfl
  · show execCcaWayEnWrite (some h) value s = _
    rw [execCcaWayEnWrite, State.regWrite_refused k hc]
  · show execCcaEnableWrite (some h) value s = _
    rw [execCcaEnableWrite, State.regWrite_refused k hc]
  · exact congrArg Host.Outcome.next (State.rangeEnd_no_miss hm hd hr)
  · exact congrArg (fun u => Host.Outcome.next u.goOn) (State.cleanEnd_no_miss hm hd hw hc)
  · have hgo : ¬ (!((s.cache.ceAt = s.rtcSec && decide (9 ≤ NMap.get 0 s.cache.ceSec way)) || decide (2 ≤ s.pni pCCA_UE_CNT way)) ||
        Nat.testBit s.cache.fail way || decide (16 ≤ way)) = true := by
      rcases hmany with ⟨hat, h9⟩ | h2
      · simp [hf, Nat.not_le.mpr h16, hat, h9]
      · simp [hf, Nat.not_le.mpr h16, h2]
    refine ⟨_, rfl, fun h2 => ?_, fun h2 => ?_⟩
    · show execHardwareWayDisable way s = _
      simp only [execHardwareWayDisable, if_neg hgo, if_neg (Nat.not_lt.mpr h2)]
    · show execHardwareWayDisable way s = _
      simp only [execHardwareWayDisable, if_neg hgo, if_pos h2]

end Sys2Proof.Machine

end

section

/-! # The service pool of the cipher, and FSYNC -/

namespace Sys2Proof.Machine

set_option Elab.async false

/-! ## The service pool -/

@[simp] theorem State.pass_keys (s : State) (n k high : Nat) : (s.pass n k high).keys = s.keys := rfl

@[simp] theorem State.passBytes_keys (s : State) (n b : Nat) : (s.passBytes n b).keys = s.keys := rfl

@[simp] theorem State.bumpPv_keys (s : State) (pid i n : Nat) : (s.bumpPv pid i n).keys = s.keys := by
  unfold State.bumpPv
  split <;> rfl

/-- On an idle pool a message that is taken starts. -/
theorem State.poolTake_idle {s : State} {m : PoolMsg} (hm : s.keys.msg = none) (hs : s.keys.suspended = none) :
    s.poolTake m = (s.pass 74 4 4).modKeys (fun k => { k with msg := some m }) := by
  rw [State.poolTake]
  exact State.modKeys_congr (if_pos (by simp [hm, hs]))

/-- While one runs it waits. -/
theorem State.poolTake_busy {s : State} {m r : PoolMsg} (hm : s.keys.msg = some r) :
    s.poolTake m = (s.pass 74 4 4).modKeys (fun k => { k with queue := k.queue ++ [m] }) := by
  rw [State.poolTake]
  exact State.modKeys_congr (if_neg (by simp [hm]))

/-- A request of Ringmaster's finds the lock free (R278). -/
theorem State.poolRequest_own {s t : State} {m : PoolMsg} (h1 : 1 ≤ m.req) (h4 : m.req < 4) (hl : s.keys.lock = 0)
    (ht : t = s.modKeys (fun k => { k with lock := m.req, lockRelease := true })) :
    s.poolRequest m = if t.poolValid m then t.poolTake m else (t.poolResult m 5 0 [] []).lockSettle := by
  have hk : (if 0x100 ≤ m.req then NMap.find? s.comp.kerns (m.req - 0x100) else none) = none := if_neg (by omega)
  have hlock : t.keys.lock = m.req := by rw [ht]; rfl
  simp only [State.poolRequest, hk]
  rw [if_neg (by simp [Nat.not_le.mpr h4]; omega), if_pos hl, ← ht, if_neg (by simp [hlock])]
  cases t.poolValid m <;> rfl

/-- A request of the kernel that owns the lock and the slot. -/
theorem State.poolRequest_kernel {s : State} {m : PoolMsg} {k : Kern} (h : 0x100 ≤ m.req) (hk : NMap.find? s.comp.kerns (m.req - 0x100) = some k)
    (hop : poolReserved m.op = false) (hslot : k.slots.contains m.slot = true) (hl : s.keys.lock = m.req) (hu : m.urgent = false) :
    s.poolRequest m = if s.poolValid m then s.poolTake m else s.poolResult m 5 0 [] [] := by
  simp only [State.poolRequest, if_pos h, hk]
  rw [if_neg (by simp; omega), if_neg (by simp [hop, List.contains_iff_mem.mp hslot])]
  cases hv : s.poolValid m
  · exact if_pos (by simp)
  · exact if_neg (by simp [hl, hu])

/-- The urgent message that a request of `requester` with these words and data makes: bit 8 of the first word is set. -/
def urgentMsg (requester w0 w1 w2 w3 : Nat) (data : Bytes) : PoolMsg :=
  { req := requester, w0 := if Nat.testBit w0 8 then w0 else w0 + 256, w1, w2, w3, data }

/-- A valid urgent request of Ringmaster's. -/
theorem exec_poolUrgent_own {s : State} {requester w0 w1 w2 w3 : Nat} {data : Bytes} (hal : s.mag.st.alive = true) (h63 : s.flows 63 = true)
    (h74 : s.flows 74 = true) (h75 : s.flows 75 = true) (h1 : 1 ≤ requester) (h4 : requester < 4)
    (hv : s.poolValid (urgentMsg requester w0 w1 w2 w3 data) = true) :
    exec (.servicePoolUrgentRequest requester w0 w1 w2 w3 data) s = .next (match s.keys.msg with
      | none => ((s.pass 74 4 4).passBytes 63 data.length).modKeys (fun k => { k with msg := some (urgentMsg requester w0 w1 w2 w3 data) })
      | some r =>
        if r.urgent then ((s.pass 74 4 4).passBytes 63 data.length).modKeys (fun k =>
          { k with urgent := k.urgent ++ [urgentMsg requester w0 w1 w2 w3 data] })
        else (((s.pass 74 4 4).passBytes 63 data.length).modKeys (fun k =>
          { k with msg := some (urgentMsg requester w0 w1 w2 w3 data), suspended := some r })).bumpPv pCPH_SUSPENDS 0 1) := by
  show execServicePoolUrgentRequest requester w0 w1 w2 w3 data s = _
  rw [execServicePoolUrgentRequest, if_neg (by simp [hal, h63, h74, h75]; omega)]
  refine congrArg _ ((if_neg ?_).trans ?_)
  · change s.poolValid _ = true at hv
    simpa [Nat.not_le.mpr h4, urgentMsg] using hv
  · cases hm : s.keys.msg <;> simp only [State.passBytes_keys, State.pass_keys, hm] <;> rfl

/-- A message done that neither continues another nor draws an IV: what the pool ran leaves its result and the next one runs. -/
theorem exec_poolDone {s : State} {m : PoolMsg} {out : Bytes} (ha : s.mag.st.alive = true) (hf : s.flows 75 = true) (hm : s.keys.msg = some m)
    (hc : m.cont = false) (hd : poolDraws m = false) (hr : s.poolRun m [] = (0, out, s)) :
    execServicePoolMessageDone s = .next (((s.modKeys (fun k => { k with partMsg := some ({ m with data := fitBytes m.len m.data }, []) })).poolResult
      m 0 m.len [] out).poolNext).goOn := by
  simp only [execServicePoolMessageDone, hm, hd, hc, ha, hf, hr, Bool.not_true, Bool.or_self, Bool.false_eq_true, if_false, List.nil_append]

theorem State.poolRun_cmac (s : State) {m : PoolMsg} (hc : m.cont = false) (hop : m.op = 7) :
    s.poolRun m [] = (0, cmac ((s.slotKey m.slot).getD []) (fitBytes m.len m.data), s) := by
  simp only [State.poolRun, hop, hc, Bool.false_eq_true, if_false, List.nil_append]

theorem State.poolRun_xtsEncrypt (s : State) {m : PoolMsg} (hc : m.cont = false) (hop : m.op = 1) :
    s.poolRun m [] = (0, xtsAny true ((s.slotKey m.slot).getD []) m.w3 (fitBytes m.len m.data), s) := by
  simp only [State.poolRun, hop, hc, Bool.false_eq_true, if_false, List.nil_append, List.length_nil, List.drop_zero]

/-- Settles O36. -/
theorem servicePoolActs : Obligations.ServicePoolActs := by
  unfold Obligations.ServicePoolActs
  intro s hal h74 h75
  refine ⟨fun requester w0 w1 w2 w3 data m hm => ⟨fun h1 h4 hl t ht => ⟨fun hv hi hs => ?_, fun r hv hr => ?_, fun hv => ?_⟩,
      fun k h100 hk hop hslot hl hu => ⟨fun hv hi hs => ?_, fun hv => ?_⟩⟩,
    fun h63 requester w0 w1 w2 w3 data h1 => ⟨fun hbad => ?_, fun h4 hv => ?_⟩,
    fun m hm => ⟨fun hc t ht => ⟨fun hop => ?_, fun hop => ?_⟩, fun hd hiv hdead => ?_⟩, fun hs m hl hm hreq => ?_⟩
  · subst hm
    show execServicePoolRequest requester w0 w1 w2 w3 data s = _
    rw [execServicePoolRequest, if_pos (by simp [hal, h74, h75]), State.poolRequest_own h1 h4 hl ht, if_pos hv,
      State.poolTake_idle (by simp [ht, hi]) (by simp [ht, hs])]
  · subst hm
    show execServicePoolRequest requester w0 w1 w2 w3 data s = _
    rw [execServicePoolRequest, if_pos (by simp [hal, h74, h75]), State.poolRequest_own h1 h4 hl ht, if_pos hv,
      State.poolTake_busy (r := r) (by simp [ht, hr])]
  · subst hm
    show execServicePoolRequest requester w0 w1 w2 w3 data s = _
    rw [execServicePoolRequest, if_pos (by simp [hal, h74, h75]), State.poolRequest_own h1 h4 hl ht, if_neg (by simp [hv])]
  · subst hm
    show execServicePoolRequest requester w0 w1 w2 w3 data s = _
    rw [execServicePoolRequest, if_pos (by simp [hal, h74, h75]),
      State.poolRequest_kernel (m := ⟨requester, w0, w1, w2, w3, data⟩) h100 hk hop hslot hl hu, if_pos hv, State.poolTake_idle hi hs]
  · subst hm
    show execServicePoolRequest requester w0 w1 w2 w3 data s = _
    rw [execServicePoolRequest, if_pos (by simp [hal, h74, h75]),
      State.poolRequest_kernel (m := ⟨requester, w0, w1, w2, w3, data⟩) h100 hk hop hslot hl hu, if_neg (by simp [hv])]
  · show execServicePoolUrgentRequest requester w0 w1 w2 w3 data s = _
    rw [execServicePoolUrgentRequest, if_neg (by simp [hal, h63, h74, h75]; omega), if_pos (by simpa using hbad)]
  · have hgo := exec_poolUrgent_own hal h63 h74 h75 h1 h4 hv
    refine ⟨fun hn => hgo.trans ?_, fun r hr hu => hgo.trans ?_, fun r hr hu => hgo.trans ?_⟩
    · simp only [hn] <;> rfl
    · simp only [hr, hu, if_true] <;> rfl
    · simp only [hr, hu, Bool.false_eq_true, if_false] <;> rfl
  · exact ht ▸ exec_poolDone hal h75 hm hc (by simp [poolDraws, hop]) (State.poolRun_cmac s hc hop)
  · exact ht ▸ exec_poolDone hal h75 hm hc (by simp [poolDraws, hop]) (State.poolRun_xtsEncrypt s hc hop)
  · show execServicePoolMessageDone s = _
    simp only [execServicePoolMessageDone, hm, hd, hiv, hdead, hal, h75, Bool.not_true, Bool.or_self, Bool.false_eq_true, if_false, if_true]
  · show execCphLockTimeout s = _
    have hmsg : ((s.raise 0x7C0 1 (leBytes 2 s.keys.lock)).bumpPv pCPH_BREAKS 0 1).keys.msg = some m := by simp [hm]
    simp only [execCphLockTimeout]
    rw [if_neg (by simp [Nat.not_lt.mpr hl, hs])]
    simp only [hmsg, if_neg hreq, State.modKeys_keys, Option.isNone_some, Bool.false_eq_true, if_false]

/-! ## FSYNC -/

/-- Settles O37. -/
theorem frameSyncActs : Obligations.FrameSyncActs := by
  unfold Obligations.FrameSyncActs
  intro s hal
  refine ⟨fun low high period hp => ?_, fun low high period hl hh hp => ?_, fun low high period hl hh h1 h2 h run v eh er ev =>
    ⟨fun hb => ?_, fun hr hff hfs => ?_⟩, fun hfs => ?_⟩
  · show execFsyncEdge low high period s = _
    rw [execFsyncEdge, if_pos (by simpa [hal] using hp)]
  · show execFsyncEdge low high period s = _
    rw [execFsyncEdge, if_neg (by simp [hal, Nat.not_lt.mpr hl, Nat.not_lt.mpr hh]), if_pos (by simpa using hp)]
  · show execFsyncEdge low high period s = _
    have hback : (run && !s.sp.ffRun && !s.sp.fsyncOk) = false := by
      rcases hb with hb | hb | hb <;> simp [hb]
    rw [execFsyncEdge, if_neg (by simp [hal, Nat.not_lt.mpr hl, Nat.not_lt.mpr hh]), if_neg (by simp; omega)]
    simp only [← eh, ← er, ← ev, hback, Bool.or_false, Bool.false_eq_true, if_false]
  · show execFsyncEdge low high period s = _
    have hback : (run && !s.sp.ffRun && !s.sp.fsyncOk) = true := by simp [hr, hff, hfs]
    rw [execFsyncEdge, if_neg (by simp [hal, Nat.not_lt.mpr hl, Nat.not_lt.mpr hh]), if_neg (by simp; omega)]
    simp only [← eh, ← er, ← ev, hback, Bool.or_true, if_true]
    rw [hr]
  · show execFsyncTimeout s = _
    rw [execFsyncTimeout, if_neg (by simp [hal, hfs])]

end Sys2Proof.Machine

end

section

/-! # Spooling -/

namespace Sys2Proof.Machine

set_option Elab.async false

/-! ## Speed requests and crawling -/

@[simp] theorem State.modSp_queueEmpty (s : State) (f : Spool → Spool) : (s.modSp f).queueEmpty = s.queueEmpty := rfl

theorem State.crawlEnd_of_ne {s : State} (h : s.mag.st ≠ .crawl ∨ s.sp.crawl ≠ some 0) : s.crawlEnd = s := by
  rw [State.crawlEnd, if_neg]
  rcases h with h | h <;> simp [h]

theorem State.crawlEnd_queued {s : State} (h : s.queueEmpty = false) : s.crawlEnd = s := by
  rw [State.crawlEnd, if_neg (by simp [h])]

/-- A request in a state in which no playback runs asks for the speed of the state that the backlog chooses. -/
theorem exec_speedRequest {s t : State} {v : Nat} (ht : s.crawlSwitch = t) (hpb : t.mag.st ≠ .playback)
    (hv : (if t.mag.st = .spooling then t.requestedSpeed else if t.mag.st = .crawl then 500 else t.sp.vreq) = v)
    (hend : t.mag.st ≠ .crawl ∨ t.sp.crawl ≠ some 0) : execSpeedRequestUpdate s = .next (t.modSp (fun p => { p with vreq := v })) := by
  have hu : t.modSp (fun p => { p with vreq := if t.mag.st = .spooling then t.requestedSpeed else if t.mag.st = .crawl then 500 else p.vreq })
      = t.modSp (fun p => { p with vreq := v }) := by rw [← hv]; rfl
  simp only [execSpeedRequestUpdate, ht, hu, State.modSp_mag, hpb, decide_false, Bool.false_and, State.when, Bool.false_eq_true, if_false]
  rw [State.crawlEnd_of_ne (by simpa using hend)]

/-! ## Data set boundaries -/

/-- A boundary that the tape passes while recording, with no result to act on. -/
theorem exec_boundary {s t : State} {ready : Bool} (hrec : s.recording = true) (hdw : s.ctl.tsub ≠ .dwell)
    (hres : s.sp.started = [] ∨ s.flows 67 = false)
    (ht : t = ((s.applyPend (fun p i => (groupOf p i).1 = pTFM_CRAWL_ENTRY)).zoneSelect).modCtl (fun c => { c with target := 0 }))
    (hcr : t.mag.st ≠ .crawl) (hst : t.ctl.tsub ≠ .stopping) :
    exec (.dsPositionBoundary ready) s = .next (t.sp.gen.elim (t.dataBoundary (ready && t.writeFlows)) (fun g => t.indexBoundary g (ready && t.writeFlows))) := by
  have hact : s.actOnResults = s := by
    rw [State.actOnResults, if_neg]
    rcases hres with h | h <;> simp [h]
  show execDsPositionBoundary ready s = _
  rw [execDsPositionBoundary, if_pos (by simp [hrec, hdw]), hact, State.boundary, if_neg (by simp [hrec, hdw]), ← ht]
  simp only [if_neg hcr, if_neg hst]
  cases t.sp.gen <;> rfl

/-- Inside the wrap, with room for the group and no position to pass over, the copy at the head of the queue begins or the position stays blank. -/
theorem State.dataBoundary_inside {t : State} (ready : Bool) (hend : t.sp.wrapEnd = false) (hpos : t.sp.pos < wrapPositions)
    (hroom : t.noRoom = false)
    (hskip : t.sp.skip = 0) :
    t.dataBoundary ready = t.queued.head?.elim (t.blank false) (fun c =>
      if !ready then t.blank false
      else if t.skipDue c then t.takeSkip c
      else (t.spoolStart.startCopy c t.sp.wrap t.sp.pos).modSp (fun p =>
        { p with pos := p.pos + 1, wrapUsed := true, resume := false
                 recGroup := if t.begunGroup (t.groupOfCopy c) then p.recGroup else t.groupOfCopy c
                 crawl := if t.mag.st = .crawl then some (t.pn pTFM_CRAWL_LIMIT) else p.crawl })) := by
  rw [State.dataBoundary, if_neg (by simp [hend]), if_neg (Nat.not_le.mpr hpos), if_neg (by simp [hroom]), if_neg (by simp [hskip])]
  cases t.queued.head? <;> rfl

theorem State.indexBoundary_ready {t : State} {g : IndexGen} {c : Copy} (hc : c = { kind := .index, seq := t.nextIndex g, m := 0 })
    (hn : t.nextIndex g < g.ds.length) (hpos : g.pos < 8000) (hskip : t.sp.skip = 0) (hdue : t.skipDue c = false) :
    t.indexBoundary g true = (t.startCopy c g.wrap g.pos).modSp (fun p => { p with gen := some { g with pos := g.pos + 1 } }) := by
  simp only [State.indexBoundary, ← hc]
  rw [if_neg (Nat.not_le.mpr hn), if_neg (Nat.not_le.mpr hpos), if_neg (by simp [hskip]), if_neg (by simp), if_neg (by simp [hdue])]

/-! ## Spool commits and turnarounds -/

/-- What a release of the packets of the first `j` words leaves of FIFO 66. -/
def Fifo.released (f : Fifo) (j : Nat) : Fifo := { f with words := f.words.drop j, lp := f.lp + j, m := f.m - j, p := f.p - j }

theorem Fifo.release_packets {f : Fifo} {k j : Nat} (hk : k ≠ 0) (h64 : k ≤ 64) (hj : packetWords k (f.words.take f.m) = some j) :
    f.release k = some (f.released j) := by
  rw [Fifo.release, if_neg (by simp [hk, Nat.not_lt.mpr h64]), hj]
  rfl

/-- A turnaround of a recording at the wrap stop point. -/
theorem exec_wrapTurnaround {s t : State} (hrec : s.recording = true) (hgen : s.sp.gen = none) (hend : s.sp.wrapEnd = true) (hst : s.sp.started = [])
    (haft : s.ctl.after = none) (hturn : s.ctl.turn = false) (hv : s.ctl.vlim = 0) (ha : s.ctl.alim = 0)
      (ht : t = (s.calUpdate (fun _ => true)).nextWrap) :
    exec .wrapTurnaround s = .next (
      if t.sp.full then (t.modSp (fun p => { p with draining := false, closing := false, closeAt := none, closeGrp := none })).stopTape .hold false
      else (if s.sp.wrap % 2 = 1 && t.sp.genDue then t.buildGen else none).elim
        (t.modCtl (fun c => { c with dir := if wrapForward t.sp.wrap then 1 else -1, target := 0, aim := none, wrapGoal := t.sp.wrap }))
        (fun u => u.startMove (.index ((u.sp.gen.map (fun g => g.wrap)).getD 0)))) := by
  show execWrapTurnaround s = _
  rw [execWrapTurnaround, if_neg (by simp [hturn]), if_neg (by simp [hrec, hgen, hend, hst, haft, State.atRest, hv, ha]), ← ht]
  by_cases hf : t.sp.full = true
  · simp only [if_pos hf]
  · by_cases hg : (decide (s.sp.wrap % 2 = 1) && t.sp.genDue) = true
    · simp only [if_neg hf, if_pos hg]
      cases t.buildGen <;> rfl
    · simp only [if_neg hf, if_neg hg]
      rfl

/-- A group with first data set `f` and `m` members is released from FIFO 66 and leaves the spool state. -/
def State.groupLeaves (s : State) (f m : Nat) (rest : List Nat) : State :=
  let imgs := (List.range m).map (· + f)
  let lbas := imgs.flatMap (fun q => ((NMap.find? s.sp.images q).map (fun v => v.lbas)).getD [])
  (s.retain (.release (m + 2))).modSp (fun p =>
    { p with
      ready := rest, groups := NMap.del p.groups f, images := p.images.filter (fun e => !imgs.contains e.1)
      uncommitted := p.uncommitted.filter (fun e => !lbas.any (fun r => decide (r.1 ≤ e.1) && decide (e.1 < r.1 + r.2)))
      lastCommit := some (f + m - 1), sinceGen := p.sinceGen + 1, genDue := p.genDue || decide (s.pn pTFM_INDEX_GROUPS ≤ p.sinceGen + 1)
      copied := p.copied.filter (fun c => c.kind = .index || decide (c.seq < f) || decide (f + m ≤ c.seq)) })

/-- A verified group whose images have all persisted is committed. -/
theorem exec_groupCommit {s : State} {f m : Nat} {rest : List Nat} {g : Fifo} (hr : s.sp.ready = f :: rest) (hm : m = NMap.get 0 s.sp.groups f)
    (himg : ((List.range m).map (· + f)).all (fun q => (NMap.find? s.sp.images q).elim false (fun v => v.persisted)) = true)
    (hrel : (s.fifo 66).release (m + 2) = some g) :
    exec .groupSpoolCommit s = .next (((((s.groupLeaves f m rest).mapCommit [.commit f m] []).indexCommit
      [(s.groupLeaves f m rest).genRec]).trimLog.growZones false).goOn) := by
  show execGroupSpoolCommit s = _
  simp only [execGroupSpoolCommit, hr, ← hm, himg, hrel, Bool.not_true, Bool.false_eq_true, if_false]
  rfl

/-- Settles O38. -/
theorem spoolingCommandsAct : Obligations.SpoolingCommandsAct := by
  unfold Obligations.SpoolingCommandsAct
  intro s
  refine ⟨fun hst hq => ?_, fun hst hq hb hl => ?_, fun hst hb hc => ?_, fun hst hc t ht => ⟨fun hq => ?_, fun hq haft hcl hgen hdue => ?_⟩,
    fun hrec hdw hres t ht hcr hsub hskip => ⟨fun hgen hend hpos hroom => ⟨fun hq ready => ?_, fun c rest hq => ⟨?_, fun hdue hwf => ?_⟩⟩,
      fun g hgen hn hpos c hc hdue hwf => ?_⟩,
    fun x hx t ht u hu => ⟨fun hnb => ?_, fun hnb => ?_⟩, fun f rest m j hr hm h64 hj hh himg => ?_,
    fun hrec hgen hend hst haft hturn hv ha t ht => ⟨fun hfull => ?_, fun hfull hev => ?_, fun u hfull hodd hdue hu => ?_⟩,
    fun p hturn hmv hv ha hp hk d hd => ?_, fun last head hts haim hmv haft hmax t ht hfull => ?_⟩
  · show execSpeedRequestUpdate s = _
    have hsw : s.crawlSwitch = s := by
      rw [State.crawlSwitch, if_neg, if_neg (by simp [hst])]
      rcases hq with hq | hq
      · simp [hq]
      · simp [Nat.not_lt.mpr hq, -Nat.reducePow]
    exact exec_speedRequest hsw (by simp [hst]) (if_pos hst) (.inl (by simp [hst]))
  · show execSpeedRequestUpdate s = _
    have hsw : s.crawlSwitch = (s.modMag (fun g => { g with st := .crawl })).modSp (fun p => { p with crawl := some (s.pn pTFM_CRAWL_LIMIT) }) := by
      rw [State.crawlSwitch, if_pos (by simp [hst, hq, hb, -Nat.reducePow])]
      rfl
    exact exec_speedRequest hsw (by simp) rfl (.inr (by simpa using hl))
  · show execSpeedRequestUpdate s = _
    have hsw : s.crawlSwitch = s := by
      rw [State.crawlSwitch, if_neg (by simp [hst]), if_neg (by simp [Nat.not_lt.mpr hb, -Nat.reducePow])]
    exact exec_speedRequest hsw (by simp [hst]) (by simp [hst]) (.inr hc)
  · show execCrawlLimitExpiry s = _
    rw [execCrawlLimitExpiry, if_pos (by simp [hst, hc]), ← ht, State.crawlEnd_queued (by rw [ht]; exact hq)]
  · show execCrawlLimitExpiry s = _
    rw [execCrawlLimitExpiry, if_pos (by simp [hst, hc]), ← ht, State.crawlEnd, if_pos (by simp [ht, hst, hq, haft, hcl, hgen]),
      if_neg (by simp [hdue])]
  · rw [exec_boundary hrec hdw hres ht hcr hsub, hgen, Option.elim_none, State.dataBoundary_inside _ hend hpos hroom hskip, hq]
    rfl
  · rw [exec_boundary hrec hdw hres ht hcr hsub, hgen, Option.elim_none, State.dataBoundary_inside _ hend hpos hroom hskip, hq]
    rfl
  · rw [exec_boundary hrec hdw hres ht hcr hsub, hgen, Option.elim_none, State.dataBoundary_inside _ hend hpos hroom hskip, hq]
    simp only [List.head?_cons, Option.elim_some, hwf, Bool.and_true, Bool.not_true, Bool.false_eq_true, if_false, hdue, if_neg hcr]
  · rw [exec_boundary hrec hdw hres ht hcr hsub, hgen, Option.elim_some, hwf, Bool.and_true, State.indexBoundary_ready hc hn hpos hskip hdue]
  · show execVerifyResult s = _
    simp only [execVerifyResult, hx, ← ht, ← hu, hnb, Bool.false_eq_true, if_false]
  · show execVerifyResult s = _
    simp only [execVerifyResult, hx, ← ht, ← hu, hnb, if_true]
  · have hrel := Fifo.release_packets (by omega) h64 hj
    have hret : s.retain (.release (m + 2)) = s.modFifo 66 (fun f => { f.released j with held := [] }) := by
      rw [State.retain_done (o := .release (m + 2)) hh hrel]
      exact State.modFifo_congr (by simp [Fifo.released, hh])
    have hsp : (s.retain (.release (m + 2))).sp = s.sp := by rw [hret]; rfl
    refine ⟨s.groupLeaves f m rest, exec_groupCommit hr hm himg hrel, ?_, rfl, ?_, rfl, ?_⟩
    · exact Eq.trans (b := (s.retain (.release (m + 2))).fifos) rfl (congrArg State.fifos hret)
    · exact congrArg (fun p : Spool => NMap.del p.groups f) hsp
    · exact congrArg (fun p : Spool => p.sinceGen + 1) hsp
  · rw [exec_wrapTurnaround hrec hgen hend hst haft hturn hv ha ht, if_pos hfull]
  · rw [exec_wrapTurnaround hrec hgen hend hst haft hturn hv ha ht, if_neg (by simp [hfull]), if_neg (by simp [hev])]
    rfl
  · rw [exec_wrapTurnaround hrec hgen hend hst haft hturn hv ha ht, if_neg (by simp [hfull]), if_pos (by simp [hodd, hdue]), hu]
    rfl
  · show execWrapTurnaround s = _
    subst hd
    rw [execWrapTurnaround, if_pos (by simp [hturn, hmv, State.atRest, hv, ha])]
    simp only [State.turnPass, hp, hk, if_true]
  · show execTapeTailScan last head s = _
    obtain ⟨hfree, hwrap, hpos⟩ : t.sp.full = false ∧ t.sp.wrap = s.sp.wrap ∧ t.sp.pos = max (last.getD 0) head + 2 := by simp [ht, hfull]
    rw [execTapeTailScan, if_neg (by simp [hts, hmv, haft, Option.isSome_iff_ne_none.mp haim])]
    simp only [← ht]
    rw [if_neg (show ¬ wrapPositions < max (last.getD 0) head + 2 + 32 by omega), if_neg (by simp [hfree]), hwrap, hpos]

end Sys2Proof.Machine

end

section

/-! # The lanes of the read channel -/

namespace Sys2Proof.Machine

set_option Elab.async false

@[simp] theorem State.lane_modLane (s : State) (c : Nat) (f : Lane → Lane) : (s.modLane c f).lane c = f (s.lane c) :=
  NMap.get_upd_same _ _ _ _

@[simp] theorem State.lane_seeHead (s : State) (c i : Nat) : (s.seeHead c).lane i = s.lane i := by
  unfold State.seeHead
  split <;> rfl

@[simp] theorem State.lane_bumpPv (s : State) (pid i n c : Nat) : (s.bumpPv pid i n).lane c = s.lane c := by
  unfold State.bumpPv
  split <;> rfl

/-- A lane that begins a data set stands before row slot 0 with the first row expected at bit 600. -/
theorem State.beginDs_lane (s : State) (c k : Nat) :
    ((s.beginDs c k).lane c).inDs = true ∧ ((s.beginDs c k).lane c).next = 0 ∧ ((s.beginDs c k).lane c).expect = 600 ∧
      ((s.beginDs c k).lane c).cands = [] := by
  simp only [State.beginDs, State.lane_seeHead, State.lane_modLane, and_self]

theorem State.separator_begins {s : State} {lane k : Nat} {samples : List Int} (hon : s.laneOn lane = true)
    (hin : ((s.hear lane samples).lane lane).inDs = false)
    (hk : separatorEnd (((s.hear lane samples).lane lane).sepMin.getD ((s.hear lane samples).pn pTRC_SEP_MIN)) ((s.hear lane samples).lane lane).bits = some k) :
    execDsSeparatorDetected lane samples s = .next (((s.hear lane samples).applyZoneGroups.passBegins).beginDs lane k) := by
  simp only [execDsSeparatorDetected, hon, Bool.not_true, Bool.false_eq_true, if_false, hin, hk]

/-- The window of the slot that is due is searched once its bits are there. -/
theorem Lane.window_due {l : Lane} {slot : Nat} (hin : l.inDs = true) (hn : l.next = slot) (hb : l.expected slot + 16 + 40 - 480 ≤ (l.bits.length : Int)) :
    ¬ (!l.inDs || l.next != slot || decide ((l.bits.length : Int) < l.expected slot + 16 + 40 - 480)) = true := by
  simpa [hin, hn] using hb

/-- A lane inside a data set gives it up: the rows left are erased with cause 5 and the lane's event tells why. -/
theorem exec_lockLost {s t : State} {lane : Nat} {samples : List Int} {l : Lane} {timing : Bool} (hon : s.laneOn lane = true)
    (ht : t = s.hear lane samples) (hl : l = t.lane lane) (hlost : l.lost = false) (htm : (l.inDs && decide (256 < l.unlocked)) = timing)
    (hgo : timing = true ∨ (0 < l.missRun ∧ l.par.loss ≤ l.missRun)) {first : Nat}
    (hf : (if !l.inDs then 8 else if l.cands.isEmpty then l.next else l.next - 1) = first) :
    exec (.lockLost lane samples) s = .next (((((List.range (8 - first)).foldl (fun (u : State) k => u.erasedRow lane (first + k) 5) t).modLane lane (fun l =>
      { l with locked := false, lost := true, reload := true, next := 8 })).search lane).raise lane (if timing then 2 else 1) []) := by
  show execLockLost lane samples s = _
  have hgo' : ¬ (l.lost || !(timing || (decide (0 < l.missRun) && decide (l.par.loss ≤ l.missRun)))) = true := by
    rcases hgo with h | ⟨h0, h1⟩
    · simp [hlost, h]
    · simp [hlost, h0, h1]
  simp only [execLockLost, hon, Bool.not_true, Bool.false_eq_true, if_false, ← ht, ← hl, htm, if_neg hgo', hf]

/-- A dropout not yet counted counts once, for the parameter and for the channel. -/
theorem State.countSpan_new (s : State) (lane : Nat) {x : Span} (h : x.counted = false) :
    s.countSpan lane x = (s.bumpPv pTRC_DO_CNT lane 1).modSp (fun p => { p with chan := NMap.bumpSat (2 ^ 32 - 1) p.chan (8 * lane + 3) 1 }) := by
  rw [State.countSpan, State.when, if_pos (by simp [h])]

/-- A report of a dropout within a kept row tells its pointers. -/
theorem exec_dropoutSpan_kept {s t : State} {lane slot : Nat} {samples : List Int} {l : Lane} {x : Span} {xs : List Span} (hon : s.laneOn lane = true)
    (ht : t = s.hear lane samples) (hl : l = t.lane lane) (hd : l.sig.done = x :: xs) (hc : l.cands ≠ []) (hn : l.next = slot + 1) :
    exec (.dropoutSpan lane slot x.kind x.first x.last samples) s = .next ((t.tellSpan lane x).modLane lane (fun m =>
      { m with sig := { m.sig with done := (l.spanRest x).toList ++ xs } })) := by
  show execDropoutSpan lane slot x.kind x.first x.last samples s = _
  simp only [execDropoutSpan, hon, Bool.not_true, Bool.false_eq_true, if_false, ← ht, ← hl, hd]
  rw [if_neg (by simp [Lane.reports, hn]), if_pos (by simpa using hc)]

theorem State.tellSpan_counted {t u : State} {lane : Nat} {x : Span} {ps : List Pointer} (hu : u = t.countSpan lane x)
    (hps : ps = (t.lane lane).spanPtrs lane x) :
    t.tellSpan lane x = if ps.any (fun p => p.whole)
      then ((u.modLane lane (fun l => { l with ptrs := l.ptrs ++ ps })).sendPtrs ps).raise lane 5 []
      else (u.modLane lane (fun l => { l with ptrs := l.ptrs ++ ps })).sendPtrs ps := by
  simp only [State.tellSpan, State.when, ← hps, ← hu]

/-- Settles O39. -/
theorem readChannelCommandsAct : Obligations.ReadChannelCommandsAct := by
  unfold Obligations.ReadChannelCommandsAct
  intro s lane
  refine ⟨fun g hdec haw t ht => ⟨fun hno => ?_, fun r hr => ?_⟩, fun hon samples t ht hin k u hk hu => ?_,
    fun hon slot samples => ⟨fun cause hdead hin hn => ?_, fun hdead t l ht hl hin hn hbits => ⟨fun hlate => ?_, fun kept hlate hkept => ⟨fun h0 => ?_, fun h0 => ?_⟩⟩⟩,
    fun hon samples t l ht hl hlost => ⟨fun hin hun hc => ?_, fun hin hun hc => ?_, fun hin h0 hmr => ?_⟩,
    fun hon samples t l x xs ht hl hd => ⟨fun u ps slot hc hn hx hps hu => ?_, fun slot hc hin hx => ?_⟩⟩
  · show execEngineGroupWake g s = _
    have hnone : List.find? (fun (e : Nat × Lane) => e.2.inDs && s.rc.awake.contains (e.1 / 32)) s.rc.lanes = none :=
      List.find?_eq_none.mpr (fun e he => by simp [hno e he])
    rw [execEngineGroupWake, if_neg (by simp only [hdec, haw]; decide)]
    simp only [hnone, ← ht]
  · show execEngineGroupWake g s = _
    rw [execEngineGroupWake, if_neg (by simp only [hdec, haw]; decide)]
    simp only [hr, ← ht]
  · subst ht hu
    exact ⟨State.separator_begins hon hin hk, State.beginDs_lane _ lane k⟩
  · show execSyncWindowClose lane slot samples s = _
    have ht : (if (!(s.lane lane).inDs && decide (slot = 0)) = true then
        (s.modLane lane (fun l => { l with inDs := true, next := 0, confirmed := none, expects := [], cands := [], tag := some (s.nextTag lane) })).seeHead lane
      else s) = s := if_neg (by simp [hin])
    simp only [execSyncWindowClose, hon, Bool.not_true, Bool.false_eq_true, if_false, hdead, State.deadRow, ht]
    rw [if_pos (by simp [hin, hn])]
  · show execSyncWindowClose lane slot samples s = _
    simp only [execSyncWindowClose, hon, Bool.not_true, Bool.false_eq_true, if_false, hdead, ← ht, ← hl, if_neg (Lane.window_due hin hn hbits), hlate,
      if_true]
  · show execSyncWindowClose lane slot samples s = _
    simp only [execSyncWindowClose, hon, Bool.not_true, Bool.false_eq_true, if_false, hdead, ← ht, ← hl, if_neg (Lane.window_due hin hn hbits), hlate,
      ← hkept, h0]
    rfl
  · show execSyncWindowClose lane slot samples s = _
    simp only [execSyncWindowClose, hon, Bool.not_true, Bool.false_eq_true, if_false, hdead, ← ht, ← hl, if_neg (Lane.window_due hin hn hbits), hlate,
      ← hkept,
      List.isEmpty_eq_false_iff.mpr h0]
  · exact exec_lockLost (timing := true) (first := l.next) hon ht hl hlost (by simp [hin, hun]) (.inl rfl) (by simp [hin, hc])
  · exact exec_lockLost (timing := true) (first := l.next - 1) hon ht hl hlost (by simp [hin, hun]) (.inl rfl) (by simp [hin, hc])
  · exact exec_lockLost (timing := false) (first := 8) hon ht hl hlost (by simp [hin]) (.inr ⟨h0, hmr⟩) (by simp [hin])
  · have hu' : u = t.countSpan lane x := hu.trans (State.countSpan_new t lane hx).symm
    have hps' : ps = (t.lane lane).spanPtrs lane x := by
      rw [hps, hu]
      exact congrArg (fun m : Lane => m.spanPtrs lane x) (State.lane_bumpPv t pTRC_DO_CNT lane 1 lane)
    rw [exec_dropoutSpan_kept hon ht hl hd hc hn, State.tellSpan_counted hu' hps']
    exact ⟨fun hw => by rw [if_neg (by simp [hw])], fun hw => by rw [if_pos hw]⟩
  · show execDropoutSpan lane slot x.kind x.first x.last samples s = _
    simp only [execDropoutSpan, hon, Bool.not_true, Bool.false_eq_true, if_false, ← ht, ← hl, hd, hc, List.isEmpty_nil, hin, Bool.not_false,
      Bool.true_or,
      if_true, State.countSpan_new t lane hx]
    rw [if_neg (by simp [Lane.reports, hc])]

end Sys2Proof.Machine

end

section

/-! # Rows framed and decoded -/

namespace Sys2Proof.Machine

set_option Elab.async false

/-- A row with no adaptation at its bounds and few clipped samples is over. -/
theorem State.rowOver_quiet {v : State} {lane gain cur : Nat} {offset asym : Int} (had : (v.lane lane).adapt gain offset asym = (cur, false))
    (hclip : 100 * (v.lane lane).sig.clipped ≤ (v.lane lane).sig.samples) :
    v.rowOver lane gain offset asym = (v.modLane lane (fun m =>
      { m with cur := cur, boundRun := 0, cands := [], framed := 0, ptrs := [], sig := { m.sig with samples := 0, clipped := 0, paused := 0 } })).laneEnd
        lane := by
  simp only [State.rowOver, had, Bool.false_eq_true, if_false, State.when, Nat.not_lt.mpr hclip, decide_false, OfNat.zero_ne_ofNat]

/-- The kept candidate that comes next is framed once its bits are there. -/
theorem Lane.frame_due {l : Lane} {slot cand : Nat} (hin : l.inDs = true) (hn : l.next = slot + 1) (hc : cand < l.cands.length) (hf : l.framed = cand)
    (hb : l.expect + (l.cands.getD cand (0, 0)).1 - 120 + 8203 - 480 ≤ (l.bits.length : Int)) :
    ¬ (!l.inDs || l.next != slot + 1 || decide (l.cands.length ≤ cand) || l.framed != cand
      || decide ((l.bits.length : Int) < l.expect + (l.cands.getD cand (0, 0)).1 - 120 + 8203 - 480)) = true := by
  simpa [hin, hn, hf, Nat.not_le.mpr hc] using hb

/-- With a row of the slot held, decoding goes on where the row belongs. -/
theorem exec_rowDecode_tag {s t : State} {lane slot tag : Nat} (h79 : s.flows 79 = true) (hg : s.flows (36 + lane / 32) = true)
    (ht : t = s.intake (lane / 32)) (htag : t.rowTag lane slot = some tag) {here : Bool}
    (hh : (if t.recording then (t.copyOf tag).isSome else decide (tag = readTag t.rc.wrap t.rc.pos)) = here) :
    exec (.rowDecode lane slot) s = .next (
      if !here then (if !t.recording && decide (readTag t.rc.wrap t.rc.pos < tag) then t else t.dropRow lane slot tag)
      else (if t.retiredThen lane then none
          else chooseAlign lane slot (t.align lane slot (t.expectSeq tag) 0) (t.align lane slot (t.expectSeq tag) 1)).elim
        ((t.dropRow lane slot tag).modRc (fun r =>
          { r with failedHdr := (t.chooseFailed lane slot).elim r.failedHdr (fun c => NMap.put r.failedHdr (8 * lane + slot) c) }))
        (fun a => ((t.dropRow lane slot tag).confirm lane slot tag a.pkt.offset).acceptRow lane slot tag a)) := by
  show execRowDecode lane slot s = _
  simp only [execRowDecode, h79, hg, Bool.not_true, Bool.or_self, Bool.false_eq_true, if_false, ← ht, htag, hh]
  cases here
  · rfl
  · cases (if t.retiredThen lane then none
        else chooseAlign lane slot (t.align lane slot (t.expectSeq tag) 0) (t.align lane slot (t.expectSeq tag) 1)) <;> rfl

/-- A row whose header fits is counted and given to the verify tally or the capture. -/
theorem State.acceptRow_fits {u : State} {lane slot tag : Nat} {a : Align} (hfit : headerFits a.head lane slot = true)
    (hw : a.head.wrap = tag / 2 ^ 20)
    (hfmt : (fmtKind a.head.fmt).isSome = true) (hcal : u.pn pTRC_CAL_EN = 0) :
    u.acceptRow lane slot tag a = if u.recording then (u.countC1 lane a).tallyVerify tag lane slot (a.failed != 0)
      else if u.calibrating then (u.countC1 lane a).tallyCal lane slot a
      else (u.countC1 lane a).modRc (fun r =>
        { r with cap := NMap.put r.cap (128 * a.head.sds + a.head.row) (Row.mk a.head.seq a.head.fmt a.head.sds a.head.row (rowInfo a.words)) }) := by
  rw [State.acceptRow, if_neg (by simp [hfit, hw, Option.isSome_iff_ne_none.mp hfmt])]
  simp only [hcal, zero_ne_one, decide_false, Bool.and_false, State.when, Bool.false_eq_true, if_false]

/-- Settles O40. -/
theorem rowsAreFramedAndDecoded : Obligations.RowsAreFramedAndDecoded := by
  unfold Obligations.RowsAreFramedAndDecoded
  intro s lane slot
  refine ⟨fun hon cand samples timeNs gain offset asym t l u ps rs pkt v ht hl hin hn hc hf hb hu hps hmany hrs hpkt hv => ?_,
    fun h79 hg t ht => ⟨fun hno => ?_, fun tag htag => ⟨fun hother => ?_, fun a u hh hret ha hu => ⟨fun hfit => ?_, fun hfit hw hfmt =>
      ⟨fun hrec hcal => ?_, fun hrec hnc hcal => ?_⟩⟩, fun hh hret ha0 ha1 c hc => ?_⟩⟩⟩
  · have hfr : exec (.rowFramed lane slot cand samples timeNs gain offset asym) s =
        .next (if cand + 1 = l.cands.length then v.rowOver lane gain offset asym else v) := by
      show execRowFramed lane slot cand samples timeNs gain offset asym s = _
      subst hv hpkt
      simp only [execRowFramed, hon, Bool.not_true, Bool.false_eq_true, if_false, ← ht, ← hl, if_neg (Lane.frame_due hin hn hc hf hb), ← hu, ← hps,
        hmany,
        Bool.false_and, State.when, ← hrs]
      rfl
    refine ⟨fun hlt => ?_, fun m cur hlast hm had hclip => ?_⟩
    · rw [hfr, if_neg (Nat.ne_of_lt hlt)]
    · subst hm
      rw [hfr, if_pos hlast, State.rowOver_quiet had hclip]
  · show execRowDecode lane slot s = _
    simp only [execRowDecode, h79, hg, Bool.not_true, Bool.or_self, Bool.false_eq_true, if_false, ← ht, hno]
  · have hh : (if t.recording then (t.copyOf tag).isSome else decide (tag = readTag t.rc.wrap t.rc.pos)) = false := by
      rcases hother with ⟨hrec, hc⟩ | ⟨hrec, hlt⟩
      · simp [hrec, hc]
      · simp [hrec, Nat.ne_of_lt hlt]
    rw [exec_rowDecode_tag h79 hg ht htag hh, if_pos Bool.not_false, if_neg]
    rcases hother with ⟨hrec, -⟩ | ⟨-, hlt⟩
    · simp [hrec]
    · simp [Nat.le_of_lt hlt]
  · rw [exec_rowDecode_tag h79 hg ht htag hh, if_neg (by decide), if_neg (by simp [hret]), ha, Option.elim_some, State.confirm, ← hu, State.acceptRow,
      if_pos (by simp [hfit])]
  · have hrec' : u.recording = true := by rw [hu]; exact hrec
    rw [exec_rowDecode_tag h79 hg ht htag hh, if_neg (by decide), if_neg (by simp [hret]), ha, Option.elim_some, State.confirm, ← hu,
      State.acceptRow_fits hfit hw hfmt hcal, if_pos hrec']
    rfl
  · have hrec' : u.recording = false := by rw [hu]; exact hrec
    rw [exec_rowDecode_tag h79 hg ht htag hh, if_neg (by decide), if_neg (by simp [hret]), ha, Option.elim_some, State.confirm, ← hu,
      State.acceptRow_fits hfit hw hfmt hcal, if_neg (by simp [hrec']), if_neg (by simp [hnc])]
  · rw [exec_rowDecode_tag h79 hg ht htag hh, if_neg (by decide), if_neg (by simp [hret]), ha0, ha1, hc]
    rfl

end Sys2Proof.Machine

end

section

/-! # Servo frames, the tape position, speed and the preamplifiers -/

namespace Sys2Proof.Machine

set_option Elab.async false

/-! ## Tape position and speed -/

@[simp] theorem State.reportPos_ctl (s : State) : s.reportPos.ctl = s.ctl := by
  unfold State.reportPos
  split <;> rfl

/-- A word is of no concern to the probe outside probing. -/
theorem State.probeLook_idle {s : State} (h : s.ctl.tsub ≠ .probing) (tpn : Nat) : s.probeLook tpn = s := by
  rw [State.probeLook, if_pos (by simp [h])]

/-- The first word away from the end of a probing tape that runs forward. -/
theorem State.probeLook_away {s : State} {tpn : Nat} (h : s.ctl.tsub = .probing) (hp : s.ctl.probeTpn = false) (hd : 0 < s.ctl.dir)
    (ht : 8 * tpn + 1000 ≤ 772728) : s.probeLook tpn = s.modCtl (fun c => { c with probeTpn := true }) := by
  simp only [State.probeLook, if_pos hd]
  rw [if_neg (by simp [h, hp]), if_pos (by simp only [Nat.not_lt.mpr ht, decide_false, Bool.not_false])]

/-- Only reels braked dynamically look for the brake. -/
theorem State.brakeLook_idle {s : State} (h : s.ctl.tsub ≠ .dynamic) : s.brakeLook = s := by
  rw [State.brakeLook, if_neg (by simp [h])]

theorem exec_speed_measured {s : State} {reverse : Bool} {marks : List (Nat × Nat)} (hdyn : s.ctl.tsub ≠ .dynamic)
    (hm : marks.filterMap laneSpeed ≠ []) :
    exec (.speedMeasurement reverse marks) s = .next ((s.modRc (fun r =>
      { r with speed := if reverse then -median (marks.filterMap laneSpeed) else median (marks.filterMap laneSpeed), speedOk := true })).when
        (median (marks.filterMap laneSpeed) != 0) State.noteMotion) := by
  show execSpeedMeasurement reverse marks s = _
  simp only [execSpeedMeasurement, List.isEmpty_eq_false_iff.mpr hm, Bool.false_eq_true, if_false]
  refine congrArg _ (State.brakeLook_idle ?_)
  unfold State.when
  split <;> exact hdyn

/-! ## The preamplifiers -/

/-- A right reply within the first three is taken. -/
theorem exec_preamp_ok {s : State} {m reg data x : Nat} {rd : Bool} {replies : List Nat} (hf : s.rc.hmcFlt.contains m = false)
    (hx : (replies.take 3).find? (replyOk rd reg data) = some x) :
    exec (.preampTransaction m rd reg data replies) s = .next ((s.modRc (fun r =>
      { r with hmcBad := r.hmcBad.filter (· != m), preamp := if reg = 0 then NMap.put r.preamp m (x / 256 % 256) else r.preamp })).when (rd && reg = 0x40)
        (fun u => u.setElem pTRC_PA_STAT m (x / 256 % 256))) := by
  show execPreampTransaction m rd reg data replies s = _
  have hne : replies.isEmpty = false := by
    cases replies with
    | nil => simp at hx
    | cons a l => rfl
  have hx' : (replies.take 3).find? (fun y => replyOk rd reg data y) = some x := hx
  simp only [execPreampTransaction, hf, hne, Bool.or_self, Bool.false_eq_true, if_false, hx']

/-! ## Servo frames -/

/-- A usable mark. -/
theorem exec_servoFrame_valid {s u : State} {lane mark timeNs a b : Nat} {x : Servo} {d : Int × Nat} (hm : mark < 3) (hab : 0 < a + b)
    (hx : x = (s.servo lane).advance (decide (0 < s.tapeDir)) (mark = 2)) (hamp : s.pn pTRC_SVO_AMIN * x.amps.sum ≤ 100 * (a + b) * x.amps.length)
    (href : x.ref * (((a + b) :: x.amps).take 256).length ≤ 2 * 256 * (((a + b) :: x.amps).take 256).sum) (hd : d = lateralOf x.k a b)
    (hu : u = (s.modServo lane (fun _ => { x with k := d.2, err := some (d.1 - s.lateralTarget d.2), time := timeNs, amps := ((a + b) :: x.amps).take 256 })).lateralSample)
    (hout : u.lateralErrs.any (fun e => e.1 = lane && decide (s.pn pTRC_SVO_OUTL < (e.2 - median (u.lateralErrs.map Prod.snd)).natAbs)) = false) :
    exec (.servoFrame lane mark timeNs a b) s = .next ((u.modServo lane (fun y => { y with outRun := 0 })).reportPos) := by
  show execServoFrame lane mark timeNs a b s = _
  have hvalid : (decide (mark < 3) && decide (0 < a + b) && decide (s.pn pTRC_SVO_AMIN * x.amps.sum ≤ 100 * (a + b) * x.amps.length)) = true := by
    simp only [hm, hab, hamp, decide_true, Bool.and_self]
  simp only [execServoFrame, ← hx, hvalid, Bool.not_true, Bool.false_eq_true, if_false, ← hd, Nat.not_lt.mpr href, decide_false, Bool.false_and,
    State.when, ← hu,
    hout, Bool.and_false, if_true]

/-- Settles O41. -/
theorem servoCommandsAct : Obligations.ServoCommandsAct := by
  unfold Obligations.ServoCommandsAct
  intro s lane
  refine ⟨fun hmv => ?_, fun bits t hok ht => ⟨fun hsub => ?_, fun hsub hp hd hlow => ?_⟩, fun bits hbad hrun => ?_, fun bits hbad hrun => ?_,
    fun hdyn reverse marks v => ⟨fun h0 => ?_, fun hne hv h0 => ?_, fun hne h0 => ?_⟩, fun m reg data replies x hf hx hr => ?_,
    fun m data replies x hf hx => ?_, fun m rd data replies x hf hx => ?_, fun m rd reg data a b c rest hf hx => ?_, fun m status hf => ?_,
      fun m => rfl,
    fun mark timeNs a b hm => ⟨_, rfl, ?_⟩, fun mark timeNs a b x d u hm hab hx hamp href hd hu hout => ?_⟩
  · show execServoFrameTimeout lane s = _
    rw [execServoFrameTimeout, if_neg (by simp [hmv])]
  · show execTapePositionWord lane bits s = _
    rw [execTapePositionWord, if_pos hok, ← ht, State.probeLook_idle (by simpa [ht, State.modServo] using hsub)]
  · show execTapePositionWord lane bits s = _
    rw [execTapePositionWord, if_pos hok, ← ht, State.probeLook_away hsub hp hd hlow]
  · show execTapePositionWord lane bits s = _
    have hmin : min 3 ((s.servo lane).crcRun + 1) = (s.servo lane).crcRun + 1 := by omega
    have hne : (s.servo lane).crcRun + 1 ≠ 3 := by omega
    simp only [execTapePositionWord, hbad, Bool.false_eq_true, if_false, hmin, hne, decide_false, Bool.false_and, State.when]
  · show execTapePositionWord lane bits s = _
    simp only [execTapePositionWord, hbad, Bool.false_eq_true, if_false, hrun]
    rfl
  · show execSpeedMeasurement reverse marks s = _
    simp only [execSpeedMeasurement, h0, List.isEmpty_nil, if_true]
    exact congrArg _ (State.brakeLook_idle hdyn)
  · rw [exec_speed_measured hdyn hne, ← hv, State.when, if_pos (by simpa using h0)]
    rfl
  · rw [exec_speed_measured hdyn hne, h0]
    rfl
  · rw [exec_preamp_ok hf hx]
    simp only [if_neg hr, Bool.false_and, State.when, Bool.false_eq_true, if_false]
  · rw [exec_preamp_ok hf hx]
    rfl
  · rw [exec_preamp_ok hf hx]
    cases rd <;> rfl
  · show execPreampTransaction m rd reg data (a :: b :: c :: rest) s = _
    have hx' : ([a, b, c] : List Nat).find? (fun y => replyOk rd reg data y) = none := hx
    simp only [execPreampTransaction, hf, List.isEmpty_cons, Bool.or_self, Bool.false_eq_true, if_false, List.take_succ_cons, List.take_zero, hx',
      List.length_cons]
    rw [if_neg (by omega)]
  · show execPreampFault m status s = _
    rw [execPreampFault, if_neg (by simp only [hf]; decide)]
  · show execServoFrame lane mark timeNs a b s = _
    simp only [execServoFrame, Nat.not_lt.mpr hm, decide_false, Bool.false_and, Bool.not_false, if_true, State.when, Bool.false_eq_true, if_false]
  · exact exec_servoFrame_valid hm hab hx hamp href hd hu hout

end Sys2Proof.Machine

end

section

/-! # Read passes, rereads and records -/

namespace Sys2Proof.Machine

set_option Elab.async false

/-- A capture completed in a pass goes on with the next position or ends the pass. -/
theorem exec_captureComplete {s t u : State} {p : Pass} (hp : s.rc.pass = some p) (hdec : s.decoding = true) (hrec : s.recording = false)
    (ht : (if p.kind = 3 then s else (if p.kind = 0 then s.noteTaken else s).capture) = t)
    (hu : u = t.modRc (fun r => { r with cap := [], failedHdr := [], pos := r.pos + 1 })) :
    exec .captureComplete s = .next (
      if u.rc.pos ≤ p.last then (u.readAll).goOn
      else if p.kind = 2 then u.endIndexPass
      else if p.kind = 3 then u.endCalPass p
      else u.endReadPass p) := by
  show execCaptureComplete s = _
  simp only [execCaptureComplete, hp, hdec, hrec, Bool.not_true, Bool.or_self, Bool.false_eq_true, if_false, ht, ← hu]

/-- The first whole record that has been decompressed is checked. -/
theorem exec_recordCrcCheck {s t : State} {r : ReadRec} (hf : s.flows 61 = true) (hr : s.rc.recs.find? (fun r => r.decoded && r.whole) = some r)
    (ht : t = s.modRc (fun x => { x with recs := x.recs.filter (fun y => y != r) })) :
    exec .recordCrcCheck s = .next (r.out.elim ((t.bumpPv pCMP_STRUCT_ERR 0 1).recFails (beAt r.header 0x10 8) (beAt r.header 0x0C 4) 0x13 r.ds) (fun b =>
      if crc32c b = beAt r.header 0x30 4 then
        (t.passBytes 61 b.length).modRc (fun x => { x with plain := (List.range (beAt r.header 0x0C 4)).foldl (fun (m : NMap Bytes) i =>
          NMap.put m (beAt r.header 0x10 8 + i) (slice b (4096 * i) 4096)) x.plain })
      else (t.bumpPv pCMP_DCRC_FAIL 0 1).recFails (beAt r.header 0x10 8) (beAt r.header 0x0C 4) 0x13 r.ds)).readAll.goOn := by
  show execRecordCrcCheck s = _
  simp only [execRecordCrcCheck, if_pos hf, hr, ← ht]
  cases r.out <;> rfl

/-- Settles O42. -/
theorem readPassesAct : Obligations.ReadPassesAct := by
  unfold Obligations.ReadPassesAct
  intro s
  refine ⟨fun p hp hdec hrec => ⟨fun u hk hu => ?_, fun hk u hu => ?_, fun hk hlast => ?_⟩,
    fun seq l g w a b hseq hl hrdy hpass haft hlat hsub hspan r rest htask => ?_,
    fun seq l hseq hl hfirst t ht => ⟨fun hin => ?_, fun hin => ?_⟩, fun r hr h52 h53 hroom out hout => ?_,
    fun h61 r t hr ht => ⟨fun b hb hcrc => ?_, fun b hb hcrc => ?_, fun hb => ?_⟩⟩
  · have hgo := exec_captureComplete (u := u) (t := s.noteTaken.capture) hp hdec hrec (by simp [hk]) hu
    refine ⟨fun hle => ?_, fun hlt => ?_⟩
    · rw [hgo, if_pos hle]
    · rw [hgo, if_neg (Nat.not_le.mpr hlt), if_neg (by simp [hk]), if_neg (by simp [hk])]
  · have hgo := exec_captureComplete (u := u) (t := s.capture) hp hdec hrec (by simp [hk]) hu
    refine ⟨fun hle => ?_, fun hlt => ?_⟩
    · rw [hgo, if_pos hle]
    · rw [hgo, if_neg (Nat.not_le.mpr hlt), if_neg (by simp [hk]), if_neg (by simp [hk])]
  · rw [exec_captureComplete hp hdec hrec (if_pos hk) rfl]
    exact congrArg _ (if_pos hlast)
  · show execRereadPassStart seq s = _
    simp only [execRereadPassStart, hl]
    rw [if_neg (by simp [hrdy, hpass, haft, hlat, hsub]), if_neg (Nat.not_le.mpr hseq), htask]
    simp only [State.startReread, hspan]
  · show execRetryTimeExpiry seq s = _
    simp only [execRetryTimeExpiry, hl, ← ht]
    rw [if_neg (by simp [hfirst]), if_pos hin]
  · show execRetryTimeExpiry seq s = _
    simp only [execRetryTimeExpiry, hl, ← ht]
    rw [if_neg (by simp [hfirst]), if_neg (by simp [hin]), if_neg (Nat.not_le.mpr hseq)]
  · show execRecordDecompressStart s = _
    simp only [execRecordDecompressStart, hr, Nat.not_lt.mpr hroom, decide_false, h52, h53, Bool.not_true, Bool.or_self, Bool.false_eq_true, if_false,
      ← hout]
  · rw [exec_recordCrcCheck h61 hr ht, hb, Option.elim_some, if_pos hcrc]
  · rw [exec_recordCrcCheck h61 hr ht, hb, Option.elim_some, if_neg hcrc]
  · rw [exec_recordCrcCheck h61 hr ht, hb, Option.elim_none]

end Sys2Proof.Machine

end

section

/-! # The control engine: slots, limiter, emergency stop and the feedback supervisor -/

namespace Sys2Proof.Machine

set_option Elab.async false

/-! ## The limiter and the reels -/

theorem State.probeWatch_idle {s : State} (h : s.ctl.tsub ≠ .probing) : s.probeWatch = s := by
  rw [State.probeWatch, if_pos (by simp [h])]

/-- A super-frame outside probing and releasing. -/
theorem exec_limiterUpdate {s t : State} (ht : s.superFrame = t) (hp : t.ctl.tsub ≠ .probing) (hr : t.ctl.rel = none) :
    exec .limiterUpdate s = .next t := by
  show execLimiterUpdate s = _
  simp only [execLimiterUpdate, ht, State.probeWatch_idle hp, hr]

/-- An emergency stop whose condition holds (R201, R213, R214). -/
theorem exec_emergencyStop_due {s : State} {cause : Nat}
    (h : (cause = 1 ∧ (s.link 0).fault = true ∧ (s.link 1).fault = true)
      ∨ (cause = 2 ∧ ∀ n, n ≤ 1 → (s.slot n).st = .hold ∧ s.estimate n = none)
      ∨ (cause = 3 ∧ s.mag.st = .drain ∧ s.moves = true ∧ s.pw.bankMv < s.pn pPWR_BANK_MIN)) :
    exec (.emergencyStop cause) s = .next (s.emergency cause) := by
  show execEmergencyStop cause s = _
  rw [execEmergencyStop]
  refine congrArg _ (if_pos ?_)
  rcases h with ⟨rfl, h0, h1⟩ | ⟨rfl, hh⟩ | ⟨rfl, hd, hm, hb⟩
  · simp [h0, h1]
  · simp [hh 0 (by decide), hh 1 (by decide)]
  · simp [hd, hm, hb]

theorem exec_emergencyStop_undue {s : State} {cause : Nat} (h1 : cause = 1 → (s.link 0).fault = false ∨ (s.link 1).fault = false)
    (h2 : cause = 2 → (s.slot 0).st ≠ .hold ∨ (s.slot 1).st ≠ .hold) (h3 : cause = 3 → s.mag.st ≠ .drain) :
    exec (.emergencyStop cause) s = .next s := by
  show execEmergencyStop cause s = _
  rw [execEmergencyStop]
  refine congrArg _ (if_neg ?_)
  by_cases c1 : cause = 1
  · rcases h1 c1 with h | h <;> simp [c1, h]
  · by_cases c2 : cause = 2
    · rcases h2 c2 with h | h <;> simp [c2, h]
    · by_cases c3 : cause = 3
      · simp [c3, h3 c3]
      · simp [c1, c2, c3]

/-- Settles O43. -/
theorem controlLoopCommandsAct : Obligations.ControlLoopCommandsAct := by
  unfold Obligations.ControlLoopCommandsAct
  refine ⟨fun s => ⟨fun slot t h5 ht => ⟨fun hst => ?_, fun hst hrel => ?_, fun hst hrel hcl => ?_⟩,
      fun t ht => ⟨fun hrev hp hr => ?_, fun hrev hv ha hd hp hr => ?_⟩, fun hd => ?_, fun slot hs => ?_, fun slot => rfl, fun h q t slot k hc => ?_⟩,
    fun s => ⟨fun cause ht h => ?_, fun cause h1 h2 h3 => exec_emergencyStop_undue h1 h2 h3, fun hd hb hs => ?_, fun hd hs he => ?_⟩⟩
  · show execSlotSampleInstant slot s = _
    simp only [execSlotSampleInstant, if_neg (Nat.not_lt.mpr h5), ← ht, hst]
  · show execSlotSampleInstant slot s = _
    simp only [execSlotSampleInstant, if_neg (Nat.not_lt.mpr h5), ← ht, hst, if_neg hrel]
  · show execSlotSampleInstant slot s = _
    simp only [execSlotSampleInstant, if_neg (Nat.not_lt.mpr h5), ← ht, hst]
    rw [if_neg]
    rcases hcl with hcl | hcl
    · simp [hcl, hrel]
    · simp [hcl, hrel]
  · refine exec_limiterUpdate ?_ hp hr
    simp only [State.superFrame, ← ht]
    exact if_neg (by simp [hrev])
  · refine exec_limiterUpdate (?_ : s.superFrame = t.modCtl (fun c => c.beginDwell true)) ?_ hr
    · simp only [State.superFrame, ← ht]
      exact if_pos (by simp [hrev, hv, ha, hd])
    · show (if t.ctl.tsub.moves then TSub.dwell else t.ctl.tsub) ≠ .probing
      split
      · decide
      · exact hp
  · show execDwellEnd s = _
    rw [execDwellEnd, if_pos hd]
  · show execSubstitutionEnd slot s = _
    rw [execSubstitutionEnd, if_pos hs, State.toHold]
  · show execCtlRearm (some h) slot s = _
    rw [execCtlRearm, State.regWrite_host k hc, State.requestRearm]
  · rw [exec_emergencyStop_due h, State.emergency, if_neg (by simp [ht])]
  · show execEmergencyBrakeApply s = _
    rw [execEmergencyBrakeApply, State.brakeLook, if_pos]
    rcases hs with hs | ⟨t, he, hle⟩
    · simp [hd, hb, hs]
    · simp [hd, hb, he, hle]
  · show execEmergencyBrakeApply s = _
    rw [execEmergencyBrakeApply, State.brakeLook, if_neg]
    cases hem : s.ctl.emAt with
    | none => simp [Nat.not_lt.mpr hs]
    | some t => simp [Nat.not_lt.mpr hs, he t hem]

/-! ## The feedback supervisor -/

theorem State.slot_modLink (s : State) (k n : Nat) (f : Link → Link) : (s.modLink k f).slot n = s.slot n := rfl

theorem State.slot_modEnc (s : State) (r n : Nat) (f : Encoder → Encoder) : (s.modEnc r f).slot n = s.slot n := rfl

@[simp] theorem State.slot_modSlot (s : State) (n : Nat) (f : Slot → Slot) : (s.modSlot n f).slot n = f (s.slot n) :=
  NMap.get_upd_same _ _ _ _

/-- What the record of a period leaves in its slot. -/
theorem State.slot_notePeriod (s : State) (n : Nat) :
    ((s.notePeriod n).slot n).loss = (s.faultCounts n).1 ∧ ((s.notePeriod n).slot n).freeze = (s.faultCounts n).2.1
      ∧ ((s.notePeriod n).slot n).resid = (s.faultCounts n).2.2 ∧ ((s.notePeriod n).slot n).valid = s.sampleValid n
      ∧ ((s.notePeriod n).slot n).st = (s.slot n).st ∧ ((s.notePeriod n).slot n).subst = (s.slot n).subst := by
  unfold State.notePeriod
  cases linkOf n <;> by_cases h : n < 2 <;> simp [h, State.slot_modLink, State.slot_modEnc]

theorem State.notePeriod_frame (s : State) (n : Nat) : (s.notePeriod n).mag = s.mag ∧ (s.notePeriod n).car = s.car := by
  unfold State.notePeriod
  cases linkOf n <;> by_cases h : n < 2 <;> simp only [h, if_true, if_false] <;> exact ⟨rfl, rfl⟩

/-- The fault counts after a valid period with no excitation and no estimate. -/
theorem State.faultCounts_clear {s : State} {n : Nat} (hv : s.sampleValid n = true) (hx : s.excited n = false) (he : s.estimate n = none) :
    s.faultCounts n = (0, 0, 0) := by
  simp only [State.faultCounts, hv, hx, he, if_true, Bool.false_and, Bool.false_eq_true, if_false]

/-- Settles O44. -/
theorem feedbackIsSupervised : Obligations.FeedbackIsSupervised := by
  unfold Obligations.FeedbackIsSupervised
  intro s slot h5
  obtain ⟨hloss, hfr, hres, hval, hst, hsub⟩ := s.slot_notePeriod slot
  obtain ⟨hmag, hcar⟩ := s.notePeriod_frame slot
  refine ⟨fun ht => ?_, fun ht hv hx he => ⟨s.notePeriod slot, ?_, ?_⟩, fun ht hv hl h3 harm hs => ⟨s.notePeriod slot, ?_, ?_⟩⟩
  · show execSupervisorFeedbackPeriod slot s = _
    rw [execSupervisorFeedbackPeriod, if_neg (Nat.not_lt.mpr h5), if_pos ht]
  · have hcount := State.faultCounts_clear hv hx he
    have hdue : s.faultDue slot = none := by simp [State.faultDue, hcount, he]
    show execSupervisorFeedbackPeriod slot s = _
    rw [execSupervisorFeedbackPeriod, if_neg (Nat.not_lt.mpr h5), if_neg (by simp [ht]), State.supervise, hdue]
  · have hcount := State.faultCounts_clear hv hx he
    rw [hloss, hfr, hres, hval, hst, hcount]
    exact ⟨rfl, rfl, rfl, hv, rfl, hmag, hcar⟩
  · have hcount : (s.faultCounts slot).1 = 3 := by simp [State.faultCounts, hv, hl]
    have hdue : s.faultDue slot = some 1 := by
      rw [State.faultDue, if_neg, if_pos (Nat.le_of_eq hcount.symm)]
      simp [harm, hs]; omega
    show execSupervisorFeedbackPeriod slot s = _
    rw [execSupervisorFeedbackPeriod, if_neg (Nat.not_lt.mpr h5), if_neg (by simp [ht]), State.supervise, hdue]
  · rw [hloss, hst, hsub]
    exact ⟨by simp [State.faultCounts, hv, hl], harm, hs, hmag, hcar⟩

end Sys2Proof.Machine

end

section

/-! # Encoders, sensor links and the trace -/

namespace Sys2Proof.Machine

set_option Elab.async false

/-- A legal edge of A: B stands, the cycles since the last edge are enough and the index is still asserted. -/
theorem exec_encoderEdge_legal {s : State} {reel cycles : Nat} {b : Bool} (hr : reel ≤ 1) (ha : (s.encoder reel).a = false)
    (hb : (s.encoder reel).b = b)
    (hc : 100 ≤ cycles) (hi : (s.encoder reel).i = true) :
    exec (.encoderEdge reel true b true cycles) s = .next ((s.modEnc reel (fun y =>
      { y with
        a := true
        b := b
        i := true
        count := (s.encoder reel).count + (if true != b then 1 else -1)
        cycle := (s.encoder reel).cycle + cycles
        edges := (((s.encoder reel).cycle + cycles, (s.encoder reel).count + (if true != b then 1 else -1)) :: (s.encoder reel).edges).filter
          (fun x => decide ((s.encoder reel).cycle + cycles ≤ x.1 + 160000))
        idle := 0 })).noteMotion) := by
  show execEncoderEdge reel true b true cycles s = _
  have hstep : (if !b then (1 : Int) else -1) ≠ 0 := by split <;> decide
  simp only [execEncoderEdge, if_neg (Nat.not_lt.mpr hr), ha, hb, hi, Bool.not_true, Bool.and_false, Bool.false_and, bne_self_eq_false, Bool.true_bne,
    Bool.not_false,
    Bool.true_and, decide_true, if_true, Bool.false_eq_true, if_false, if_neg hstep, Nat.not_lt.mpr hc, decide_false]

/-- Both inputs change at once. -/
theorem exec_encoderEdge_both {s : State} {reel cycles : Nat} (hr : reel ≤ 1) (ha : (s.encoder reel).a = false) (hb : (s.encoder reel).b = false) :
    exec (.encoderEdge reel true true false cycles) s = .next ((s.modEnc reel (fun y =>
      { y with
        a := true
        b := true
        i := false
        count := (s.encoder reel).count + 0
        cycle := (s.encoder reel).cycle + cycles
        edges := (s.encoder reel).edges
        idle := 0 })).encoderBad reel 1) := by
  show execEncoderEdge reel true true false cycles s = _
  simp only [execEncoderEdge, if_neg (Nat.not_lt.mpr hr), ha, hb]
  rfl

theorem State.linkFault_one {s t : State} {k : Nat} (ht : t = (s.modLink k (fun l => { l with fault := true })).declare (slotOfLink k) 4)
    (h : (t.link 0).fault = false ∨ (t.link 1).fault = false) : s.linkFault k = t := by
  simp only [State.linkFault, ← ht]
  exact if_neg (by rcases h with h | h <;> simp [h])

/-- Only an armed slot declares the fault of its link. -/
theorem State.declare_unarmed {s : State} {n : Nat} (h : (s.slot n).st ≠ .armed) (cause : Nat) : s.declare n cause = s := by
  rw [State.declare, if_pos (by simp [h])]

theorem State.link_modLink_other (s : State) {k i : Nat} (h : i ≠ k) (f : Link → Link) : (s.modLink k f).link i = s.link i :=
  NMap.get_upd_other _ _ _ h

/-- A status frame with a wrong CRC. -/
theorem exec_linkStatus_badCrc {s : State} {link frame : Nat} {late : Bool} (hon : (s.link link).on = true) (h3 : link ≤ 3)
    (hcrc : crc8Bits (msbBits 80 (frame / 256)) ≠ frame % 256) : exec (.linkStatusFrame link frame late) s = .next (s.linkBad link 1) := by
  show execLinkStatusFrame link frame late s = _
  simp only [execLinkStatusFrame]
  rw [if_neg (by simp [hon, Nat.not_lt.mpr h3]), if_pos (by simp [hcrc])]

/-- Settles O45. -/
theorem linkAndTraceCommandsAct : Obligations.LinkAndTraceCommandsAct := by
  unfold Obligations.LinkAndTraceCommandsAct
  intro s
  refine ⟨fun reel hr b cycles ha hb hc hi => exec_encoderEdge_legal hr ha hb hc hi, fun reel hr cycles ha hb hev t ht => ?_, fun raw => ⟨_, rfl, ?_⟩,
    fun link hon => ⟨?_, fun t ht hf => ?_, fun hst h2 hf => ?_⟩, fun link frame late hon h3 hcrc t ht => ⟨fun hw => ?_, fun hw => ?_⟩,
    fun link frame hon h1 hcrc hty hseq hask h25 => ?_, rfl, rfl, fun h q t k => ⟨fun hc => ?_, fun hc => ?_⟩, fun hst => ?_, fun hst hleft => ?_,
      fun hst hleft => ?_⟩
  · subst ht
    have hev' (f : Encoder → Encoder) (hf : (f (s.encoder reel)).evtAt = (s.encoder reel).evtAt) :
        (s.modEnc reel f).withinSecond ((s.modEnc reel f).encoder reel).evtAt = false := by
      rw [← hev, ← hf]
      exact congrArg (fun e : Encoder => s.withinSecond e.evtAt) (NMap.get_upd_same _ _ _ _)
    rw [exec_encoderEdge_both hr ha hb, State.encoderBad, if_neg (by rw [hev' _ rfl]; decide)]
    rfl
  · simp only [apply_ite State.ctl, State.raise_ctl, ite_self]
    refine ⟨rfl, fun hf => ?_, fun hf => ?_⟩
    · exact if_neg (by simpa using hf)
    · exact if_pos hf
  · show execLinkSampleFrame link s = _
    rw [execLinkSampleFrame, if_pos hon]
  · show execFaultLineAsserted link s = _
    rw [execFaultLineAsserted, if_pos hon, State.linkFault_one ht hf]
  · show execFaultLineAsserted link s = _
    have hd : (s.modLink link (fun l => { l with fault := true })).declare (slotOfLink link) 4 = s.modLink link (fun l => { l with fault := true }) :=
      State.declare_unarmed (s := s.modLink link _) hst 4
    rw [execFaultLineAsserted, if_pos hon, State.linkFault_one hd.symm (.inl (by rw [State.link_modLink_other s (by omega), hf]))]
  · rw [exec_linkStatus_badCrc hon h3 hcrc, State.linkBad, if_pos hw, ht]
  · rw [exec_linkStatus_badCrc hon h3 hcrc, State.linkBad, if_neg (by simp [hw]), ht]
  · show execLinkStatusFrame link frame false s = _
    have h2 : link ≠ 2 := by omega
    have h3 : link ≠ 3 := by omega
    simp only [execLinkStatusFrame, if_pos (Nat.lt_of_le_of_lt h1 Nat.one_lt_two)]
    rw [if_neg (by simp [hon]; omega), if_neg (by simp [hcrc, hty]), if_neg (by simp [hseq, hask]), if_neg (by simp [h25])]
    simp only [Bool.false_eq_true, if_false, if_neg h2, if_neg h3, Bool.not_false]
  · show execCtlTrcArm (some h) s = _
    rw [execCtlTrcArm, State.regWrite_host k hc]
  · show execCtlTrcSoftwareTrigger (some h) s = _
    rw [execCtlTrcSoftwareTrigger, State.regWrite_host k hc]
  · show execTraceSample s = _
    simp only [execTraceSample]
    rw [if_pos (by simpa using hst)]
  · refine ⟨_, (congrArg Host.Outcome.next (if_neg ?_) : execTraceSample s = _), rfl, rfl, rfl, _, rfl, rfl⟩
    simp [hst, hleft]
  · show execTraceFreeze s = _
    simp only [execTraceFreeze]
    rw [if_pos (by simp [hst, hleft])]

end Sys2Proof.Machine

end

section

/-! # Bringing the tape to tension -/

namespace Sys2Proof.Machine

set_option Elab.async false

section TensionUp

variable {s t w : State} (hsub : s.ctl.tsub = .braked) (hstage : s.ctl.stage = 0) (haft : s.ctl.after = none) (hpp : s.nv.pp = false)
  (hneed : s.tapeNeeded = true) (hst : s.mag.st = .ready)
include hsub hstage haft hpp hneed hst

/-- Tension-up begins on a braked tape in READY with work that needs it. -/
theorem State.tensionUp_can : ¬ (!(decide (s.ctl.tsub = .braked) && decide (s.ctl.stage = 0) && s.ctl.after.isNone && !s.nv.pp && s.tapeNeeded
    && (decide (s.mag.st = .ready) || decide (s.mag.st = .parked) || decide (s.mag.st = .service)))) = true := by
  simp [hsub, hstage, haft, hpp, hneed, hst]

variable (ht : t = s.tapeState .tensioned)
include ht

/-- A drive rail without PGOOD. -/
theorem exec_tensionUp_noRail {a b : Bool} {x : State} (hup : t.ctl.railsUp = false) (hab : (a && b) = false)
    (hx : x = (t.raise 0x783 1 (leBytes 1 (if a then 11 else 10))).modPw (fun p => { p with en := p.en % 1024, pgood := p.pgood % 1024 })) :
    exec (.tensionUp a b) s = .next (x.tensionFail 1) := by
  show execTensionUp a b s = _
  simp only [execTensionUp]
  rw [if_neg (State.tensionUp_can hsub hstage haft hpp hneed hst), ← ht, if_pos (by simp only [hup, hab]; decide), hx]

variable (hw : w = (t.modCtl (fun c => { c with railsUp := true })).modPw (fun p =>
  { p with en := p.en % 1024 + 3072, pgood := p.pgood % 1024 + 3072 }))
include hw

theorem exec_tensionUp_noRearm {u : State} (hu : w.rearmAll = (false, u)) : exec (.tensionUp true true) s = .next (u.tensionFail 2) := by
  show execTensionUp true true s = _
  simp only [execTensionUp]
  rw [if_neg (State.tensionUp_can hsub hstage haft hpp hneed hst), ← ht, if_neg (by simp), ← hw, hu, if_pos (by simp)]

/-- With both rails and every slot re-armed the brake opens and the links go on. -/
theorem exec_tensionUp_rearmed {u v : State} (hu : w.rearmAll = (true, u)) (hv : v = (u.linksOn.modCtl (fun c =>
      { c with
        brake := false
        scb := false
        fast := false
        supStop := false
        probed := false
        dwell := false
        reversing := false
        begun := true
        probeTpn := false
        tensFor := 0
        sweep := none
        swept := false
        stage := match c.tasks with | .load _ :: _ => 1 | _ => 0 })).modRc (fun x =>
      { x with servo := x.servo.map (fun e => (e.1, { e.2 with ref := 256 * e.2.amps.sum / max 1 e.2.amps.length })) })) :
    exec (.tensionUp true true) s = .next (if v.ctl.radiusOk then v.armReels else v.modCtl (fun c => { c with tsub := .probing, dir := v.findDir })) := by
  show execTensionUp true true s = _
  subst hv
  simp only [execTensionUp]
  rw [if_neg (State.tensionUp_can hsub hstage haft hpp hneed hst), ← ht, if_neg (by simp), ← hw, hu, if_neg (by simp)] <;> rfl

end TensionUp

/-- Settled tension arms the trapeze; the position is the one kept, or is looked for. -/
theorem exec_tensionSettled_idle {s u t : State} (hsub : s.ctl.tsub = .tensioning)
    (hu : u = [3, 4, 5].foldl State.armUnlessHeld (if (s.slot 2).st = .off then s.arm 2 else s))
    (ht : t = u.modCtl (fun c => { c with held := u.positionKept, tsub := .held, idleTens := s.pn pCTL_IDLE_TENS })) (htask : t.ctl.tasks = []) :
    exec .tensionSettled s = .next (
      if u.positionKept.isSome then t.serve
      else t.modCtl (fun c =>
        { c with tsub := .finding, sweep := none, swept := false, begun := !c.tasks.isEmpty, dir := t.findDir, target := t.findDir * t.pn pCTL_FIND_V })) := by
  show execTensionSettled s = _
  simp only [execTensionSettled]
  rw [if_neg (by simp [hsub]), ← hu, ← ht, htask]

/-- Settles O47. -/
theorem tensionSequenceActs : Obligations.TensionSequenceActs := by
  unfold Obligations.TensionSequenceActs
  intro s
  refine ⟨fun hsub hstage haft hpp hneed hst t w ht hw => ⟨fun a b x hup hab hx => exec_tensionUp_noRail hsub hstage haft hpp hneed hst ht hup hab hx,
      fun u hu => exec_tensionUp_noRearm hsub hstage haft hpp hneed hst ht hw hu, fun u v hu hv => ?_⟩,
    fun hsub => ⟨fun a b => ?_, fun a b => ?_⟩, fun hsub => ⟨fun t ht => ?_, fun u t hu ht htask => ?_⟩⟩
  · have hgo := exec_tensionUp_rearmed hsub hstage haft hpp hneed hst ht hw hu hv
    exact ⟨fun hr => by rw [hgo, if_pos hr, State.armReels], fun hr => by rw [hgo, if_neg (by simp [hr])]⟩
  · show execRadiusProbeDone true a b s = _
    rw [execRadiusProbeDone, if_neg (by simp [hsub]), if_pos rfl, State.armReels]
  · show execRadiusProbeDone false a b s = _
    rw [execRadiusProbeDone, if_neg (by simp [hsub]), if_neg (by decide), State.tensionFail, State.release]
  · show execTensionTimeout s = _
    rw [execTensionTimeout, if_neg (by simp [hsub]), ← ht, State.tensionFail, State.release]
  · have hgo := exec_tensionSettled_idle hsub hu ht htask
    exact ⟨fun hk => by rw [hgo, if_pos hk], fun hk => by rw [hgo, if_neg (by simp [hk])]⟩

end Sys2Proof.Machine

end

section

/-! # The position of the tape, arrivals and stops -/

namespace Sys2Proof.Machine

set_option Elab.async false

/-- A stop with its limits at 0 has come to rest. -/
theorem State.stop_atRest {s : State} (hsub : s.ctl.tsub = .stopping) (hv : s.ctl.vlim = 0) (ha : s.ctl.alim = 0) :
    ¬ (!(decide (s.ctl.tsub = .stopping) && decide (s.ctl.vlim = 0) && decide (s.ctl.alim = 0) || decide (s.ctl.tsub = .dynamic) && s.ctl.brake)) = true := by
  simp [hsub, hv, ha]

/-- The trapeze of a held tape that may not move: its slots in hold are re-armed. -/
theorem exec_trapezeAutoRearm_held {s v : State} (hsub : s.ctl.tsub = .held) (hlat : s.lateralOkToMove = false)
    (hr : [4, 5].foldl (fun (a : Bool × State) n =>
      if (a.2.slot n).st = .hold then (let x := a.2.rearm n (n = 4); (a.1 && x.1, x.2)) else a) (true, s) = (true, v)) :
    exec .trapezeAutoRearm s = .next v.serve := by
  show execTrapezeAutoRearm s = _
  simp only [execTrapezeAutoRearm, hr]
  rw [if_neg (by simp [hsub, hlat]), if_pos trivial]

/-- Settles O48. -/
theorem positionAndStopActs : Obligations.PositionAndStopActs := by
  unfold Obligations.PositionAndStopActs
  intro s
  refine ⟨fun hsub => ⟨fun tpn frame boundary htask => ?_, fun cause => ?_⟩, fun harr c a rest htask => ?_, fun haim hmv => ?_,
    fun hsub hv ha t ht => ⟨fun haft htask => ?_, fun haft => ?_, fun haft => ?_, fun haft => ?_⟩,
    fun hsub hlat h4 h5 => exec_trapezeAutoRearm_held hsub hlat ?_, fun v hsub hlat h4 h5 hr => exec_trapezeAutoRearm_held hsub hlat ?_,
    fun hst hsub htask hidle => ?_, fun hst hrd hidle => ⟨_, rfl, fun hmv => ?_, fun hmv => ?_⟩, ⟨_, rfl, rfl⟩,
      ⟨_, rfl, fun htask hst haft hmv => ?_⟩⟩
  · show ∃ t : State, execPositionValid tpn frame boundary s = .next t.serve ∧ _
    simp only [execPositionValid]
    rw [if_neg (by simp [hsub])]
    simp only [State.modPw_ctl, State.modCtl_ctl, State.modRc_ctl, htask]
    exact ⟨_, rfl, rfl, rfl, rfl, rfl, rfl⟩
  · show execFindPositionFailed cause s = _
    rw [execFindPositionFailed, if_neg (by simp [hsub])]
  · show execLocateArrival s = _
    simp only [execLocateArrival, harr, Bool.not_true, Bool.false_eq_true, if_false, htask]
  · show execLocateTimeout s = _
    rw [execLocateTimeout, if_neg (by simp [hmv, Option.isSome_iff_ne_none.mp haim])]
  · show execStopComplete s = _
    simp only [execStopComplete, haft, if_neg (State.stop_atRest hsub hv ha), ← ht, htask]
  · show execStopComplete s = _
    simp only [execStopComplete, haft, if_neg (State.stop_atRest hsub hv ha), ← ht]
  · show execStopComplete s = _
    simp only [execStopComplete, haft, if_neg (State.stop_atRest hsub hv ha), ← ht]
    rfl
  · show execStopComplete s = _
    simp only [execStopComplete, haft, if_neg (State.stop_atRest hsub hv ha), ← ht]
  · simp only [List.foldl_cons, List.foldl_nil, if_neg h4, if_neg h5]
  · simp only [List.foldl_cons, List.foldl_nil, if_neg h4, if_pos h5]
    have h54 : decide (5 = 4) = false := rfl
    rw [h54, hr]
    rfl
  · show execTensionedIdleTimeout s = _
    rw [execTensionedIdleTimeout, if_pos (by simp [hst, hsub, htask, hidle])]
  · show execPlaybackIdleTimeout s = _
    simp only [execPlaybackIdleTimeout]
    rw [if_pos (by simp [hst, hrd, hidle]), if_neg (by simp [hmv])]
  · show execPlaybackIdleTimeout s = _
    simp only [execPlaybackIdleTimeout]
    rw [if_pos (by simp [hst, hrd, hidle]), if_pos hmv]
  · show execLidSwChange true s = _
    simp only [execLidSwChange, htask, Bool.not_true, Bool.false_eq_true, if_false]
    rw [if_neg (by rw [hst, haft]; decide), if_pos hmv]

end Sys2Proof.Machine

end

section

/-! # The Carousel -/

namespace Sys2Proof.Machine

set_option Elab.async false

/-! ## Page reads -/

/-- The read of a page that holds no unit is of no concern, but for an erased page whose sectors cannot be corrected. -/
theorem exec_pageRead_noUnit {s t : State} {die block page n lost : Nat} {errors : List Nat} (hal : s.mag.st.alive = true)
    (hd : s.dieThere die = true)
    (ht : t = s.applyPend (fun p _ => p = pCSL_RT_TAB)) (hn : n = attemptsMade errors (t.pn pCSL_RETRY_N) 0) (hu : t.unitAt die block page = none)
    (hl : lost = (List.range 8).countP (fun j => (List.range n).all (fun k => t.sectorRead false (attemptBits errors k j) = .uncorrectable))) :
    exec (.pageRead die block page errors) s = .next (
      if t.pageErased die block page && lost != 0 then (t.carLog 0x40 lost).raise (dieEvt die) 3 (dieData die block page) else t) := by
  show execPageRead die block page errors s = _
  simp only [execPageRead, hal, hd, Bool.not_true, Bool.or_self, Bool.false_eq_true, if_false, ← ht, hu, ← hn, ← hl]

/-- With at most 120 wrong bits in every sector at the first attempt no sector is bad. -/
theorem attempt_good {errors : List Nat} (h : ∀ j, j < 8 → attemptBits errors 0 j ≤ 120) :
    (List.range 8).filter (fun j => (List.range 1).all (fun k => decide (120 < attemptBits errors k j))) = [] := by
  refine List.filter_eq_nil_iff.mpr (fun j hj => ?_)
  simp [h j (List.mem_range.mp hj)]

/-! ## The age clock -/

/-- The age clock keeps the fraction it does not count yet. -/
theorem age_carry (age frac step : Nat) :
    2 ^ 32 * (age + (frac + step) / 2 ^ 32) + (frac + step) % 2 ^ 32 = 2 ^ 32 * age + frac + step := by
  have h := Nat.div_add_mod (frac + step) (2 ^ 32)
  rw [Nat.mul_add]
  omega

/-- The age clock after 16 s with Chervil awake, weighted by the temperature. -/
def Car.aged (c : Car) (step : Nat) : Car := { c with age := c.age + (c.ageFrac + step) / 2 ^ 32, ageFrac := (c.ageFrac + step) % 2 ^ 32 }

theorem exec_ageClockStep_on {s : State} (h : s.pw.aon = true) :
    exec .ageClockStep s = .next (s.modCar (fun c => c.aged (16 * ageFactor (s.pn pCSL_EA_MEV) s.ageTemp))) := by
  show execAgeClockStep s = _
  rw [execAgeClockStep, if_neg (by simp [h])]
  rfl

/-! ## Folding an extent -/

/-- The bytes of the LBAs of an extent, an unwritten one as zeros. -/
def foldBytes (l : List SideRead) : Bytes := l.flatMap (fun r => match r with | .data b => fitBytes 4096 b | _ => zeroBytes 4096)

/-- The latest append number among the 256 LBAs of an extent. -/
def State.extentApp (s : State) (extent : Nat) : Nat := (List.range 256).foldl (fun a k => max a (s.sideApp (256 * extent + k))) 0

/-- The large unit that takes up an extent, when there is room for it. -/
def State.foldUnit (s : State) (extent : Nat) : Option (Nat × State) :=
  s.newUnit .large extent (foldBytes ((List.range 256).map (fun k => s.sideRead (256 * extent + k)))) [256 * extent, 256, s.extentApp extent]

/-- An extent that is due is folded into its unit; with no room for the unit the sidecar is worn. -/
theorem exec_fold_due {s : State} {extent touch : Nat} {m : NMap Fine} (hw : s.mag.st.working = true)
    (hx : NMap.find? s.car.exts extent = some (.fine m touch)) (h48 : 48 ≤ m.countP (fun (e : Nat × Fine) => e.2.unit.isSome))
    (hage : touch + s.pn pCSL_FOLD_S ≤ s.rtcSec)
    (hun : ((List.range 256).map (fun k => s.sideRead (256 * extent + k))).contains .unreadable = false) (hrdy : s.seqReady = true) :
    exec (.fold extent) s = .next ((s.foldUnit extent).elim s.sideWorn (fun p => (p.2.setExtent extent (some (.large p.1)) [p.1]).carLog 0x60 1)).goOn := by
  show execFold extent s = _
  simp only [execFold, hx]
  rw [if_neg (by simp only [hw, Nat.not_lt.mpr h48, Nat.not_lt.mpr hage, hun, hrdy]; decide)]
  cases h : s.foldUnit extent with
  | none =>
    refine congrArg Host.Outcome.next ?_
    split
    · next id t h' => cases h'.symm.trans h
    · rfl
  | some p =>
    refine congrArg Host.Outcome.next ?_
    split
    · next id t h' => cases h'.symm.trans h; rfl
    · next h' => cases h'.symm.trans h

/-- Settles O49. -/
theorem carouselCommandsAct : Obligations.CarouselCommandsAct := by
  unfold Obligations.CarouselCommandsAct
  refine ⟨fun s => ⟨fun hal => ⟨fun unit u hu hdue h69 => ?_, fun die hd hret => ?_, fun die block page errors t n hd ht hn => ⟨fun hu her => ?_,
        fun lost hu her hl h0 => ?_, fun id u hu h1 hgood hworst => ?_⟩, fun i c hroom hc => ⟨fun hi => ?_, fun hi h72 => ?_⟩, fun hdr hrdy hck => ?_,
        fun hdr hsf hnor hroom => ⟨_, rfl, ?_, ?_⟩⟩,
      fun hw => ⟨fun k scrub hrdy hv => ?_, ?_⟩, fun haon => ?_, fun hh => ?_⟩,
    fun s extent m touch hw hx h48 hage hun hrdy => ⟨s.extentApp extent, s.foldUnit extent, rfl, fun id t hr => ?_, fun hr => ?_⟩⟩
  · show execPageProgramStatus unit true s = _
    simp only [execPageProgramStatus, hu, hal, hdue, h69, Bool.not_true, Bool.or_self, Bool.false_eq_true, if_false, if_true]
  · show execDieOperationTimeout die s = _
    rw [execDieOperationTimeout, if_neg (by simp [hal, hd, hret])]
  · rw [exec_pageRead_noUnit hal hd ht hn hu rfl, if_neg (by simp [her])]
  · rw [exec_pageRead_noUnit hal hd ht hn hu hl, if_pos (by simp [her, h0])]
  · show execPageRead die block page errors s = _
    subst h1
    simp only [execPageRead, hal, hd, Bool.not_true, Bool.or_self, Bool.false_eq_true, if_false, ← ht, hu, ← hn]
    refine congrArg (fun x : State => Host.Outcome.next x.readAll.goOn) ((if_neg (Nat.not_lt.mpr hworst)).trans ?_)
    rw [attempt_good hgood]
    rfl
  · show execJournalRecordPersisted s = _
    simp only [execJournalRecordPersisted, hal, hroom, hc, hi, Bool.not_true, Bool.or_self, Bool.false_and, Bool.false_eq_true, if_false]
  · show execJournalRecordPersisted s = _
    simp only [execJournalRecordPersisted, hal, hroom, hc, hi, h72, Bool.not_true, Bool.or_self, Bool.and_false, Bool.false_eq_true, if_false,
      if_true]
  · show execCheckpointWrite s = _
    rw [execCheckpointWrite, if_neg]
    simpa [hal, hdr, hrdy] using hck
  · show execProgramSequenceCeiling true true s = _
    simp only [execProgramSequenceCeiling, Bool.and_self, if_true]
    rw [if_neg (by simp [hal, hdr, hsf, hnor, hroom])]
  · show execProgramSequenceCeiling false false s = _
    simp only [execProgramSequenceCeiling, Bool.or_self, Bool.and_self, Bool.false_eq_true, if_false]
    rw [if_neg (by simp [hal, hdr, hsf, hnor, hroom])]
  · show execGcRun s = _
    simp only [execGcRun, hw, hrdy, hv, Bool.true_or, Bool.not_true, Bool.or_self, Bool.false_eq_true, if_false]
  · show execScrub s = _
    rw [execScrub, if_neg (by simp [hw])]
  · exact ⟨_, exec_ageClockStep_on haon, age_carry s.car.age s.car.ageFrac (16 * ageFactor (s.pn pCSL_EA_MEV) s.ageTemp), rfl⟩
  · show execHmbMapLoadDone s = _
    rw [execHmbMapLoadDone, if_pos hh]
  · rw [exec_fold_due hw hx h48 hage hun hrdy, hr, Option.elim_some]
  · rw [exec_fold_due hw hx h48 hage hun hrdy, hr, Option.elim_none]

end Sys2Proof.Machine

end

section

/-! # The line, the rails, the bank and the temperatures -/

namespace Sys2Proof.Machine

set_option Elab.async false

/-! ## The line and the rails -/

theorem MagState.working_ne {m : MagState} (h : m.working = true) : m ≠ .boot ∧ m ≠ .drain ∧ m.alive = true := by
  cases m <;> revert h <;> decide

/-- Line loss in a working state starts a DRAIN. -/
theorem State.loseLine_working {s : State} {cls : Nat} (h : s.mag.st.working = true) : s.loseLine cls = s.interruptTest.startDrain cls := by
  rw [State.loseLine, if_neg (MagState.working_ne h).1, if_pos (by simp [h])]

theorem State.loseLine_boot {s : State} {cls : Nat} (h : s.mag.st = .boot) : s.loseLine cls = s.interruptTest.railsOff.afterRails := by
  rw [State.loseLine, if_pos h]

/-- No seal stands in a working state. -/
theorem State.drainSealed_working {s : State} (h : s.mag.st.working = true) : s.drainSealed = false := by
  simp [State.drainSealed, (MagState.working_ne h).2.1]

/-- A new line within the range. -/
theorem exec_linePresent_new {s : State} {mv : Nat} (ha : s.pw.aon = true) (hlo : 35000 ≤ mv) (hhi : mv ≤ 64000) (hl : s.pw.line = false) :
    exec (.linePresent mv) s = .next (
      if s.mag.st = .off || s.mag.st = .island then ((s.modPw (fun p => { p with line := true, lineMv := mv })).chvRaise 0x780 3 []).powerUp
      else (s.modPw (fun p => { p with line := true, lineMv := mv })).chvRaise 0x780 3 []) := by
  show execLinePresent mv s = _
  rw [execLinePresent, if_neg (by simp [ha]), if_neg (Nat.not_lt.mpr hhi), if_neg (Nat.not_lt.mpr hlo), if_neg (by simp [hl])]

/-- The PGOOD of an enabled rail is lost in a working state: only rails 3, 10 and 11 leave what a DRAIN needs. -/
theorem exec_pgoodLost_working {s t : State} {rail : Nat} (ha : s.pw.aon = true) (hen : Nat.testBit s.pw.en rail = true)
    (hpg : Nat.testBit s.pw.pgood rail = true) (hw : s.mag.st.working = true)
    (ht : t = ((s.modPw (fun p => { p with pgood := p.pgood - 2 ^ rail })).chvRaise 0x783 2 (leBytes 1 rail)).ringAdd 7 (leBytes 1 rail)) :
    exec (.pgoodLost rail) s = .next (
      if !(rail != 3 && decide (rail < 10)) then t.loseLine 3 else t.interruptTest.cutRails (if 4 ≤ rail && rail ≤ 7 then 5 else 4)) := by
  show execPgoodLost rail s = _
  simp only [execPgoodLost, ← ht, State.drainSealed_working hw]
  rw [if_neg (by simp [ha, hen, hpg]), if_neg (MagState.working_ne hw).1]
  rfl

/-- Settles O50. -/
theorem railsCommandsAct : Obligations.RailsCommandsAct := by
  unfold Obligations.RailsCommandsAct
  intro s
  refine ⟨fun hoff haon => ?_, fun haon => ⟨?_, fun mv hlo hhi hl hst => ?_, fun mv hmv => ?_, fun mv hlo hhi hl hoff hisl => ?_,
      fun hl => ⟨?_, fun t ht => ⟨fun hw => ?_, fun hb => ?_⟩⟩, fun rail hen hpg hw t ht => ⟨fun hr htw => ?_, fun h4 h7 => ?_, fun hr => ?_⟩⟩,
    fun n hn => ⟨fun h9 => ?_, fun h9 => ?_, ?_⟩, fun hb hre hl => ?_, fun hb href hm => ?_, fun hs hsub => ?_, fun hd hsub hs => ?_, fun hi => ?_⟩
  · refine ⟨_, (congrArg Host.Outcome.next (if_neg ?_) : execAonPorstNRise s = _), rfl, rfl, rfl, rfl, rfl, rfl⟩
    simp [hoff, haon]
  · show execCrystalStable s = _
    rw [execCrystalStable, if_pos haon]
  · rw [exec_linePresent_new haon hlo hhi hl, if_pos (by simpa using hst)]
    exact ⟨_, rfl, rfl, rfl, rfl, rfl⟩
  · show execLinePresent mv s = _
    rw [execLinePresent, if_neg (by simp [haon]), if_pos hmv, State.badInput]
  · rw [exec_linePresent_new haon hlo hhi hl, if_neg (by simp [hoff, hisl])]
  · show execLineOvervoltage s = _
    rw [execLineOvervoltage, if_pos (by simp [haon, hl])]
  · show execLineLoss s = _
    rw [execLineLoss, if_neg (by simp [haon, hl]), ← ht, State.loseLine_working hw]
  · show execLineLoss s = _
    rw [execLineLoss, if_neg (by simp [haon, hl]), ← ht, State.loseLine_boot hb]
  · rw [exec_pgoodLost_working haon hen hpg hw ht, if_pos (by simpa [Nat.not_lt] using hr), State.loseLine_working htw]
  · rw [exec_pgoodLost_working haon hen hpg hw ht, if_neg (by simp; omega), if_pos (by simp [h4, h7])]
  · rw [exec_pgoodLost_working haon hen hpg hw ht, if_neg (by simp; omega), if_neg (by simp; omega)]
  · show execPowerUpStep true s = _
    have h9' : decide (9 ≤ n) = false := by simpa using h9
    simp only [execPowerUpStep, hn, Bool.not_true, Bool.false_eq_true, if_false, if_pos h9, h9']
  · show execPowerUpStep true s = _
    subst h9
    simp only [execPowerUpStep, hn]
    rfl
  · show execPgoodTimeout n s = _
    rw [execPgoodTimeout, if_neg (by simp [hn])]
  · show execPowerUpRetry s = _
    rw [execPowerUpRetry, if_pos (by simp [hb, hre, hl])]
  · show execReferenceSettled s = _
    rw [execReferenceSettled, if_pos (by simp [hb, href, hm])]
  · show execDrainComplete s = _
    rw [execDrainComplete, if_pos (by simp [hs, hsub])]
  · show execBankBelowMinimum s = _
    simp only [execBankBelowMinimum, hsub, hs, TSub.moves, Bool.false_eq_true, if_false]
    rw [if_neg (by simp [hd])]
  · refine ⟨_, (congrArg Host.Outcome.next (if_neg ?_) : execBankBelowIslandMinimum s = _), rfl, rfl, rfl, rfl, rfl⟩
    simp [hi]

/-! ## The bank and its test -/

theorem State.takeBank_valid {s : State} {mv : Nat} (h : mv ≤ 64000) : s.takeBank mv = s.modPw (fun p => { p with bankMv := mv }) := by
  rw [State.takeBank, if_neg (Nat.not_lt.mpr h)]

/-- A test starts when none runs and the profile has been applied. -/
theorem State.testStart_idle {s : State} (ha : s.awake = true) (ht : s.pw.test = .idle) (hw : Nat.testBit s.mag.why 0 = false) :
    s.testStart = s.modPw (fun p => { p with test := .charging, testAge := 0 }) := by
  rw [State.testStart, if_neg (by simp only [ha, ht, hw]; decide)]

/-- A test that ends within its limits passes. -/
theorem exec_bankTestEnd_passes {s : State} {v0 v1 mv us : Nat} (ht : s.pw.test = .sampled v0 v1) (hend : 100000 ≤ us ∨ mv + 2000 ≤ v0) (hv : mv < v1)
    (hr : s.pn pPWR_RTEST ≠ 0) (hc : s.pn pPWR_C_MIN * (capOf v1 mv (s.pn pPWR_RTEST) us).2 ≤ (capOf v1 mv (s.pn pPWR_RTEST) us).1)
    (he : (esrOf v0 v1 (s.pn pPWR_RTEST)).1 ≤ s.pn pPWR_ESR_MAX * 1000 * (esrOf v0 v1 (s.pn pPWR_RTEST)).2) :
    exec (.bankTestEnd mv us) s = .next (((s.modPw (fun p => { p with bankMv := mv, testPin := false })).drawn 0).modPw (fun p =>
      { p with
        test := .idle
        passed := true
        failed := false
        everPassed := true
        testFails := 0
        cap := capOf v1 mv (s.pn pPWR_RTEST) us
        esr := esrOf v0 v1 (s.pn pPWR_RTEST) })) := by
  show execBankTestEnd mv us s = _
  have hopen : (decide (v1 ≤ mv) || decide (s.pn pPWR_RTEST = 0)) = false := by simp [hr, hv]
  simp only [execBankTestEnd, ht, hopen, Bool.false_eq_true, if_false, hc, he, decide_true, Bool.not_true]
  rw [if_neg (by simp; omega)]

/-! ## The composite temperature -/

/-- A composite temperature between the end of the warning and the critical level. -/
theorem exec_compositeTemperature {s : State} {deci : Int} (hm : s.pw.mgt = true) (ha : s.mag.st.alive = true) (hlo : 970 ≤ deci)
    (hhi : deci < 1050) :
    exec (.compositeTemperatureSample deci) s = .next ((State.noteThreshold s (
      if decide (1000 ≤ deci) && decide (s.pw.thermal = 0) then
        (((s.modPw (fun p => { p with tj := deci, tjPeak := max p.tjPeak deci })).modPw (fun p => { p with thermal := 1 })).raise 0x786 1 []).asyncEvent 1 1 2
      else s.modPw (fun p => { p with tj := deci, tjPeak := max p.tjPeak deci }))).goOn) := by
  show execCompositeTemperatureSample deci s = _
  have hcrit : decide (1050 ≤ deci) = false := by simpa using hhi
  have hend : decide (deci < 970) = false := by simpa using hlo
  simp only [execCompositeTemperatureSample, hm, ha, Bool.and_self, Bool.not_true, Bool.false_eq_true, if_false, hcrit, hend, Bool.false_and]

/-- Settles O51. -/
theorem bankTestAndTemperatureAct : Obligations.BankTestAndTemperatureAct := by
  unfold Obligations.BankTestAndTemperatureAct
  intro s
  refine ⟨fun haw mv hmv => ⟨⟨_, rfl, ?_⟩, fun ht hw => ⟨?_, ?_⟩⟩, fun h q t u k hc hu haw ht hw => ?_, fun ht => ⟨fun mv hmv => ?_, ?_⟩,
    fun v0 mv ht => ⟨fun hle => ?_, fun hlt => ?_⟩,
    fun v0 v1 mv us ht hend hv hr hc he => ⟨_, exec_bankTestEnd_passes ht hend hv hr hc he, rfl, rfl, rfl, rfl, rfl, rfl, rfl⟩,
    fun haon => ⟨fun c hum shocks hlo hhi => ?_, fun hum shocks => ?_, fun x y z => ?_⟩,
    fun hm ha => ⟨fun deci hlo hhi => ?_, fun deci hlo hhi hth => ?_, fun hw => ?_⟩⟩
  · show execCreditRecompute mv s = _
    simp only [execCreditRecompute, haw, Bool.not_true, Bool.false_eq_true, if_false, State.takeBank_valid hmv]
  · show execBankTestStart mv s = _
    rw [execBankTestStart, if_neg (by simp [haw]), State.takeBank_valid hmv,
      State.testStart_idle (s := s.modPw (fun p => { p with bankMv := mv })) haw ht hw]
  · exact congrArg (fun u : State => Host.Outcome.next u.goOn) (State.testStart_idle haw ht hw)
  · subst hu
    show execPwrTestNow (some h) s = _
    rw [execPwrTestNow, State.regWrite_host k hc, State.testStart_idle haw ht hw]
  · show execBankTestCharged mv s = _
    rw [execBankTestCharged, if_neg (by simpa [ht] using hmv)]
  · show execBankTestChargeTimeout s = _
    rw [execBankTestChargeTimeout, if_pos ht, State.testFail]
  · show execBankTestV1Sample mv s = _
    simp only [execBankTestV1Sample, ht, if_pos hle]
  · show execBankTestV1Sample mv s = _
    simp only [execBankTestV1Sample, ht, if_neg (Nat.not_le.mpr hlt)]
  · show execTemperatureSample (some c) hum shocks s = _
    simp only [execTemperatureSample, haon, Bool.not_true, Bool.false_eq_true, if_false, hlo, hhi, decide_true, Bool.and_self, if_true]
  · show execTemperatureSample none hum shocks s = _
    simp only [execTemperatureSample, haon, Bool.not_true, Bool.false_eq_true, if_false]
  · show execShockInterrupt x y z s = _
    rw [execShockInterrupt, if_pos haon]
  · rw [exec_compositeTemperature hm ha hlo (by omega), if_neg (by simp; omega)]
  · rw [exec_compositeTemperature hm ha (by omega) hhi, if_pos (by simp [hlo, hth])]
  · show execThermalTrip s = _
    rw [execThermalTrip, if_neg (by simp [hm, ha, (MagState.working_ne hw).2.1])]
    exact congrArg _ (State.loseLine_working hw)

end Sys2Proof.Machine

end

section

/-! # Event records, health and NOR programs -/

namespace Sys2Proof.Machine

set_option Elab.async false

/-! ## Event records -/

/-- A record of a source whose FIFO takes its packet goes on from the FIFO. -/
theorem exec_eventRecord_fed {s u : State} {evt cause n : Nat} {data : Bytes} (ha : s.mag.st.alive = true) (hn : n = 80 + evt % 2048 / 256)
    (hu : u = (s.feed n (eventPacket (evt % 2048) (cause % 16) data)).1) (hr : (s.feed n (eventPacket (evt % 2048) (cause % 16) data)).2 = false) :
    exec (.eventRecord evt cause data) s = .next (u.routeFifo n) := by
  show execEventRecord evt cause data s = _
  rw [execEventRecord, if_pos ha]
  simp only [State.raise, Nat.mod_mod, ← hn, hr, State.when, Bool.false_eq_true, if_false, ← hu]

theorem State.routeFifo_none {u : State} {n : Nat} {f : Fifo} (h : (u.fifo n).takePackets (u.pni pSFQ_CT_THRESH n) = ([], f)) :
    u.routeFifo n = u.modFifo n (fun _ => f) := by
  simp only [State.routeFifo, h, List.foldl_nil]

theorem State.routeFifo_one {u t : State} {n e c : Nat} {f : Fifo} {p : List FWord} {d : Bytes}
    (h : (u.fifo n).takePackets (u.pni pSFQ_CT_THRESH n) = ([p], f)) (hp : eventOf p = (e, c, d)) (ht : t = u.modFifo n (fun _ => f)) :
    u.routeFifo n = t.route e c d := by
  simp only [State.routeFifo, h, List.foldl_cons, List.foldl_nil, hp, ht]

/-- A record that EVT_CTL sends nowhere is counted. -/
theorem State.route_count {t : State} {e c : Nat} {d : Bytes} (h : t.evtCtl e = 0) :
    t.route e c d = t.modEv (fun v => { v with count := NMap.bumpSat (2 ^ 32 - 1) v.count e 1 }) := by
  simp only [State.route, h, Nat.zero_mod, Nat.zero_testBit, Bool.false_and, Bool.false_eq_true, zero_ne_one, if_false]

/-- A record that EVT_CTL sends to the journal alone is counted and journalled within the rate of its second. -/
theorem State.route_journal {t : State} {e c : Nat} {d : Bytes} (h : t.evtCtl e = 1) (he : e ≠ 0x7F0) (hr : NMap.get 0 t.ev.inSec e < t.ev.rate) :
    t.route e c d = (((t.modEv (fun v => { v with count := NMap.bumpSat (2 ^ 32 - 1) v.count e 1 })).modEv (fun v =>
      { v with inSec := NMap.bump v.inSec e 1 })).journal e c false d) := by
  have hb1 : Nat.testBit 1 1 = false := rfl
  have hb2 : Nat.testBit 1 2 = false := rfl
  have hm : 1 % 2 = 1 := rfl
  simp only [State.route, h, hm, hb1, hb2, he, hr, decide_false, Bool.or_self, Bool.false_and, Bool.false_eq_true, if_true, if_false]

/-! ## NOR programs -/

/-- The second copy of an area has been programmed. -/
theorem exec_norProgram_second {s : State} {area : Nat} {o : NorOp} {ok r : Bool} (ha : s.mag.st.alive = true) (hd : s.mag.st ≠ .drain)
    (ho : s.nor.ops.find? (fun o => o.area = area) = some o) (hr : o.r0 = some r) :
    exec (.norProgramComplete area (1 - o.first) ok) s = .next (((((if ok then s.putCopy area (1 - o.first) o.data r else s).modNor (fun n =>
      { n with ops := n.ops.erase o })).norDone area o.data o.act (r || ok)).settleRot).goOn) := by
  show execNorProgramComplete area (1 - o.first) ok s = _
  simp only [execNorProgramComplete, ho, hr, Option.isNone_some, Bool.false_eq_true, if_false, bne_self_eq_false, ha, Bool.not_true, Bool.or_self,
    if_neg hd]

/-- The first copy of an area other than the key record's has been programmed. -/
theorem exec_norProgram_first {s : State} {area : Nat} {o : NorOp} {ok : Bool} (ha : s.mag.st.alive = true) (hd : s.mag.st ≠ .drain)
    (ho : s.nor.ops.find? (fun o => o.area = area) = some o) (hr : o.r0 = none) (h1 : area ≠ 1) :
    exec (.norProgramComplete area o.first ok) s = .next (((if ok then s.putCopy area o.first o.data false else s).modNor (fun n =>
      { n with ops := n.ops.map (fun x => if x = o then { o with r0 := some ok, data := o.data } else x) })).goOn) := by
  show execNorProgramComplete area o.first ok s = _
  simp only [execNorProgramComplete, ho, hr, Option.isNone_none, if_true, bne_self_eq_false, ha, Bool.not_true, Bool.or_self, Bool.false_eq_true,
    if_false,
    if_neg hd, if_neg h1]

/-! ## The used percentage -/

/-- Below 90 per cent nothing is raised. -/
theorem State.lifeCompute_below {s : State} {pct : Nat} (hp : pct = min 255 (100 * s.lifeMax.1.1 / s.lifeMax.1.2)) (h : pct < 90) :
    s.lifeCompute = s.modEv (fun v => { v with life := (pct, s.lifeMax.2) }) := by
  have h90 : decide (90 ≤ pct) = false := by simpa using h
  have h100 : decide (100 ≤ pct) = false := by simp; omega
  simp only [State.lifeCompute, ← hp, h90, h100, Bool.false_and, Bool.false_eq_true, if_false]

/-- From 90 to 100 per cent the first notice is raised once. -/
theorem State.lifeCompute_notice {s : State} {pct : Nat} (hp : pct = min 255 (100 * s.lifeMax.1.1 / s.lifeMax.1.2)) (h90 : 90 ≤ pct)
    (h100 : pct < 100)
    (hb : Nat.testBit s.ev.lifeEvt 0 = false) :
    s.lifeCompute = ((s.modEv (fun v => { v with life := (pct, s.lifeMax.2) })).modEv (fun v => { v with lifeEvt := v.lifeEvt ||| 2 ^ 0 })).raise 0x608 1
      [] := by
  have h90' : decide (90 ≤ pct) = true := by simpa using h90
  have h100' : decide (100 ≤ pct) = false := by simpa using h100
  simp only [State.lifeCompute, ← hp, h90', h100', hb, Bool.not_false, Bool.and_self, Bool.false_and, Bool.false_eq_true, if_false, if_true]

/-- Settles O53. -/
theorem eventsAndHealthAct : Obligations.EventsAndHealthAct := by
  unfold Obligations.EventsAndHealthAct
  intro s ha
  refine ⟨fun evt cause data u n hn hu hr => ⟨fun f hf => ?_, fun f p e c d t hf hp ht => ⟨fun hctl he => ?_, fun hctl he hin => ?_⟩⟩, ?_,
    fun hd es hes => ⟨fun h0 => ?_, fun h0 => ?_⟩, fun m pct hm hp => ⟨fun h90 => ?_, fun h90 h100 hb => ?_⟩, fun hd hdue => ?_,
    fun hd area o ho => ⟨fun r hr => ⟨?_, ?_⟩, fun hr h1 ok => exec_norProgram_first ha hd ho hr h1⟩⟩
  · rw [exec_eventRecord_fed ha hn hu hr, State.routeFifo_none hf]
  · rw [exec_eventRecord_fed ha hn hu hr, State.routeFifo_one hf hp ht, State.route_count hctl]
  · rw [exec_eventRecord_fed ha hn hu hr, State.routeFifo_one hf hp ht, State.route_journal hctl he hin]
  · show execEventRateSecondEnd s = _
    rw [execEventRateSecondEnd, if_pos ha]
  · show execEventJournalPersist s = _
    rw [execEventJournalPersist, if_pos (by simp [ha, hd]), State.persistEvents, ← hes, if_neg (by simpa using h0)]
  · show execEventJournalPersist s = _
    rw [execEventJournalPersist, if_pos (by simp [ha, hd]), State.persistEvents, ← hes, if_pos (by simp [h0])]
  · show execPercentageUsedCompute s = _
    subst hm
    rw [execPercentageUsedCompute, if_pos ha, State.lifeCompute_below hp h90]
  · show execPercentageUsedCompute s = _
    subst hm
    rw [execPercentageUsedCompute, if_pos ha, State.lifeCompute_notice hp h90 h100 hb]
  · show execHealthRecordWrite s = _
    rw [execHealthRecordWrite, if_pos (by simp only [ha, hdue, decide_true, Bool.and_true, Bool.true_and]; simpa using hd), State.writeHealth]
  · rw [exec_norProgram_second ha hd ho hr, if_pos rfl, Bool.or_true]
  · rw [exec_norProgram_second ha hd ho hr, if_neg (by decide), Bool.or_false]

end Sys2Proof.Machine

end
